-- ==== Sys2Proof/Word.lean ====
section
/-!
DEFINITION. The word types of the Kelelo: a byte, a 32-bit register word and a 64-bit word.
-/

namespace Sys2Proof

/-- One byte, the smallest addressable unit. -/
abbrev Byte := BitVec 8

/-- A 32-bit register word (R60). -/
abbrev Word := BitVec 32

/-- A 64-bit word: a register pair (R78), a command word (R375), a pawn register (R122). -/
abbrev DWord := BitVec 64

end Sys2Proof
end

