-- ==== Sys2Proof/Syntax.lean ====
section
/-!
DEFINITION. The commands of the Kelelo block: one constructor of `Instr` per row of spec/opcode_table.json, and the types
of their operands. An operand named `id` is the number of an admitted command (a job of `State`); `r` is the requester of
a register access (R61); `v` the word written.
-/

namespace Sys2Proof

/-- Who makes a register access (R61): a function of the bridge (0 the physical function), a pawn, the Arbiter or the
RoT of the island, or a remote device over a link. -/
inductive Req where
  | host (fn : Fin 16)
  | pawn (q : Fin 64) (k : Fin 4)
  | arbiter
  | rot
  | remote (dev : BitVec 16) (part : Fin 16)
deriving DecidableEq, Repr

/-- The engines that serve commands (R387, R388): matrix and vector engines and movers of a square, its port 5 unit, the
update units, the collective engine and the scheduler itself. -/
inductive Engine where
  | mxe (q : Fin 64) (u : Fin 2)
  | vxe (q : Fin 64) (u : Fin 2)
  | mov (q : Fin 64) (c : Fin 4)
  | sft (q : Fin 64)
  | upd
  | col
  | sch
deriving DecidableEq, Repr

/-- Where an error arises or is detected. By parity in an engine (R170, R218, R314, R369, R464): within a matrix array in the
accumulator or the row channel of a cell, in the column channel of a cell, or in a shared part. In a stored word, where its
code will find it when it is next read: of a scratchpad (R118), a pawn's memories (R127) or a segment-table bank (R228), one bit or
two; of device memory, so many symbols of a granule (R332). On a hop of the mesh, in so many attempts to send one flit (R139). -/
inductive ParityPlace where
  | mxeCell (q : Fin 64) (u : Fin 2) (row col : Fin 128)
  | mxeCol (q : Fin 64) (u : Fin 2) (row col : Fin 128)
  | mxeShared (q : Fin 64) (u : Fin 2)
  | vxe (q : Fin 64) (u : Fin 2)
  | mov (q : Fin 64) (c : Fin 4)
  | sft (q : Fin 64)
  | upd (k : Fin 8)
  | col
  | spadWord (p : Fin 72) (w : Fin 0x300000) (double : Bool)
  | pawnWord (p : Fin 72) (k : Fin 4) (w : Fin 0x4000) (double : Bool)
  | sftWord (p : Fin 72) (bank : Fin 2) (slot : Fin 32) (w : Fin 512) (double : Bool)
  | memGranule (g : BitVec 42) (symbols : Fin 33)
  | meshHop (p : Fin 72) (fails : Nat)
deriving DecidableEq, Repr

/-- A packet of the link fabric (R421), field by field. -/
structure Packet where
  type : Byte
  part : Fin 16
  det : Bool
  dst : BitVec 16
  src : BitVec 16
  stream : BitVec 16
  addr : BitVec 48
  len : BitVec 12
  epoch : Word
  tag : BitVec 17
  hops : BitVec 4
  code : Byte
  remain : Word
  arg : Word
  payload : List Byte
deriving DecidableEq, Repr

/-- What a link's training finds (R404, R406): the lanes that pass step 1, step 2 and step 3 at both ends, the lanes with
inverted polarity, the lanes' order, the peer's identity, and what keying finds of the peer (R490): whether its certificate chain
verifies, whether its block 5 reads FIELD_LOCKED, and whether its block 6 shows opened debug. -/
structure Training where
  detect : BitVec 4
  train : BitVec 4
  lanes : BitVec 4
  polarity : BitVec 4
  order : List (Fin 4)
  peerDev : BitVec 16
  peerLink : BitVec 6
  chain : Bool
  locked : Bool
  opened : Bool
deriving DecidableEq, Repr

/-- A flit as it arrives (R408 to R412): its block's counter, whether every codeword of the block decodes, the physical lanes
whose parity byte failed in the block, whether the tag verified, its trailer's SEQ, ACK_SEQ and FTYPE, its partition, its
KEY_PHASE and its bytes. -/
structure Flit where
  block : BitVec 32
  decoded : Bool
  badLanes : BitVec 4
  tagOk : Bool
  seq : Nat
  ack : Nat
  ftype : BitVec 3
  part : Fin 16
  key : Bool
  bytes : List Byte
deriving DecidableEq, Repr

/-- What a start-up step finds (R571, R576): whether every component it loads verifies, whether central logic and the I/O dies
pass, and the physical squares, channels, base dies and lanes that fail. -/
structure StepResult where
  verified : Bool
  central : Bool
  squares : List (Fin 72)
  channels : List (Fin 8 × Fin 136)
  bases : List (Fin 8)
  lanes : List (Fin 64 × Fin 4)
deriving DecidableEq, Repr

/-- An MCTP message that reaches the Arbiter (R520, R521): the transport it came by, its endpoints, its type and bytes, and for a PCIe
vendor-defined message the function it came to. -/
structure MctpMsg where
  transport : Nat
  src : Byte
  dst : Byte
  type : Byte
  bytes : List Byte
  fn : Fin 16
deriving DecidableEq, Repr

/-- The commands. -/
inductive Instr where
  /-- REGISTER_WRITE (R63): A DRS write to a field that has no behaviour of its own is applied or ignored according to the page
  owner and the field's access code. -/
  | registerWrite (r : Req) (off : BitVec 24) (v : Word)
  /-- BAD_ACCESS (R60): A DRS access that is not naturally aligned at 32 bits is ignored or reads 0, and sets DEV_INT_STATUS.BAD_ACCESS. -/
  | badAccess (r : Req) (off : BitVec 24) (size : Nat) (write : Bool)
  /-- PAIR_LOW_READ (R78): A read of the low word of a 64-bit register latches that pair's high word for the requester. -/
  | pairLowRead (r : Req) (off : BitVec 24)
  /-- PAIR_LOW_WRITE (R79): A write of the low word of a writable 64-bit register is held for the requester until the high word is
  written. -/
  | pairLowWrite (r : Req) (off : BitVec 24) (v : Word)
  /-- PAIR_HIGH_WRITE (R79): A write of the high word commits it together with the held low word, or with a low word of 0 when none
  is held. -/
  | pairHighWrite (r : Req) (off : BitVec 24) (v : Word)
  /-- REMOTE_PAIR_ACCESS (R80): An 8-byte remote access reads or writes a register pair at once; a 4-byte remote write to a pair is
  refused. -/
  | remotePairAccess (dev : BitVec 16) (part : Fin 16) (off : BitVec 24) (size : Nat) (write : Option DWord)
  /-- PAGE_OWNER (R67): A write of PAGE_OWNER changes LOCK, or changes the square's owner and starts zeroing, judged against the
  LOCK held before the write. -/
  | pageOwner (r : Req) (pn : BitVec 12) (v : Word)
  /-- ZEROING_DONE (R67): Reassignment zeroing completes, ZEROING clears and any pending enable is released. -/
  | zeroingDone (q : Fin 64)
  /-- ENABLE (R70): A write of CTRL.ENABLE moves the page through the enable state machine, or sets or clears ENABLE_PENDING. -/
  | enable (r : Req) (pn : BitVec 12) (v : Word)
  /-- SOFT_RESET (R73): A CTRL write that sets SOFT_RESET returns an OFF or FAULTED page to reset values; in any other state it is
  ignored with CMD_IGNORED. -/
  | softReset (r : Req) (pn : BitVec 12) (v : Word)
  /-- INITIALISATION_COMPLETE (R70): A STARTING page finishes initialising and enters RUNNING, or DRAINING when ENABLE is 0. -/
  | initialisationComplete (pn : BitVec 12)
  /-- DRAIN_COMPLETE (R70): A DRAINING page's drain completes and the page enters OFF, or STARTING when ENABLE_PENDING is set. -/
  | drainComplete (pn : BitVec 12)
  /-- INT_STATUS_CLEAR (R88): A write of 1 to INT_STATUS bits clears them and the summary bits that depended on them. -/
  | intStatusClear (r : Req) (pn : BitVec 12) (v : Word)
  /-- INT_ENABLE (R68): A write of INT_ENABLE that enables a bit whose status is already set raises the interrupt at once. -/
  | intEnable (r : Req) (pn : BitVec 12) (v : Word)
  /-- INT_FORCE (R68): A write of INT_FORCE sets the matching status bits exactly as the events would. -/
  | intForce (r : Req) (pn : BitVec 12) (v : Word)
  /-- ERR_WINDOW (R77): A write of ERR_WINDOW empties the buckets, or is ignored with CMD_IGNORED when LENGTH is below 8. -/
  | errWindow (r : Req) (set : BitVec 24) (v : Word)
  /-- ERR_THRESHOLD (R77): A write of ERR_THRESHOLD keeps the buckets and declares the fault lasting at once when the new LIMIT is
  at most IN_WINDOW and not 0. -/
  | errThreshold (r : Req) (set : BitVec 24) (v : Word)
  /-- BUCKET_ADVANCE (R76): A fault-window bucket period expires on the Arbiter's local time, and the eight buckets advance. -/
  | bucketAdvance (set : BitVec 24)
  /-- LASTING_DECLARED (R76): IN_WINDOW reaches LIMIT, LASTING and ERR_LASTING are set, and the unit enters RETIRED. -/
  | lastingDeclared (set : BitVec 24)
  /-- DEV_ID (R83): A write of DEV_ID assigns the device ID, and is ignored with CMD_IGNORED while any LNK page is not OFF. -/
  | devId (r : Req) (v : Word)
  /-- ENGINE_RESET (R85): A DEV_RESET write with key and ENGINE aborts commands, faults their contexts, and resets engine pages and
  square stores. -/
  | engineReset (r : Req) (v : Word)
  /-- WARM_RESET (R85): A DEV_RESET write with key and WARM resets everything outside the always-on island and resumes start-up at
  step 5. -/
  | warmReset (r : Req) (v : Word)
  /-- COLD_RESET (R85): A DEV_RESET write with key and COLD resets the device as RST_N does, destroying every key. -/
  | coldReset (r : Req) (v : Word)
  /-- SPD_SWZ_WRITE (R116): A write of SPD_SWZ_BASE_n or SPD_SWZ_CFG_n sets a swizzle window, or is ignored with CMD_IGNORED when
  the page is not OFF or the window is invalid. -/
  | spdSwzWrite (r : Req) (q : Fin 64) (n : Fin 8) (cfg : Bool) (v : Word)
  /-- TOL_EXP (R187): A write of MXE_CHECK.TOL_EXP takes effect from the next command, or is ignored outside 4 to 20. -/
  | tolExp (r : Req) (q : Fin 64) (u : Fin 2) (v : Word)
  /-- PWN_MBOX_IN (R147): A write of PWN_MBOX_IN delivers a message to the pawn and sets HOST_MBOX. -/
  | pwnMboxIn (r : Req) (q : Fin 64) (k : Fin 4) (v : Word)
  /-- PWN_MBOX_OUT (R147): The pawn's firmware writes PWN_MBOX_OUT, and MBOX_OUT is set on the PWN page. -/
  | pwnMboxOut (q : Fin 64) (k : Fin 4) (v : Word)
  /-- MBOX_SEND (R129): A pawn's write of MBOX_SEND delivers the message to MBOX_RECV of pawn TARGET and sets its PAWN_MBOX. -/
  | mboxSend (q : Fin 64) (k : Fin 4) (v : Word)
  /-- MACHINE_TIMER_INTERRUPT (R129): The pawn's time reaches MTIMECMP, and the machine timer interrupt becomes pending. -/
  | machineTimerInterrupt (q : Fin 64) (k : Fin 4)
  /-- PAWN_LOAD_STORE (R126): A pawn load or store outside its private region is performed with its owner's partition, or raises an
  access fault that is counted. -/
  | pawnLoadStore (q : Fin 64) (k : Fin 4)
  /-- PAWN_FLOAT_OP (R122): A pawn floating-point instruction computes under the RISC-V F rules with its static or dynamic rounding mode. -/
  | pawnFloatOp (q : Fin 64) (k : Fin 4)
  /-- SUBMIT (R131): A write of a command port's SUBMIT passes the command words to the scheduler endpoint for admission, holding
  the store while FREE is 0. -/
  | submit (q : Fin 64) (k : Fin 4) (port : Fin 6) (v : Word)
  /-- HELD_ADMISSION (R191): An entry frees in a program store or an engine queue, and a program or command held before admission is
  admitted with now set to that moment. -/
  | heldAdmission (i : Nat)
  /-- ENGINE_COMMAND_START (R388): An engine becomes able to start a command and starts the head command chosen by the
  fluid-schedule order among time controls. -/
  | engineCommandStart (e : Engine)
  /-- COMMAND_COMPLETION (R382): A command's last write is acknowledged; the scheduler writes the completion record and advances
  CTALLY and any SIGNAL_TALLY. -/
  | commandCompletion (id : Nat) (beats : Nat)
  /-- FLAG_FALLS (R389): Local time reaches an admitted command's promise before it completes; FLAG_FALLEN is set and the event is
  entered on the scoresheet. -/
  | flagFalls (id : Nat)
  /-- PARITY_FAULT (R170): A parity error is detected in an engine's cells, channels, lanes or buffers and is placed to decide which
  commands end UNIT_FAULT. -/
  | parityFault (p : ParityPlace)
  /-- ENGINE_SELF_GATE (R166): An engine or mover stays idle for IDLE_BEATS beats and gates itself. -/
  | engineSelfGate (e : Engine)
  /-- TILE (R160): A matrix tile command is validated and queued, and then computes C = A × B or C_IN + A × B on a matrix engine. -/
  | tile (id : Nat)
  /-- BATCH_WINDOW_CLOSE (R172): BATCH_HOLD beats pass since the batching window opened, the window closes and the joined run starts. -/
  | batchWindowClose (q : Fin 64) (u : Fin 2)
  /-- RUN (R189): A vector run command copies, validates and prices a program, which then runs on the vector engine. -/
  | run (id : Nat)
  /-- CHAIN_START (R211): A vector engine starts the next chain of a program once no earlier running chain conflicts with its footprints. -/
  | chainStart (q : Fin 64) (u : Fin 2)
  /-- NOP (R196): The vector NOP instruction does nothing. -/
  | vNop (q : Fin 64) (u : Fin 2)
  /-- LOOP (R209): LOOP opens the next hardware loop level with a body length and an iteration count. -/
  | vLoop (q : Fin 64) (u : Fin 2)
  /-- SEED (R208): SEED replaces the engine's stochastic-rounding seed. -/
  | vSeed (q : Fin 64) (u : Fin 2)
  /-- ADD (R196): Float addition a + b. -/
  | vAdd (q : Fin 64) (u : Fin 2)
  /-- SUB (R196): Float subtraction a − b. -/
  | vSub (q : Fin 64) (u : Fin 2)
  /-- MUL (R196): Float multiplication a × b. -/
  | vMul (q : Fin 64) (u : Fin 2)
  /-- FMA (R196): Fused a × b + c with one rounding. -/
  | vFma (q : Fin 64) (u : Fin 2)
  /-- FMS (R196): Fused a × b − c with one rounding. -/
  | vFms (q : Fin 64) (u : Fin 2)
  /-- FNMA (R196): Fused c − a × b with one rounding. -/
  | vFnma (q : Fin 64) (u : Fin 2)
  /-- MIN (R33): Float minimum under the ordering of R33. -/
  | vMin (q : Fin 64) (u : Fin 2)
  /-- MAX (R33): Float maximum under the ordering of R33. -/
  | vMax (q : Fin 64) (u : Fin 2)
  /-- ABS (R196): Float absolute value. -/
  | vAbs (q : Fin 64) (u : Fin 2)
  /-- NEG (R196): Float negation. -/
  | vNeg (q : Fin 64) (u : Fin 2)
  /-- CLAMP (R196): min(max(a, b), c). -/
  | vClamp (q : Fin 64) (u : Fin 2)
  /-- COPYSIGN (R196): |a| with the sign of b. -/
  | vCopysign (q : Fin 64) (u : Fin 2)
  /-- ROUNDI (R196): a rounded to an integral value by ROUND. -/
  | vRoundi (q : Fin 64) (u : Fin 2)
  /-- CVT (R608): Converts a from IN_FMT to OUT_FMT, including to and from E8M0. -/
  | vCvt (q : Fin 64) (u : Fin 2)
  /-- SEL (R196): Selects b where c's bit is 1, otherwise a. -/
  | vSel (q : Fin 64) (u : Fin 2)
  /-- CMP (R197): Writes a bit stream holding the predicate selected by OPT for a and b. -/
  | vCmp (q : Fin 64) (u : Fin 2)
  /-- AND (R196): Bit-stream AND. -/
  | vAnd (q : Fin 64) (u : Fin 2)
  /-- OR (R196): Bit-stream OR. -/
  | vOr (q : Fin 64) (u : Fin 2)
  /-- XOR (R196): Bit-stream XOR. -/
  | vXor (q : Fin 64) (u : Fin 2)
  /-- ANDN (R196): Bit-stream a AND NOT b. -/
  | vAndn (q : Fin 64) (u : Fin 2)
  /-- IADD (R198): Integer addition, saturating or wrapping. -/
  | vIadd (q : Fin 64) (u : Fin 2)
  /-- ISUB (R198): Integer subtraction, saturating or wrapping. -/
  | vIsub (q : Fin 64) (u : Fin 2)
  /-- IMUL (R198): Integer multiplication, saturating or wrapping. -/
  | vImul (q : Fin 64) (u : Fin 2)
  /-- SHL (R198): Integer left shift. -/
  | vShl (q : Fin 64) (u : Fin 2)
  /-- SHR (R198): Integer right shift, sign filled. -/
  | vShr (q : Fin 64) (u : Fin 2)
  /-- SHRL (R198): Integer right shift, zero filled. -/
  | vShrl (q : Fin 64) (u : Fin 2)
  /-- IAND (R196): Bitwise AND of integers. -/
  | vIand (q : Fin 64) (u : Fin 2)
  /-- IOR (R196): Bitwise OR of integers. -/
  | vIor (q : Fin 64) (u : Fin 2)
  /-- IXOR (R196): Bitwise XOR of integers. -/
  | vIxor (q : Fin 64) (u : Fin 2)
  /-- IMIN (R196): Integer minimum. -/
  | vImin (q : Fin 64) (u : Fin 2)
  /-- IMAX (R196): Integer maximum. -/
  | vImax (q : Fin 64) (u : Fin 2)
  /-- FUNC (R231): Evaluates the segment-table function of slot SLOT on a. -/
  | vFunc (q : Fin 64) (u : Fin 2)
  /-- FUNC_MUL (R234): Computes f(a) × b from a segment-table slot. -/
  | vFuncMul (q : Fin 64) (u : Fin 2)
  /-- FUNC_FMA (R234): Computes fma(f(a), b, c) from a segment-table slot. -/
  | vFuncFma (q : Fin 64) (u : Fin 2)
  /-- RSUM (R255): Row sum of the active elements in wide form. -/
  | vRsum (q : Fin 64) (u : Fin 2)
  /-- RMAX (R255): Row maximum. -/
  | vRmax (q : Fin 64) (u : Fin 2)
  /-- RMIN (R255): Row minimum. -/
  | vRmin (q : Fin 64) (u : Fin 2)
  /-- RSUMSQ (R255): Row sum of squares. -/
  | vRsumsq (q : Fin 64) (u : Fin 2)
  /-- RARGMAX (R256): Position of the first row maximum, or of the first NaN. -/
  | vRargmax (q : Fin 64) (u : Fin 2)
  /-- MOMENTS (R258): Row mean and population variance in one pass. -/
  | vMoments (q : Fin 64) (u : Fin 2)
  /-- NORM (R262): Layer normalisation of each row with gain and optional bias. -/
  | vNorm (q : Fin 64) (u : Fin 2)
  /-- RMSNORM (R263): RMS normalisation of each row with gain. -/
  | vRmsnorm (q : Fin 64) (u : Fin 2)
  /-- SOFTMAX (R267): Soft maximum, or its logarithm, of IMM × a along each row. -/
  | vSoftmax (q : Fin 64) (u : Fin 2)
  /-- LSE (R267): Log-sum-exp of IMM × a for each row. -/
  | vLse (q : Fin 64) (u : Fin 2)
  /-- RSTAT (R267): Running maximum and rescaled exponential sum for each row. -/
  | vRstat (q : Fin 64) (u : Fin 2)
  /-- RSTAT_MERGE (R269): Merges two RSTAT results. -/
  | vRstatMerge (q : Fin 64) (u : Fin 2)
  /-- SCAN (R272): Runs the linear recurrence h(t) = a(t) × h(t − 1) + b(t) over C channels. -/
  | vScan (q : Fin 64) (u : Fin 2)
  /-- SCANLD (R275): Loads the scan state from SRC_A. -/
  | vScanld (q : Fin 64) (u : Fin 2)
  /-- SCANST (R275): Stores the scan state to DST. -/
  | vScanst (q : Fin 64) (u : Fin 2)
  /-- SFT_LOAD (R241): Copies checked slot images from scratchpad into the inactive segment-table bank. -/
  | sftLoad (id : Nat)
  /-- SFT_SWAP (R242): Makes the inactive segment-table bank active for every chain that starts afterwards. -/
  | sftSwap (id : Nat)
  /-- SFT_RESTORE (R239): Copies the built-in image into the inactive bank. -/
  | sftRestore (id : Nat)
  /-- SFT_SYNC (R239): Copies the active bank into the inactive bank. -/
  | sftSync (id : Nat)
  /-- SFT_BANK_RELEASED (R243): The last chain holding the target bank ends, and a waiting load, restore or sync starts writing. -/
  | sftBankReleased (q : Fin 64)
  /-- COPY (R287): Mover copy with permutation and optional conversion or wire packing. -/
  | copy (id : Nat)
  /-- GATHER (R295): Mover copy that indexes one source dimension through an index stream. -/
  | gather (id : Nat)
  /-- SCATTER (R295): Mover copy that indexes one destination dimension through an index stream. -/
  | scatter (id : Nat)
  /-- FILL (R299): Writes the FILL value to every destination element. -/
  | fill (id : Nat)
  /-- DECRYPT (R301): Decrypts and verifies AES-256-GCM chunks of a sealed object with a weight key. -/
  | decrypt (id : Nat)
  /-- PLAN (R310): Expands a sharding specification into this device's owner table. -/
  | plan (id : Nat)
  /-- UPDATE (R355): Applies one optimiser step to a layer through the update units. -/
  | update (id : Nat)
  /-- HOST_BUDGET_EXPIRY (R364): A HOST_RULE group is still pending HOST_BUDGET after its promise, and the command ends ABORTED with
  the pending bit cleared. -/
  | hostBudgetExpiry (group : Nat)
  /-- UPD_HOST_DONE (R362): The host's write of a group to UPD_HOST_DONE clears the pending bit and completes the HOST_RULE command DONE. -/
  | updHostDone (r : Req) (v : Word)
  /-- ALL_GATHER (R450): Collective gathering one chunk from every rank. -/
  | allGather (id : Nat)
  /-- REDUCE_SCATTER (R450): Collective reduction of each chunk to its rank. -/
  | reduceScatter (id : Nat)
  /-- ALL_REDUCE (R450): Collective reduction delivered to every member. -/
  | allReduce (id : Nat)
  /-- BROADCAST (R450): Collective sending ROOT's source to every member. -/
  | broadcast (id : Nat)
  /-- REDUCE (R450): Collective reduction delivered to ROOT only. -/
  | reduce (id : Nat)
  /-- ALL_TO_ALL (R450): Collective exchanging one chunk between every pair of ranks. -/
  | allToAll (id : Nat)
  /-- ALL_TO_ALLV (R463): Collective exchange of variable-size chunks with receive counts. -/
  | allToAllv (id : Nat)
  /-- BARRIER (R450): Collective that completes once every member has joined. -/
  | barrier (id : Nat)
  /-- JOIN (R455): A JOIN message of a collective arrives, advancing the join round up the group's tree. -/
  | join (p : Packet)
  /-- OFFER (R456): An OFFER arrives; when the round completes, every member accepts or refuses the collective from the same set of
  offers. -/
  | offer (p : Packet)
  /-- UP (R460): An UP stream of a reduction node arrives and is combined in rank order. -/
  | up (p : Packet)
  /-- DOWN (R460): A DOWN stream carrying a result or owned chunk arrives and is written or forwarded. -/
  | down (p : Packet)
  /-- PEER (R460): A PEER chunk of an all-to-all arrives and is written. -/
  | peer (p : Packet)
  /-- ABORT (R464): An ABORT arrives, and the member ends the collective with the carried code. -/
  | abort (p : Packet)
  /-- JOIN_TIMEOUT (R458): A join round has not completed within COL_JOIN_TIMEOUT; the command ends LINK_DOWN and ABORT is sent. -/
  | joinTimeout (id : Nat)
  /-- SCH_NOP (R397): Scheduler command that does nothing. -/
  | schNop (id : Nat)
  /-- SEG_OPEN (R398): Opens a replay segment on the context. -/
  | segOpen (id : Nat)
  /-- SEG_CLOSE (R397): Closes the context's open replay segment. -/
  | segClose (id : Nat)
  /-- SEG_REPLAY (R399): Validates, prices and runs a closed segment's recorded commands as a whole. -/
  | segReplay (id : Nat)
  /-- START (R377): SCH_CTX_OP START makes an IDLE or STOPPED context ACTIVE when its rings and time control lie in the partition. -/
  | start (r : Req)
  /-- STOP (R377): SCH_CTX_OP STOP makes a context STOPPED, and admitted commands run to completion. -/
  | stop (r : Req)
  /-- RESET (R377): SCH_CTX_OP RESET returns a STOPPED or FAULTED context with nothing outstanding to IDLE. -/
  | reset (r : Req)
  /-- SCH_CTX_DATA (R376): A write of a context word is applied only while the context is IDLE, otherwise ignored with CMD_IGNORED. -/
  | schCtxData (r : Req) (n : Fin 16) (v : Word)
  /-- SELECTOR_WRITE (R400): A write of a banked selector is ignored with CMD_IGNORED when it names a number outside the partition's
  holding. -/
  | selectorWrite (r : Req) (off : BitVec 24) (v : Word)
  /-- SCH_TC_COMMIT (R385): Applies a time-control entry's eight data words together, or ignores them when a limit or the power cap
  would be exceeded. -/
  | schTcCommit (r : Req) (v : Word)
  /-- SCH_DOORBELL (R380): Sets a context's TAIL, submitting the ring slots from HEAD up to TAIL − 1. -/
  | schDoorbell (r : Req) (v : Word)
  /-- RING_SLOT_TAKEN (R381): The scheduler takes the context's next ring slot when it reaches the head, and parks the context when
  its WAIT tally has not been reached. -/
  | ringSlotTaken (ctx : BitVec 16)
  /-- SCH_TALLY_VAL (R393): A write sets a tally's value, and parked contexts whose value is reached are released. -/
  | schTallyVal (r : Req) (v : Word)
  /-- SCH_TALLY_ADD (R393): A write adds to a tally modulo 2^32, and parked waiters whose value is reached are released. -/
  | schTallyAdd (r : Req) (v : Word)
  /-- COL_GRP_COMMIT (R448): Applies a communication group entry and clears SEQ, or ignores it with CMD_IGNORED. -/
  | colGrpCommit (r : Req) (v : Word)
  /-- RTE_ENTRY_WRITE (R444): A route entry write is committed whole, or ignored when it names an absent link or a valid entry with
  MAXHOPS 0. -/
  | rteEntryWrite (r : Req) (off : BitVec 24) (v : DWord)
  /-- RTE_EPOCH (R431): A write of a group epoch entry by the Arbiter is applied, and one that would lower the entry is ignored. -/
  | rteEpoch (r : Req) (g : BitVec 8) (v : Word)
  /-- HBR_WIN (R445): A write of a bridge window target is applied, or ignored when it would cover the DRS range. -/
  | hbrWin (r : Req) (n : Fin 16) (v : Word)
  /-- TAKEOVER (R446): A write of HBR_ROLE.TAKEOVER activates a standby bridge once its port is up. -/
  | takeover (r : Req) (v : Word)
  /-- REKEY (R415): A link direction changes key, on CTRL.REKEY, after 2^36 flits or at an Arbiter's request, without stalling traffic. -/
  | rekey (n : Fin 64) (tx : Bool)
  /-- PWR_CAP_REQ (R506): A cap request is accepted between PR and the input maximum, or refused BELOW_RESERVED or ABOVE_RATING. -/
  | pwrCapReq (r : Req) (v : Word)
  /-- PWR_POLICY (R528): A write of TARGET sets the power policy's beat-rate target, or is ignored outside 1,520 to 2,300. -/
  | pwrPolicy (r : Req) (v : Word)
  /-- POWER_CAP_WINDOW (R508): Each 1 ms window of average input power lowers or raises the effective target and applies or lifts
  duty limits. -/
  | powerCapWindow (dw : Nat)
  /-- BEAT_RATE_WINDOW (R94): A 1 µs monitor window ends; the Arbiter raises or lowers the square's rail and records guard
  exhaustion or speed shortfall. -/
  | beatRateWindow (p : Fin 72) (rate : Nat)
  /-- SENSOR_SAMPLE (R501): The Arbiter samples a sensor, handles a failed sensor and compares temperatures with the warning and
  trip points. -/
  | sensorSample (row : Nat) (index : Nat) (reading : Option Int)
  /-- THERM_RELEASE (R510): Every reading stays 5 °C below its warning point for 100 ms, and THERM_N and DEV_STATUS.THERM are deasserted. -/
  | thermRelease
  /-- THERMAL_COMPARATOR (R602): A die's hardware comparator trips 10 °C above its trip point, removes the die's power and leads to
  the safe state. -/
  | thermalComparator (die : Nat)
  /-- SCORESHEET_COMMIT (R515): Each 1 ms of local time the Arbiter applies the buffered events to the scoresheet under the sequence
  numbers. -/
  | scoresheetCommit
  /-- SCR_CLEAR (R518): A write of SCR_CLEAR removes the named partitions' entries at the next commit. -/
  | scrClear (r : Req) (v : Word)
  /-- SCRATCHPAD_SCRUB (R120): Every 4,096 beats, port 7 scrubs one row of one bank and corrects and counts errors. -/
  | scratchpadScrub (p : Fin 72) (bank : Fin 64)
  /-- PATROL_SCRUB (R336): Every INTERVAL-th frame, the controller scrubs one granule of each channel. -/
  | patrolScrub (k : Fin 8)
  /-- REFRESH (R326): The base die refreshes the stack, and the controller pauses the channel frame. -/
  | refresh (k : Fin 8) (temp : Nat)
  /-- MEMORY_ACCESS (R331): A read or write reaches the controller in its partition's slot, is decrypted and checked, and is served
  within 500 ns. -/
  | memoryAccess (part : Fin 16) (addr : BitVec 48) (size : Nat) (write : Option (List Byte))
  /-- SPARE_COPY_DONE (R337): The spare copy completes, the logical name moves to the spare and PROMOTION_DONE is set. -/
  | spareCopyDone (k : Fin 8) (spare : Fin 8)
  /-- REGION_OVERWRITE_DONE (R343): A released region's overwrite completes, and the region may pass to its new holder. -/
  | regionOverwriteDone (region : Fin 512)
  /-- SQUARE_PROMOTION (R534): A retired square's name passes to the lowest free spare through zeroing and a remap change. -/
  | squarePromotion (q : Fin 64) (us : Nat)
  /-- SELFTEST (R578): Partition 0's SELFTEST effecter starts a field self-test of one square, or of all squares, with a spare
  standing in. -/
  | selftest (target : Nat)
  /-- SELFTEST_PERIOD (R577): The SELFTEST_PERIOD effecter sets the hours between full self-test cycles. -/
  | selftestPeriod (hours : Nat)
  /-- SELFTEST_CYCLE (R577): The self-test period expires, and the Arbiter starts a full cycle of field self-tests. -/
  | selftestCycle
  /-- SELFTEST_ABANDON (R580): Copy-out exceeds 5 ms or the first wait exceeds 100 ms; the test is abandoned and deferred for 1 min. -/
  | selftestAbandon
  /-- SELFTEST_RETRY (R580): One minute after an abandoned test, the Arbiter tries the square again. -/
  | selftestRetry (q : Fin 64)
  /-- SELF_TEST_COMPLETE (R581): The physical square's test ends; a pass leads to copy-back, a failure to retirement with the
  stand-in promoted. -/
  | selfTestComplete (pass : Bool)
  /-- VBUS_RISE (R570): VBUS rises through 39 V with RST_N high, inrush is limited and start-up begins. -/
  | vbusRise (v : Nat)
  /-- RST_N (R570): RST_N is deasserted after at least 10 µs low, the straps are sampled and start-up begins. -/
  | rstN
  /-- START_UP_STEP (R570): A start-up step completes, BOOT_STEP advances and the next step starts, ending at READY. -/
  | startUpStep (t : StepResult)
  /-- ALIAS_KEY_READY (R484): The alias key pair is ready and the ROM's certify service signs its certificate. -/
  | aliasKeyReady
  /-- VBUS_LOSS (R565): VBUS falls below 36 V, all conversion stops and the island is held in reset. -/
  | vbusLoss (v : Nat)
  /-- INPUT_OV (R565): VBUS exceeds 62 V, main conversion stops and the device enters the safe state. -/
  | inputOv (v : Nat)
  /-- POWER_DIE (R567): A power die overheats or loses a phase, and the device enters the safe state. -/
  | powerDie (die : Fin 4) (phaseLost : Bool)
  /-- PLANE (R567): The 1.8 V plane stays outside ±5 % for more than 100 µs, and the device enters the safe state. -/
  | plane
  /-- AUX_OVERLOAD (R567): AUX current exceeds 2.6 A; the output is limited, switched off after 10 ms and retried every 1 s. -/
  | auxOverload
  /-- AUX_FAULT (R567): Flash stays unreachable for 30 s during start-up, and the device enters the safe state. -/
  | auxFault
  /-- REMOTE_SENSE_FAULT (R567): The remote-sense lands read open, reversed or far from local sense, and local sensing takes over
  until they recover for 1 s. -/
  | remoteSenseFault (recovered : Bool)
  /-- REGULATOR_FAILURE (R567): A square's on-die regulator fails, and the square is retired at once and promoted. -/
  | regulatorFailure (p : Fin 72)
  /-- REFCLK_LOSS (R592): REFCLK25 stops, the clocked islands stop and the watchdog later expires. -/
  | refclkLoss
  /-- PERST_N (R86): PERST_N resets the PCIe controller and the HBR page only. -/
  | perstN
  /-- WATCHDOG (R526): 500 ms pass without the Arbiter servicing the watchdog; the RoT places the device in the safe state. -/
  | watchdog
  /-- LINK_BRING_UP (R406): A link runs detect, train, align, identity exchange and keying, and comes up on at least two lanes. -/
  | linkBringUp (n : Fin 64) (t : Training)
  /-- DETECT_TIMEOUT (R572): A link spends 1 s in DETECT without a peer, and it no longer holds step 8. -/
  | detectTimeout (n : Fin 64)
  /-- LINK_RETRAIN (R407): A lane retirement, eight replays of one flit or a re-enable makes the link retrain on its remaining lanes. -/
  | linkRetrain (n : Fin 64) (t : Training)
  /-- FLIT_RECEIVED (R410): A flit arrives and is accepted, or discarded with a NAK, after FEC decode, tag check and sequence check. -/
  | flitReceived (n : Fin 64) (f : Flit)
  /-- NAK (R411): A NAK arrives, and the sender resends every unacknowledged flit in order ahead of new flits. -/
  | nak (n : Fin 64) (seq : Nat)
  /-- PACKET_ROUTE (R424): A packet reaches a device, is delivered here, forwarded over a chosen candidate link, or dropped with
  NACK LINK_DOWN. -/
  | packetRoute (p : Packet)
  /-- WRITE (R428): A WRITE packet is checked and its payload written, then answered by ACK or NACK. -/
  | write (p : Packet)
  /-- READ (R428): A READ packet is checked and answered by DATA or NACK. -/
  | read (p : Packet)
  /-- DATA (R422): Read data for a transaction tag arrives at the requester. -/
  | data (p : Packet)
  /-- ACK (R422): A write is acknowledged to the requester. -/
  | ack (p : Packet)
  /-- NACK (R429): A NACK ends the sending command with its code. -/
  | nack (p : Packet)
  /-- SIGNAL (R394): A remote tally advance is applied when the peer list and epoch allow it, and dropped and counted otherwise. -/
  | signal (p : Packet)
  /-- COMMAND (R423): A COMMAND packet is admitted for context STREAM with REMAIN as its budget. -/
  | command (p : Packet)
  /-- INTERRUPT (R439): The bridge acknowledges an INTERRUPT packet and raises the member's MSI-X vector of the function. -/
  | interrupt (p : Packet)
  /-- INTERRUPT_RESEND (R440): An INTERRUPT unacknowledged for 100 µs is resent. -/
  | interruptResend (part : Fin 16)
  /-- REQUEST_TIMEOUT (R429): A request stays unanswered for RTE_TIMEOUT, and the sending command ends LINK_DOWN. -/
  | requestTimeout (tag : BitVec 17)
  /-- EPOCH_HOLD_EXPIRY (R430): A request with a newer epoch is held for RTE_HOLD without the entry catching up, and it is dropped
  with NACK STALE_EPOCH. -/
  | epochHoldExpiry (i : Nat)
  /-- BAR0_ACCESS (R437): A host BAR0 access reaches a member's DRS under the function's partition. -/
  | bar0Access (fn : Fin 16) (addr : Nat) (size : Nat) (write : Option DWord)
  /-- BAR2_ACCESS (R437): A host BAR2 access is translated through a window into WRITE or READ packets. -/
  | bar2Access (fn : Fin 16) (addr : Nat) (size : Nat) (write : Option (List Byte))
  /-- FUNCTION_LEVEL_RESET (R438): A Function Level Reset resets only that function's windows and MSI-X state. -/
  | functionLevelReset (fn : Fin 16)
  /-- PT_CREATE (R474): Creates a tenant partition, generates its XTS keys and sets CONFIGURING. -/
  | ptCreate (r : Req) (p : Fin 16)
  /-- PT_RANGES (R474): Sets a configuring partition's ranges and tag quota. -/
  | ptRanges (r : Req) (p : Fin 16)
  /-- PT_SHARES (R474): Gives frame slots from partition 0 to the partition. -/
  | ptShares (r : Req) (p : Fin 16)
  /-- PT_REGIONS (R477): Moves memory regions to or from a partition, overwriting each before it passes. -/
  | ptRegions (r : Req) (p : Fin 16)
  /-- PT_PEERS (R478): Replaces a partition's peer list. -/
  | ptPeers (r : Req) (p : Fin 16)
  /-- PT_ACTIVATE (R474): Makes a configuring partition ACTIVE. -/
  | ptActivate (r : Req) (p : Fin 16)
  /-- PT_TEARDOWN (R481): Drains, erases and frees a partition. -/
  | ptTeardown (r : Req) (p : Fin 16)
  /-- UNLOCK_PASSWORD (R494): Tries to reopen scan and debug with the owner password. -/
  | unlockPassword (r : Req)
  /-- UNLOCK_NONCE (R494): Issues a fresh nonce for the vendor challenge. -/
  | unlockNonce (r : Req)
  /-- UNLOCK_RESPONSE (R494): Checks the vendor's signed response and, on success, clears secrets and reopens debug. -/
  | unlockResponse (r : Req)
  /-- EPH_CREATE (R492): Generates an ephemeral key pair bound to a slot, with its certificate. -/
  | ephCreate (r : Req) (slot : Byte)
  /-- KEY_UNWRAP (R493): Decrypts a wrapped weight key and loads it into the slot, or refuses. -/
  | keyUnwrap (r : Req) (slot : Byte)
  /-- KEY_DESTROY (R491): Destroys the key held in a weight key slot. -/
  | keyDestroy (r : Req) (slot : Byte)
  /-- REPORT (R489): Returns the tenant's signed measurement report for a nonce. -/
  | report (r : Req)
  /-- CHAIN (R499): Returns certificate slot 0. -/
  | chain (r : Req)
  /-- GET_VERSION (R487): SPDM request for the supported versions. -/
  | getVersion (bytes : List Byte)
  /-- GET_CAPABILITIES (R487): SPDM request for capabilities. -/
  | getCapabilities (bytes : List Byte)
  /-- NEGOTIATE_ALGORITHMS (R487): SPDM algorithm negotiation. -/
  | negotiateAlgorithms (bytes : List Byte)
  /-- GET_DIGESTS (R487): SPDM request for certificate digests. -/
  | getDigests (bytes : List Byte)
  /-- GET_CERTIFICATE (R487): SPDM request for a certificate chain. -/
  | getCertificate (bytes : List Byte)
  /-- CHALLENGE (R487): SPDM challenge signed by the alias key. -/
  | challenge (bytes : List Byte)
  /-- GET_MEASUREMENTS (R488): Returns the signed measurement blocks. -/
  | getMeasurements (bytes : List Byte)
  /-- KEY_EXCHANGE (R487): SPDM session key exchange. -/
  | keyExchange (bytes : List Byte)
  /-- FINISH (R487): SPDM session finish. -/
  | finish (bytes : List Byte)
  /-- KEY_UPDATE (R487): SPDM session key update. -/
  | keyUpdate (bytes : List Byte)
  /-- SPDM_HEARTBEAT (R487): SPDM session heartbeat. -/
  | spdmHeartbeat (bytes : List Byte)
  /-- END_SESSION (R487): Ends an SPDM session. -/
  | endSession (bytes : List Byte)
  /-- SET_ENDPOINT_ID (R520): The bus owner assigns the Arbiter's MCTP EID. -/
  | setEndpointId (eid : Byte)
  /-- MCTP (R521): An MCTP message reaches the Arbiter and is handled, passed to the RoT or dropped. -/
  | mctp (m : MctpMsg)
  /-- MBOX_SEND_ARB (R520): A write of ARB_MBOX_CTRL.SEND passes the message in ARB_MBOX_BUF to the Arbiter. -/
  | mboxSendArb (r : Req) (v : Word)
  /-- MBOX_REPLY (R527): The Arbiter's reply is placed in the mailbox and MBOX_REPLY is set. -/
  | mboxReply (bytes : List Byte)
  /-- ARB_UPD_STAGE (R527): A write sets the firmware staging region, or is ignored during an update or for a region partition 0
  does not hold. -/
  | arbUpdStage (r : Req) (v : Word)
  /-- REQUEST_UPDATE (R523): The update agent's RequestUpdate sequence starts an update, refused while no staging region is set. -/
  | requestUpdate (size : Nat)
  /-- REQUEST_FIRMWARE_DATA (R523): A 4 KiB firmware transfer arrives in the staging region. -/
  | requestFirmwareData (bytes : List Byte)
  /-- IMAGE_VERIFY_DONE (R523): The RoT finishes verifying the staged image, then writing starts or the update fails. -/
  | imageVerifyDone (ok : Bool)
  /-- FLASH_WRITE_DONE (R523): The image has been written to flash, and readback verification starts. -/
  | flashWriteDone
  /-- READBACK_DONE (R523): Flash readback verifies, and the update reaches PENDING_ACTIVATION with ApplyComplete. -/
  | readbackDone (ok : Bool)
  /-- DEVICE_ID (R573): PLDM effecter 0x0002 acts as a write of DEV_ID by partition 0. -/
  | deviceId (v : Word)
  /-- PLACEMENT (R573): PLDM effecter 0x0003 acts as a write of DEV_PLACEMENT by partition 0. -/
  | placement (v : Word)
  /-- POWER_CAP_EFFECTER (R521): A write of numeric effecter 0x0001 acts as a write of PWR_CAP_REQ. -/
  | powerCapEffecter (v : Word)
  /-- PLAN_LO (R542): Sets the low word of the recovery plan's address. -/
  | planLo (v : Word)
  /-- PLAN_HI (R542): Sets the high word of the recovery plan's address. -/
  | planHi (v : Word)
  /-- COMMIT (R543): Loads the recovery plan or refuses it with BUSY or BAD. -/
  | commit (v : Word)
  /-- ADJOURN_NOW (R542): The captain schedules an adjournment of the partition at once. -/
  | adjournNow (p : Fin 16)
  /-- HOST_CONFIRM (R557): The host confirms it holds an adjournment, making it SECURED. -/
  | hostConfirm (v : Word)
  /-- RESTORE (R559): Restores a partition from an adjournment on every member. -/
  | restore (v : Word)
  /-- HEARTBEAT_SEND (R545): HB_US passes, and the device sends HEARTBEAT to its captain and deputy, or to every member when captain. -/
  | heartbeatSend
  /-- HEARTBEAT (R545): A heartbeat arrives and resets the sender's miss count. -/
  | heartbeat (p : Packet)
  /-- HEARTBEAT_MISSED (R545): HB_US passes without a heartbeat from a sender, and its miss count rises. -/
  | heartbeatMissed (member : BitVec 6)
  /-- MEMBER_DECLARED_FAILED (R538): The captain declares a member failed, raises the epoch and starts a takeover or shrink. -/
  | memberDeclaredFailed (member : BitVec 6)
  /-- CAPTAIN_SUCCESSION (R546): A device's count of missed captain heartbeats reaches its threshold, and it becomes captain. -/
  | captainSuccession
  /-- EPOCH (R548): An EPOCH packet raises the receiver's group epoch entry, and a lesser captain yields. -/
  | epoch (p : Packet)
  /-- TAKE (R539): A standby accepts or refuses taking over a failed member's device ID. -/
  | take (p : Packet)
  /-- TAKE_OK (R539): A standby reports that it accepted the TAKE. -/
  | takeOk (p : Packet)
  /-- TAKE_REFUSED (R539): A standby refuses the TAKE, and the captain tries the next standby. -/
  | takeRefused (p : Packet)
  /-- FILLED (R539): A standby reports that its fill is verified against the seal. -/
  | filled (p : Packet)
  /-- ADJOURN_INTERVAL (R558): The interval I passes since the last save, and the captain sends ADJOURN. -/
  | adjournInterval (p : Fin 16)
  /-- ADJOURN (R556): A member sets GO_TALLY to the save step, or reports LATE. -/
  | adjourn (p : Packet)
  /-- SAVE_START (R556): STEP_TALLY reaches the save step, and the member copies and digests its ranges. -/
  | saveStart (p : Fin 16)
  /-- DIGEST (R556): A member's digest arrives, and the captain forms the seal when all have arrived. -/
  | digest (p : Packet)
  /-- LATE (R556): A member reports it is past the save step, and the captain repeats ADJOURN. -/
  | late (p : Packet)
  /-- SEAL (R556): A member receives the seal and copies its slot to its buddy. -/
  | seal (p : Packet)
  /-- CONFIRM (R557): A buddy confirms a verified copy, advancing the adjournment toward SECURED. -/
  | confirm (p : Packet)
  /-- RESTORED (R561): A member reports that the restore is done, and the group returns to STEADY when all have. -/
  | restored (p : Packet)
  /-- ARBITER_BOOT (R584): Arbiter firmware does not start within start-up step 4's bound, and the device enters the safe state with
  cause ARBITER_BOOT. -/
  | arbiterBoot
  /-- PCIE_LINK_UP (R446): The bridge's PCIe port trains and comes up, setting HBR_PCIE.UP and completing a pending takeover with
  ACTIVE and TAKEOVER_DONE. -/
  | pcieLinkUp (speed width : Nat)
  /-- PCIE_DOWN (R445): The bridge's PCIe port leaves the up state, and PCIE_DOWN is set and may signal vector 64. -/
  | pcieDown
  /-- SRIOV_VF_ENABLE (R436): The host enables or disables virtual functions, changing HBR_NUMVF and whether each tenant partition
  is reachable from the host. -/
  | sriovVfEnable (n : Fin 16)
  /-- BAR4_ACCESS (R439): A host access to the MSI-X table or pending-bit array in BAR4 masks or unmasks a vector, and unmasking a
  pending vector sends its message. -/
  | bar4Access (fn : Fin 16) (addr : Nat) (write : Option Word)
  /-- PAWN_INSTRUCTION (R122): A pawn executes a base, multiply, atomic, compressed, CSR or fence instruction, or takes a trap that
  sets PWN_MCAUSE and, in machine mode, TRAP_M. -/
  | pawnInstruction (q : Fin 64) (k : Fin 4)
  /-- RST_N_ASSERTED (R570): RST_N is driven low, and the device, including the always-on island, is held in reset and the
  scoresheet is emptied. -/
  | rstNAsserted
  /-- AUX_RETRY (R567): The AUX output, switched off after 10 ms in current limit, is retried every 1 s until the fault clears. -/
  | auxRetry (cleared : Bool)
  /-- COPY_OUT_COMPLETE (R578): A field self-test's copy-out, or copy-back, completes, and the handover halts the pawns, changes the
  remap and resumes them on the other square. -/
  | copyOutComplete
  /-- REQ_DONE (R500): A long RoT request, such as ephemeral key generation, completes, RESULT is written and REQ_DONE is set. -/
  | reqDone
  /-- DYNAMIC_ADDRESS (R520): An I3C controller assigns the Arbiter a dynamic address, and the Arbiter moves its MCTP endpoint from
  SMBus to I3C. -/
  | dynamicAddress (addr : Nat)
deriving DecidableEq, Repr

end Sys2Proof
end

