-- ==== Sys2Proof/Config.lean ====
section
/-!
DEFINITION. What an implementation fixes and what the spec leaves open: uninterpreted constants without a body. No proof
can see a value of one, so a claim that holds, holds whatever it is.
-/

namespace Sys2Proof

/-- A free byte: what memory that holds no stated value reads as (R41, R343). The first argument numbers the occasion, the
second is the address. Assumption 4. -/
opaque Config.freeByte : Nat → Nat → Byte

/-- A free number for an unstated value. The first argument numbers the occasion (the field `free` of the state), the
second tells values of one occasion apart. Assumption 6. -/
opaque Config.freeNat : Nat → Nat → Nat

/-- The coefficients of the built-in segment tables that R235 does not state: slot, segment, and which of C0, C1 and C2.
Assumption 33. -/
opaque Config.builtinCoef : Nat → Nat → Nat → Word

/-- `SFT_IMAGE_VER.VERSION`, which each silicon fixes (R247). Assumption 33. -/
opaque Config.imageVersion : Nat

/-- What each firmware image fixes (R522, R527, R570): its version, its security version, and the pawn firmware it holds, by
offset in the instruction memory. Assumption 33. -/
opaque Config.fwVersion : Nat → Word
opaque Config.fwSvn : Nat → Nat
opaque Config.pawnImage : Nat → Nat → Byte

/-- What a lane's receiver measures (`LNK_LANE` bits [31:8], R441): the lane, and the millisecond of local time. Assumption 14. -/
opaque Config.laneMeasure : Nat → Nat → BitVec 32

/-- The identity numbers of a pawn: `mvendorid`, `marchid`, `mimpid`, and `mhartid` of the pawn with a number. Assumption 20. -/
opaque Config.pawnIds : Nat → BitVec 64

/-- XTS-AES-256 of one granule (R340): the number of the key pair, the tweak, the 64 plain bytes. Assumption 123. -/
opaque Config.xts : Nat → Nat → List Byte → List Byte

/-- AES-256-GCM (R300 to R303) as an uninterpreted function of key, IV, additional data, ciphertext and tag: the plaintext,
or none when the tag does not verify. Assumption 34. -/
opaque Config.gcmOpen : List Byte → List Byte → List Byte → List Byte → List Byte → Option (List Byte)

/-- SHA-512 (R484, R494, R552) as an uninterpreted function. Assumption 36. -/
opaque Config.sha512 : List Byte → List Byte

/-- The fused owner hash and the check of the vendor's debug signature over nonce, `DEV_ID` and `DEV_SERIAL` (R494): response,
nonce, the two identities. Assumption 36. -/
opaque Config.ownerHash : List Byte
opaque Config.debugSignatureOk : List Byte → List Byte → List Byte → Bool

/-- RSAES-OAEP decryption with an ephemeral key (R486, R492): key number, label, ciphertext; none when it fails. The public key
of a key number in DER. Assumption 36. -/
opaque Config.oaepOpen : Nat → List Byte → List Byte → Option (List Byte)
opaque Config.publicKey : Nat → List Byte

/-- Signed objects (R484, R489, R492, R499): certificates, measurement reports and certificate chains, as uninterpreted
functions of everything they cover. Assumption 36. -/
opaque Config.certificate : List Nat → List Byte
opaque Config.report : List Nat → List Byte
opaque Config.chain : List Nat → List Byte

/-- An SPDM response (R487, R488): request code, request bytes, and the responder's standing. Assumption 36. -/
opaque Config.spdmReply : Nat → List Byte → List Nat → List Byte

/-- The answer to an MCTP control (type 0) or PLDM (type 1) request: its type and bytes, the Arbiter's EID, the power cap, and the
reading of the sensor that it names, if any (R521). Assumption 146. -/
opaque Config.mgmtReply : Nat → List Byte → Nat → Nat → Option Nat → List Byte

/-- The device that bears an MCTP endpoint identifier behind the bridge (R520). Assumption 39. -/
opaque Config.eidDevice : Byte → BitVec 16

/-- A configuration block as a standby reads it in its takeover staging area (R539, R550), whose layout the spec does not give: whether
it passes its shard digest, and the words of its partition entry, by partition and number. Assumption 143. -/
opaque Config.blockSound : List Byte → Bool
opaque Config.blockWord : List Byte → Nat → Nat → Nat

/-- Whether a device of the group is strapped `BRIDGE_STANDBY` (R562), which the spec lets only that device know. Assumption
43. -/
opaque Config.bridgeStandby : BitVec 16 → Bool

end Sys2Proof
end

