-- ==== Sys2Proof/Machine/FMap.lean ====
section
/-!
DEFINITION. Sparse data by number: a list of key and value pairs in one canonical form (keys strictly rising, and no
entry equal to what an unlisted key reads as). Memory, register and table contents are all kept this way, so that equal
contents are equal data.
-/

namespace Sys2Proof.Machine

/-- Sparse data keyed by a number. What an unlisted key reads as is given by the caller, as `d`. -/
structure FMap (α : Type) where
  cells : List (Nat × α)
deriving DecidableEq, Repr

/-- The map that lists nothing. -/
def emptyMap {α : Type} : FMap α := ⟨[]⟩

/-- The value listed for `k`, if any. -/
def cellsFind {α : Type} : List (Nat × α) → Nat → Option α
  | [], _ => none
  | (k', v) :: t, k => if k' = k then some v else cellsFind t k

/-- Drops every entry of `k`. -/
def cellsErase {α : Type} : List (Nat × α) → Nat → List (Nat × α)
  | [], _ => []
  | (k', v) :: t, k => if k' = k then cellsErase t k else (k', v) :: cellsErase t k

/-- Enters `v` for `k`, keeping the keys rising. -/
def cellsInsert {α : Type} : List (Nat × α) → Nat → α → List (Nat × α)
  | [], k, v => [(k, v)]
  | (k', v') :: t, k, v =>
    if k < k' then (k, v) :: (k', v') :: t
    else if k = k' then (k, v) :: t
    else (k', v') :: cellsInsert t k v

/-- Keys strictly rising, all above `lo` (`none`: no bound yet), and no entry equal to its default. -/
def cellsOk {α : Type} [DecidableEq α] (d : Nat → α) : Option Nat → List (Nat × α) → Bool
  | _, [] => true
  | lo, (k, v) :: t =>
    (match lo with
      | none => true
      | some l => decide (l < k)) && decide (v ≠ d k) && cellsOk d (some k) t

namespace FMap

variable {α : Type}

/-- The listed value of `k`, or what an unlisted key reads as. -/
def get (d : Nat → α) (m : FMap α) (k : Nat) : α := (cellsFind m.cells k).getD (d k)

/-- Sets `k` to `v`, keeping the canonical form. -/
def set [DecidableEq α] (d : Nat → α) (m : FMap α) (k : Nat) (v : α) : FMap α :=
  if v = d k then ⟨cellsErase m.cells k⟩ else ⟨cellsInsert m.cells k v⟩

/-- Keeps only the entries whose key satisfies `p`; the others read as unlisted again. -/
def keep (m : FMap α) (p : Nat → Bool) : FMap α := ⟨m.cells.filter (fun c => p c.1)⟩

/-- The canonical form holds. -/
def wf [DecidableEq α] (d : Nat → α) (m : FMap α) : Bool := cellsOk d none m.cells

/-- The keys listed, rising. -/
def keys (m : FMap α) : List Nat := m.cells.map (·.1)

end FMap

end Sys2Proof.Machine
end

