-- ==== Sys2Proof/Machine/Bits.lean ====
section
/-!
DEFINITION. Bit fields, byte order and lists of bytes. Every value wider than a byte is little-endian (R49, R193).
-/

namespace Sys2Proof.Machine

/-- Bits [hi:lo] of a number. -/
def bitsOf (n hi lo : Nat) : Nat := (n >>> lo) % 2 ^ (hi + 1 - lo)

/-- Bit `i` of a number. -/
def bitOf (n i : Nat) : Bool := n.testBit i

/-- A number with bits [hi:lo] replaced by `v`. -/
def putBits (n hi lo v : Nat) : Nat :=
  let w := hi + 1 - lo
  (n >>> (hi + 1)) <<< (hi + 1) ||| ((v % 2 ^ w) <<< lo) ||| n % 2 ^ lo

/-- The mask of bits [hi:lo]. -/
def maskOf (hi lo : Nat) : Nat := (2 ^ (hi + 1 - lo) - 1) <<< lo

/-- 0 or 1. -/
def b01 (b : Bool) : Nat := if b then 1 else 0

/-- The two's complement value of the low `w` bits. -/
def signed (w n : Nat) : Int :=
  let m := n % 2 ^ w
  if m < 2 ^ (w - 1) then (m : Int) else (m : Int) - (2 ^ w : Nat)

/-- The low `w` bits of an integer. -/
def unsignedOf (w : Nat) (i : Int) : Nat := (i % ((2 ^ w : Nat) : Int)).toNat

/-- Clamps an integer into `[lo, hi]`. -/
def clampInt (lo hi i : Int) : Int := if i < lo then lo else if hi < i then hi else i

/-- The number that a list of bytes spells, low byte first. -/
def leNat : List Byte → Nat
  | [] => 0
  | b :: t => b.toNat + 256 * leNat t

/-- The `n` low bytes of a number, low byte first. -/
def leBytes : Nat → Nat → List Byte
  | 0, _ => []
  | n + 1, v => BitVec.ofNat 8 v :: leBytes n (v / 256)

/-- Rounds `n` up to a multiple of `d`. -/
def roundUp (n d : Nat) : Nat := (n + d - 1) / d * d

/-- The quotient rounded up. -/
def ceilDiv (n d : Nat) : Nat := (n + d - 1) / d

/-- The numbers `from, …, from + n - 1`. -/
def span (start n : Nat) : List Nat := (List.range n).map (start + ·)

/-- The `i`-th element, or `d`. -/
def nth {α : Type} (d : α) (l : List α) (i : Nat) : α := l.getD i d

/-- The list with element `i` replaced (unchanged when there is none). -/
def setNth {α : Type} (l : List α) (i : Nat) (v : α) : List α := l.set i v

/-- Cuts a list into pieces of `n` (the last may be short); `fuel` pieces at most. -/
def chunksFuel {α : Type} (n : Nat) : Nat → List α → List (List α)
  | 0, _ => []
  | _, [] => []
  | f + 1, l => l.take n :: chunksFuel n f (l.drop n)

/-- Cuts a list into pieces of `n`. -/
def chunks {α : Type} (n : Nat) (l : List α) : List (List α) := chunksFuel n l.length l

/-- The first index at which `p` holds. -/
def findIdxFrom {α : Type} (p : α → Bool) : Nat → List α → Option Nat
  | _, [] => none
  | i, a :: t => if p a then some i else findIdxFrom p (i + 1) t

/-- The number of set bits among the low `w`. -/
def popCount (w n : Nat) : Nat := ((List.range w).filter (fun i => n.testBit i)).length

/-- The word with bits [hi:lo] set to `v`. -/
def wput (w : Word) (hi lo v : Nat) : Word := BitVec.ofNat 32 (putBits w.toNat hi lo v)

/-- Bits [hi:lo] of a word. -/
def wbits (w : Word) (hi lo : Nat) : Nat := bitsOf w.toNat hi lo

/-- A word from a number. -/
def word (n : Nat) : Word := BitVec.ofNat 32 n

/-- Enters a pair into a list sorted by first number. -/
def insertDim (x : Nat × Nat) : List (Nat × Nat) → List (Nat × Nat)
  | [] => [x]
  | y :: t => if x.1 ≤ y.1 then x :: y :: t else y :: insertDim x t

end Sys2Proof.Machine
end

