-- ==== Sys2Proof/Machine/Num.lean ====
section
/-!
DEFINITION. The number formats, rounding, conversion, traps and block scaling (02_numbers_scales_and_rounding.md,
R25 to R56 and R608). A value is exact: a sign, a magnitude and a power of two. Every operation is computed exactly and
rounded once, as the rules say.
-/

namespace Sys2Proof.Machine

/-- The fourteen format codes (R25). -/
inductive Fmt where
  | fp32 | bf16 | fp16 | e4m3 | e5m2 | e3m2 | e2m3 | e2m1 | i32 | i16 | i8 | i4 | u8 | e8m0
deriving DecidableEq, Repr

/-- R25; the codes 0x0E to 0x1F are reserved (R8). -/
def Fmt.ofCode (n : Nat) : Option Fmt :=
  [.fp32, .bf16, .fp16, .e4m3, .e5m2, .e3m2, .e2m3, .e2m1, .i32, .i16, .i8, .i4, .u8, .e8m0][n]?

/-- The code of a format (R25). -/
def Fmt.code : Fmt → Nat
  | .fp32 => 0 | .bf16 => 1 | .fp16 => 2 | .e4m3 => 3 | .e5m2 => 4 | .e3m2 => 5 | .e2m3 => 6 | .e2m1 => 7
  | .i32 => 8 | .i16 => 9 | .i8 => 10 | .i4 => 11 | .u8 => 12 | .e8m0 => 13

/-- Bits of one element (R26 to R28). -/
def Fmt.width : Fmt → Nat
  | .fp32 | .i32 => 32
  | .bf16 | .fp16 | .i16 => 16
  | .e4m3 | .e5m2 | .i8 | .u8 | .e8m0 => 8
  | .e3m2 | .e2m3 => 6
  | .e2m1 | .i4 => 4

def Fmt.isFloat : Fmt → Bool
  | .fp32 | .bf16 | .fp16 | .e4m3 | .e5m2 | .e3m2 | .e2m3 | .e2m1 => true
  | _ => false

/-- The integer formats (R28). -/
def Fmt.isInt : Fmt → Bool
  | .i32 | .i16 | .i8 | .i4 | .u8 => true
  | _ => false

/-- Formats that may carry block scales (R42). -/
def Fmt.mayScale : Fmt → Bool
  | .e4m3 | .e5m2 | .i8 | .e3m2 | .e2m3 | .e2m1 => true
  | _ => false

/-- Formats that must carry block scales (R42). -/
def Fmt.mustScale : Fmt → Bool
  | .e3m2 | .e2m3 | .e2m1 => true
  | _ => false

/-- R42: whether a tensor of this format may be scaled, or unscaled, as named. -/
def Fmt.scaleOk (f : Fmt) (scaled : Bool) : Bool := if scaled then f.mayScale else !f.mustScale

/-- Sub-byte formats (R49). -/
def Fmt.subByte (f : Fmt) : Bool := f.width < 8

/-- Elements of one packing group (R49): four for FP6, two for INT4 and FP4, one otherwise. -/
def Fmt.groupElems : Fmt → Nat
  | .e3m2 | .e2m3 => 4
  | .e2m1 | .i4 => 2
  | _ => 1

/-- Bytes of one packing group (R49). -/
def Fmt.groupBytes (f : Fmt) : Nat := f.groupElems * f.width / 8

/-- An exact value: NaN, an infinity, or ± m × 2^e. -/
inductive Val where
  | nan
  | inf (neg : Bool)
  | fin (neg : Bool) (m : Nat) (e : Int)
deriving DecidableEq, Repr

/-- +0. -/
def Val.zero : Val := .fin false 0 0

/-- The value of an integer. -/
def Val.ofInt (i : Int) : Val := .fin (decide (i < 0)) i.natAbs 0

/-- 2^k. -/
def Val.pow2 (k : Int) : Val := .fin false 1 k

def Val.isNaN : Val → Bool
  | .nan => true
  | _ => false

def Val.isInf : Val → Bool
  | .inf _ => true
  | _ => false

def Val.isZero : Val → Bool
  | .fin _ 0 _ => true
  | _ => false

def Val.isFin : Val → Bool
  | .fin .. => true
  | _ => false

/-- The sign bit; NaN carries none (R30). -/
def Val.negative : Val → Bool
  | .nan => false
  | .inf s => s
  | .fin s _ _ => s

def Val.neg : Val → Val
  | .nan => .nan
  | .inf s => .inf (!s)
  | .fin s m e => .fin (!s) m e

def Val.abs : Val → Val
  | .nan => .nan
  | .inf _ => .inf false
  | .fin _ m e => .fin false m e

/-- x with the sign `s`. -/
def Val.withSign (s : Bool) : Val → Val
  | .nan => .nan
  | .inf _ => .inf s
  | .fin _ m e => .fin s m e

/-- x × 2^k, exactly. -/
def Val.scale2 (k : Int) : Val → Val
  | .nan => .nan
  | .inf s => .inf s
  | .fin s m e => .fin s m (e + k)

/-- m × 2^e as a number of units 2^q, for q ≤ e. -/
def unitsAt (m : Nat) (e q : Int) : Nat := m * 2 ^ (e - q).toNat

/-- The sum of two finite values, exact (R31: +0 plus −0 is +0). -/
def Val.add : Val → Val → Val
  | .nan, _ | _, .nan => .nan
  | .inf s, .inf t => if s = t then .inf s else .nan
  | .inf s, .fin .. => .inf s
  | .fin .., .inf s => .inf s
  | .fin s m e, .fin t n f =>
    if m = 0 ∧ n = 0 then .fin (s && t) 0 0
    else if m = 0 then .fin t n f
    else if n = 0 then .fin s m e
    else
      let q := min e f
      let a := unitsAt m e q
      let b := unitsAt n f q
      if s = t then .fin s (a + b) q
      else if a = b then .fin false 0 0
      else if b < a then .fin s (a - b) q
      else .fin t (b - a) q

def Val.sub (a b : Val) : Val := a.add b.neg

/-- The exact product; 0 × ∞ is NaN (R40). -/
def Val.mul : Val → Val → Val
  | .nan, _ | _, .nan => .nan
  | .inf s, .inf t => .inf (s != t)
  | .inf s, .fin t n _ => if n = 0 then .nan else .inf (s != t)
  | .fin s m _, .inf t => if m = 0 then .nan else .inf (s != t)
  | .fin s m e, .fin t n f => .fin (s != t) (m * n) (if m * n = 0 then 0 else e + f)

/-- Compares two finite magnitudes. -/
def magCmp (m : Nat) (e : Int) (n : Nat) (f : Int) : Ordering :=
  if m = 0 ∨ n = 0 then compare m n
  else
    let q := min e f
    compare (unitsAt m e q) (unitsAt n f q)

/-- The order of two values that are not NaN, with −0 below +0 (R33). -/
def Val.cmp : Val → Val → Ordering
  | .inf s, .inf t => if s = t then .eq else if s then .lt else .gt
  | .inf s, _ => if s then .lt else .gt
  | _, .inf t => if t then .gt else .lt
  | .fin s m e, .fin t n f =>
    if s && !t then .lt
    else if !s && t then .gt
    else if s then magCmp n f m e
    else magCmp m e n f
  | _, _ => .eq

/-- Minimum (R33): NaN if either operand is NaN. -/
def Val.min (a b : Val) : Val := if a.isNaN || b.isNaN then .nan else if a.cmp b = .gt then b else a

/-- Maximum (R33). -/
def Val.max (a b : Val) : Val := if a.isNaN || b.isNaN then .nan else if a.cmp b = .lt then b else a

/-- Numeric equality (+0 equals −0). -/
def Val.numEq (a b : Val) : Bool :=
  if a.isNaN || b.isNaN then false
  else if a.isZero && b.isZero then true
  else a.cmp b = .eq

/-- The rounding codes (R34); code 3 is reserved. -/
inductive Rnd where
  | nearestEven | stochastic | towardZero
deriving DecidableEq, Repr

def Rnd.ofCode (n : Nat) : Option Rnd := [.nearestEven, .stochastic, .towardZero][n]?

/-- The 16 random bits of element `i` under a seed (R36). -/
def srBits (seed : DWord) (i : Nat) : Nat :=
  let z0 : DWord := seed + BitVec.ofNat 64 (i + 1) * 0x9E3779B97F4A7C15#64
  let z1 : DWord := (z0 ^^^ (z0 >>> 30)) * 0xBF58476D1CE4E5B9#64
  let z2 : DWord := (z1 ^^^ (z1 >>> 27)) * 0x94D049BB133111EB#64
  let z3 : DWord := z2 ^^^ (z2 >>> 31)
  (z3 >>> 48).toNat

/-- m × 2^e in whole units of 2^q, rounded (R34, R36): `r` is the element's random value under STOCHASTIC. -/
def roundUnits (mode : Rnd) (r : Nat) (m : Nat) (e q : Int) : Nat :=
  if q ≤ e then unitsAt m e q
  else
    let d := 2 ^ (q - e).toNat
    let k := m / d
    let rem := m % d
    match mode with
    | .towardZero => k
    | .nearestEven => if 2 * rem < d then k else if d < 2 * rem then k + 1 else k + k % 2
    | .stochastic => if r < rem * 65536 / d then k + 1 else k

/-- Exponent of the unit in the last place of m × 2^e (m not 0) in a format of `p` significant bits whose smallest unit
is 2^emin (`none`: no bound below, the wide form of R251). -/
def ulpExp (p : Nat) (emin : Option Int) (m : Nat) (e : Int) : Int :=
  let q := e + (Nat.log2 m : Int) + 1 - (p : Int)
  match emin with
  | none => q
  | some b => max q b

/-- Rounds to `p` significant bits and no unit below 2^emin, without a bound above. -/
def roundPrec (mode : Rnd) (r p : Nat) (emin : Option Int) : Val → Val
  | .fin s m e =>
    if m = 0 then .fin s 0 0
    else
      let q := ulpExp p emin m e
      .fin s (roundUnits mode r m e q) q
  | v => v

/-- A floating-point format's figures (R26): significant bits, smallest unit, largest finite value m × 2^e, exponent
bits, fraction bits, bias, and whether it has infinities. -/
structure FFmt where
  prec : Nat
  emin : Int
  maxM : Nat
  maxE : Int
  ebits : Nat
  mbits : Nat
  bias : Int
  hasInf : Bool
  hasNaN : Bool
deriving DecidableEq, Repr

/-- The figures of R26; an integer format answers FP32's, which no caller uses. -/
def Fmt.ff : Fmt → FFmt
  | .bf16 => ⟨8, -133, 255, 120, 8, 7, 127, true, true⟩
  | .fp16 => ⟨11, -24, 2047, 5, 5, 10, 15, true, true⟩
  | .e4m3 => ⟨4, -9, 14, 5, 4, 3, 7, false, true⟩
  | .e5m2 => ⟨3, -16, 7, 13, 5, 2, 15, true, true⟩
  | .e3m2 => ⟨3, -4, 7, 2, 3, 2, 3, false, false⟩
  | .e2m3 => ⟨4, -3, 15, -1, 2, 3, 1, false, false⟩
  | .e2m1 => ⟨2, -1, 3, 1, 2, 1, 1, false, false⟩
  | _ => ⟨24, -149, 2 ^ 24 - 1, 104, 8, 23, 127, true, true⟩

/-- The largest finite value with a sign. -/
def Fmt.maxVal (f : Fmt) (s : Bool) : Val := .fin s f.ff.maxM f.ff.maxE

/-- The canonical NaN's code (R30); the formats without one never need it. -/
def Fmt.nanCode : Fmt → Nat
  | .fp32 => 0x7FC00000
  | .bf16 => 0x7FC0
  | .fp16 => 0x7E00
  | .e8m0 => 0xFF
  | _ => 0x7F

/-- The inclusive integer range (R28). -/
def Fmt.intRange : Fmt → Int × Int
  | .i16 => (-32768, 32767)
  | .i8 => (-128, 127)
  | .i4 => (-8, 7)
  | .u8 => (0, 255)
  | _ => (-2147483648, 2147483647)

/-- The code of a representable value of a floating-point format (R26). -/
def Fmt.encodeFloat (f : Fmt) : Val → Nat
  | .nan => f.nanCode
  | .inf s => b01 s <<< (f.width - 1) ||| (2 ^ f.ff.ebits - 1) <<< f.ff.mbits
  | .fin s m e =>
    let g := f.ff
    let sg := b01 s <<< (f.width - 1)
    if m = 0 then sg
    else
      let top := e + (Nat.log2 m : Int)
      let q := max (top + 1 - (g.prec : Int)) g.emin
      let k := roundUnits .towardZero 0 m e q
      if k < 2 ^ g.mbits then sg ||| k
      else sg ||| ((top + g.bias).toNat <<< g.mbits ||| (k - 2 ^ g.mbits))

/-- The value of a code (R26 to R28). -/
def Fmt.decode (f : Fmt) (code : Nat) : Val :=
  let c := code % 2 ^ f.width
  match f with
  | .e8m0 => if c = 255 then .nan else .fin false 1 ((c : Int) - 127)
  | .u8 => .ofInt c
  | .i32 | .i16 | .i8 | .i4 => .ofInt (signed f.width c)
  | _ =>
    let g := f.ff
    let s := bitOf c (f.width - 1)
    let ex := bitsOf c (f.width - 2) g.mbits
    let fr := c % 2 ^ g.mbits
    let top := 2 ^ g.ebits - 1
    if ex = top ∧ g.hasInf then (if fr = 0 then .inf s else .nan)
    else if f = .e4m3 ∧ ex = top ∧ fr = 7 then .nan
    else if ex = 0 then .fin s fr g.emin
    else .fin s (fr + 2 ^ g.mbits) ((ex : Int) - g.bias - (g.mbits : Int))

/-- The trap conditions an element can meet (R40). -/
structure Traps where
  invalid : Bool
  overflow : Bool
  nanInput : Bool
deriving DecidableEq, Repr

def Traps.none : Traps := ⟨false, false, false⟩
def Traps.inv : Traps := ⟨true, false, false⟩
def Traps.ovf : Traps := ⟨false, true, false⟩
def Traps.nanIn : Traps := ⟨false, false, true⟩
def Traps.or (a b : Traps) : Traps := ⟨a.invalid || b.invalid, a.overflow || b.overflow, a.nanInput || b.nanInput⟩
def Traps.any (a : Traps) : Bool := a.invalid || a.overflow || a.nanInput

/-- Whether a finite value exceeds the format's largest finite value. -/
def Fmt.tooBig (f : Fmt) : Val → Bool
  | .fin _ m e => magCmp m e f.ff.maxM f.ff.maxE = .gt
  | _ => false

/-- Rounds to a floating-point format as arithmetic does: beyond the largest finite value is ± ∞ (R35, R38 with the
saturate flag clear). OVERFLOW is met when a finite value becomes infinite (R40). -/
def Fmt.roundTo (f : Fmt) (mode : Rnd) (r : Nat) (v : Val) : Val × Traps :=
  match roundPrec mode r f.ff.prec (some f.ff.emin) v with
  | .fin s m e => if f.tooBig (.fin s m e) then (.inf s, Traps.ovf) else (.fin s m e, Traps.none)
  | w => (w, Traps.none)

/-- Rounds to FP32, nearest-even, as every arithmetic operation does (R35). -/
def rnd32 (v : Val) : Val := (Fmt.fp32.roundTo .nearestEven 0 v).1

/-- Conversion to a floating-point format outside a block (R38): the code, and the traps met (R40). Under TOWARD_ZERO a value
beyond the largest finite value becomes that value and meets OVERFLOW, also where truncation alone would bring it there. -/
def Fmt.toFloat (f : Fmt) (mode : Rnd) (sat : Bool) (r : Nat) (v : Val) : Nat × Traps :=
  match v with
  | .nan => (f.nanCode, Traps.none)
  | .inf s =>
    if sat then (f.encodeFloat (f.maxVal s), Traps.ovf)
    else if f.ff.hasInf then (f.encodeFloat (.inf s), Traps.none)
    else (f.nanCode, Traps.ovf)
  | .fin .. =>
    let w := roundPrec mode r f.ff.prec (some f.ff.emin) v
    if f.tooBig w || (decide (mode = .towardZero) && f.tooBig v) then
      if sat || mode = .towardZero then (f.encodeFloat (f.maxVal v.negative), Traps.ovf)
      else if f.ff.hasInf then (f.encodeFloat (.inf v.negative), Traps.ovf)
      else (f.nanCode, Traps.ovf)
    else (f.encodeFloat w, Traps.none)

/-- The integer that a finite value rounds to. -/
def roundInt (mode : Rnd) (r : Nat) : Val → Int
  | .fin s m e => let k := (roundUnits mode r m e 0 : Nat); if s then -(k : Int) else (k : Int)
  | _ => 0

/-- Conversion to an integer format (R38): always saturates; NaN gives 0 and meets NAN_INPUT (R40). -/
def Fmt.toInt (f : Fmt) (mode : Rnd) (r : Nat) (v : Val) : Nat × Traps :=
  let (lo, hi) := f.intRange
  match v with
  | .nan => (0, Traps.nanIn)
  | .inf s => (unsignedOf f.width (if s then lo else hi), Traps.ovf)
  | .fin .. =>
    let i := roundInt mode r v
    let c := clampInt lo hi i
    (unsignedOf f.width c, if c = i then Traps.none else Traps.ovf)

/-- Conversion to E8M0 (R608). -/
def toE8M0 (mode : Rnd) (sat : Bool) (r : Nat) (v : Val) : Nat × Traps :=
  match v with
  | .nan => (0xFF, Traps.none)
  | .inf true => (0xFF, Traps.inv)
  | .inf false => (if sat then 0xFE else 0xFF, Traps.ovf)
  | .fin s m e =>
    if s ∨ m = 0 then (0xFF, Traps.inv)
    else
      let j := e + (Nat.log2 m : Int)
      let d := 2 ^ Nat.log2 m
      let rem := m - d
      let up : Bool := match mode with
        | .towardZero => false
        | .stochastic => decide (r < rem * 65536 / d)
        | .nearestEven => decide (d < 2 * rem) || (decide (2 * rem = d) && decide ((j + 127) % 2 ≠ 0))
      let k := if up then j + 1 else j
      if 128 ≤ k then (if sat then 0xFE else 0xFF, Traps.ovf)
      else ((max k (-127) + 127).toNat, Traps.none)

/-- Conversion of one unscaled element to any format (R38, R608). -/
def Fmt.convert (f : Fmt) (mode : Rnd) (sat : Bool) (r : Nat) (v : Val) : Nat × Traps :=
  if f = .e8m0 then toE8M0 mode sat r v
  else if f.isFloat then f.toFloat mode sat r v
  else f.toInt mode r v

/-- The FP32 code of a value already rounded to FP32. -/
def to32 (v : Val) : Nat := Fmt.fp32.encodeFloat v

/-- The value of an FP32 code. -/
def of32 (n : Nat) : Val := Fmt.fp32.decode n

/-- FP32 addition. -/
def fadd (a b : Val) : Val := rnd32 (a.add b)

/-- FP32 multiplication. -/
def fmul (a b : Val) : Val := rnd32 (a.mul b)

/-- Fused multiply-add with one rounding (R53). -/
def ffma (a b c : Val) : Val := rnd32 ((a.mul b).add c)

/-- The quotient of two finite non-zero magnitudes with `p` bits at least and a sticky bit. -/
def quotSticky (m : Nat) (e : Int) (n : Nat) (f : Int) (p : Nat) : Nat × Int :=
  let k := p + 2 + Nat.log2 n + 1 - Nat.log2 m
  let a := m * 2 ^ k
  let q := a / n
  (2 * q + (if a % n = 0 then 0 else 1), e - f - (k : Int) - 1)

/-- The quotient, exact enough to be rounded once to 24 bits (IEEE 754; x / 0 is an infinity). -/
def Val.div : Val → Val → Val
  | .nan, _ | _, .nan => .nan
  | .inf _, .inf _ => .nan
  | .inf s, .fin t _ _ => .inf (s != t)
  | .fin s _ _, .inf t => .fin (s != t) 0 0
  | .fin s m e, .fin t n f =>
    if n = 0 then (if m = 0 then .nan else .inf (s != t))
    else if m = 0 then .fin (s != t) 0 0
    else
      let (q, x) := quotSticky m e n f 64
      .fin (s != t) q x

/-- FP32 division. -/
def fdiv (a b : Val) : Val := rnd32 (a.div b)

/-- The integer square root by Newton's method from above; `fuel` steps. -/
def isqrtFuel : Nat → Nat → Nat → Nat
  | 0, _, x => x
  | f + 1, n, x =>
    if x = 0 then 0
    else
      let y := (x + n / x) / 2
      if x ≤ y then x else isqrtFuel f n y

/-- The integer square root, rounded down. -/
def isqrt (n : Nat) : Nat := isqrtFuel (Nat.log2 n + 2) n (2 ^ (Nat.log2 n / 2 + 1))

/-- The square root with 64 bits at least and a sticky bit; the square root of a negative number is NaN (R40). -/
def Val.sqrt : Val → Val
  | .nan => .nan
  | .inf s => if s then .nan else .inf false
  | .fin s m e =>
    if m = 0 then .fin s 0 0
    else if s then .nan
    else
      let k := 130 + (e % 2).toNat
      let n := m * 2 ^ k
      let r := isqrt n
      .fin false (2 * r + (if r * r = n then 0 else 1)) ((e - (k : Int)) / 2 - 1)

/-- Traps of an arithmetic operation: INVALID when a NaN comes from operands that are all not NaN; OVERFLOW when a
finite exact result is rounded to an infinity (R40). -/
def opTraps (operands : List Val) (exact rounded : Val) : Traps :=
  ⟨rounded.isNaN && !(operands.any Val.isNaN), exact.isFin && rounded.isInf, false⟩

/-- floor(log2 |v|) of a finite non-zero value. -/
def Val.log2Floor : Val → Int
  | .fin _ m e => e + (Nat.log2 m : Int)
  | _ => 0

/-- emax of R46: the exponent of the target's largest normal value. -/
def Fmt.emax : Fmt → Int
  | .e4m3 => 8
  | .e5m2 => 15
  | .e3m2 => 4
  | .e2m3 | .e2m1 => 2
  | _ => 0

/-- The value of a block element's code: for a scaled INT8 element, its integer × 2^-6 (R43). -/
def Fmt.elemVal (f : Fmt) (code : Nat) : Val :=
  if f = .i8 then (f.decode code).scale2 (-6) else f.decode code

/-- The value of element code `c` in a block of scale code `sc`, without the tensor scale (R43). -/
def scaledVal (f : Fmt) (sc c : Nat) : Val :=
  if sc = 255 then .nan else (f.elemVal c).scale2 ((sc : Int) - 127)

/-- The largest finite value of a block target; INT8's is 127 × 2^-6 (R43, R46). -/
def Fmt.blockMax (f : Fmt) (s : Bool) : Val := if f = .i8 then .fin s 127 (-6) else f.maxVal s

/-- Rounds one scaled value to a block element's code, clamped to ± the largest finite value (R46). -/
def Fmt.blockElem (f : Fmt) (mode : Rnd) (r : Nat) (y : Val) : Nat :=
  if f = .i8 then
    unsignedOf 8 (clampInt (-127) 127 (roundInt mode r (y.scale2 6)))
  else
    let w := roundPrec mode r f.ff.prec (some f.ff.emin) y
    f.encodeFloat (if f.tooBig w then f.maxVal y.negative else w)

/-- Forms one block from 32 FP32 values already divided by the tensor scale (R46, R47): scale code, element codes and
the traps met (R40). `i0` is the first element's index. -/
def formBlock (f : Fmt) (mode : Rnd) (sat : Bool) (seed : DWord) (i0 : Nat) (xs : List Val) : Nat × List Nat × Traps :=
  let hasNaN := xs.any Val.isNaN
  let hasInf := xs.any Val.isInf
  let tr : Traps := ⟨hasInf && !sat, hasInf && sat, hasNaN⟩
  if hasNaN || (hasInf && !sat) then (255, xs.map (fun _ => 0), tr)
  else
    let a := xs.foldl (fun acc x => if x.isFin then acc.max x.abs else acc) Val.zero
    if a.isZero && !hasInf then (0, xs.map (fun x => f.blockElem mode 0 x), tr)
    else
      let e : Int := if a.isZero then 0 else clampInt (-127) 127 (a.log2Floor - f.emax)
      let codes := xs.zipIdx.map (fun (x, j) =>
        let y := if x.isInf then f.blockMax x.negative else x.scale2 (-e)
        f.blockElem mode (if mode = .stochastic then srBits seed (i0 + j) else 0) y)
      ((e + 127).toNat, codes, tr)

/-- A tensor scale must be a positive, finite, normal FP32 value (R44). -/
def tensorScaleOk (code : Nat) : Bool :=
  !(bitOf code 31) && decide (1 ≤ bitsOf code 30 23) && decide (bitsOf code 30 23 ≤ 254)

/-- Packs element codes little-endian (R49): each packing group becomes whole bytes. -/
def packElems (f : Fmt) (codes : List Nat) : List Byte :=
  (chunks f.groupElems codes).flatMap (fun g =>
    leBytes f.groupBytes (g.zipIdx.foldl (fun acc (c, j) => acc + (c % 2 ^ f.width) * 2 ^ (j * f.width)) 0))

/-- Unpacks `n` element codes from bytes (R49). -/
def unpackElems (f : Fmt) (n : Nat) (bs : List Byte) : List Nat :=
  let all := leNat bs
  (List.range n).map (fun i => all >>> (i * f.width) % 2 ^ f.width)

/-- Bytes of the wire form of `blocks` blocks (R50, R51): whole units of eight blocks. -/
def wireBytes (f : Fmt) (blocks : Nat) : Nat := ceilDiv blocks 8 * (8 + 8 * (32 * f.width / 8))

/-- Packs blocks (scale code and 32 element codes each) in wire form, padding the last unit (R50, R51). -/
def wirePack (f : Fmt) (blocks : List (Nat × List Nat)) : List Byte :=
  (chunks 8 blocks).flatMap (fun u =>
    let full := u ++ List.replicate (8 - u.length) (0, List.replicate 32 0)
    full.map (fun b => BitVec.ofNat 8 b.1) ++ full.flatMap (fun b => packElems f b.2))

/-- Unpacks `n` blocks from wire form; padding blocks are discarded (R51). -/
def wireUnpack (f : Fmt) (n : Nat) (bs : List Byte) : List (Nat × List Nat) :=
  let bb := 32 * f.width / 8
  let unit := 8 + 8 * bb
  (List.range n).map (fun b =>
    let u := bs.drop (b / 8 * unit)
    let sc := (nth 0#8 u (b % 8)).toNat
    (sc, unpackElems f 32 ((u.drop (8 + b % 8 * bb)).take bb)))

/-- One accumulation step (R53): the exact sum of a group's products, rounded once to FP32, then added to the
accumulator in FP32. -/
def accumulate (acc : Val) (products : List Val) : Val :=
  fadd acc (rnd32 (products.foldl Val.add (match products with | [] => Val.zero | _ => .fin true 0 0)))

end Sys2Proof.Machine
end

