-- ==== Sys2Proof/Machine/Regs.lean ====
section
/-!
DEFINITION. The block-specific register tables of every page, field by field, with access codes and reset values (the
tables of R81, R145 to R148, R186, R222, R247, R318, R344, R346, R372, R400, R402, R441, R443, R445, R470, R498, R499
and R527 to R529), and the registers' offsets within their page under the spec's names. A reset the tables leave to a
rule ("per variant", "strap", "fused", "first of range") stands as 0 here: such a register is a computed view.
-/

namespace Sys2Proof.Machine

/-- The blocks of the DRS (R59, R65); `rotT` and `pwrT` are page 1 of their windows (R499, R528), `none` a reserved page. -/
inductive Block where
  | dev | arb | rot | rotT | pwr | pwrT | scr | sq | mxe | vxe | sft | mov | spd | pwn | mesh
  | mem | mch | upd | lnk | rte | stx | col | hbr | sch | none
deriving DecidableEq, Repr

/-- The register access codes (00_scope.md, "Register access codes"). -/
inductive Acc where
  | rw | ro | w1c | w1s | wo | rwo
deriving DecidableEq, Repr

/-- One field of a register: its bits, access code and reset value. -/
structure Field where
  hi : Nat
  lo : Nat
  acc : Acc
  rst : Nat
deriving DecidableEq, Repr

/-- One row of a register table: `count` registers from offset `off`, `stride` bytes apart. -/
structure RegRow where
  off : Nat
  count : Nat
  stride : Nat
  fields : List Field
deriving DecidableEq, Repr

namespace R

def DEV_ID : Nat := 0x80
def DEV_SERIAL_LO : Nat := 0x84
def DEV_SERIAL_HI : Nat := 0x88
def DEV_VARIANT : Nat := 0x8C
def DEV_CAPS : Nat := 0x90
def DEV_CAPS2 : Nat := 0x94
def DEV_STRAPS : Nat := 0x98
def DEV_PLACEMENT : Nat := 0x9C
def DEV_STATUS : Nat := 0xA0
def DEV_SPARES : Nat := 0xA4
def DEV_RESET : Nat := 0xA8
def DEV_RESET_CAUSE : Nat := 0xAC
def DEV_INT_SQ_LO : Nat := 0xC0
def DEV_INT_SQ_HI : Nat := 0xC4
def DEV_INT_BLK : Nat := 0xC8
def DEV_INT_LNK_LO : Nat := 0xCC
def DEV_INT_LNK_HI : Nat := 0xD0
def DEV_INT_CTRL : Nat := 0xD4
def SQ_REMAP : Nat := 0x80
def SQ_SENSE : Nat := 0x84
def SQ_RAIL : Nat := 0x88
def SQ_TIME_LO : Nat := 0x8C
def SQ_TIME_HI : Nat := 0x90
def SQ_GATED : Nat := 0x94
def SPD_SWZ_BASE : Nat := 0x80
def SPD_SWZ_CFG : Nat := 0x84
def SPD_ECC_LAST : Nat := 0xC0
def SPD_SCRUB : Nat := 0xC4
def PWN_BOOT : Nat := 0x80
def PWN_STATUS : Nat := 0x84
def PWN_PC_LO : Nat := 0x88
def PWN_PC_HI : Nat := 0x8C
def PWN_MCAUSE : Nat := 0x90
def PWN_MBOX_IN : Nat := 0x94
def PWN_MBOX_OUT : Nat := 0x98
def MESH_SLOT : Nat := 0x80
def MESH_PORTS : Nat := 0x84
def MESH_FLITS_OUT : Nat := 0x88
def MESH_FLITS_IN : Nat := 0x8C
def MESH_REMAP_GEN : Nat := 0x90
def MESH_RETRY : Nat := 0x94
def MXE_QUEUE : Nat := 0x80
def MXE_PASS : Nat := 0x84
def MXE_SLOT_MASKED : Nat := 0x88
def MXE_GATE : Nat := 0x8C
def MXE_BUSY_LO : Nat := 0x90
def MXE_BUSY_HI : Nat := 0x94
def MXE_DONE : Nat := 0x98
def MXE_JOINED : Nat := 0x9C
def MXE_LAST_FAULT : Nat := 0xA0
def MXE_CHECK : Nat := 0xA4
def MXE_CHECK_SKIPPED : Nat := 0xA8
def VXE_QUEUE : Nat := 0x80
def VXE_PC : Nat := 0x84
def VXE_LOOP : Nat := 0x88
def VXE_TAPS : Nat := 0x94
def VXE_GATE : Nat := 0x98
def VXE_BUSY_LO : Nat := 0x9C
def VXE_BUSY_HI : Nat := 0xA0
def VXE_DONE : Nat := 0xA4
def VXE_LAST_FAULT : Nat := 0xA8
def VXE_TRAP_ELEM : Nat := 0xAC
def VXE_EMPTY_ROWS : Nat := 0xB0
def SFT_ACTIVE : Nat := 0x80
def SFT_VALID0 : Nat := 0x84
def SFT_VALID1 : Nat := 0x88
def SFT_HELD : Nat := 0x8C
def SFT_QUEUE : Nat := 0x90
def SFT_SWAPS : Nat := 0x94
def SFT_LOADS : Nat := 0x98
def SFT_LAST_ERR : Nat := 0x9C
def SFT_ECC_LAST : Nat := 0xA0
def SFT_EMPTY_USE : Nat := 0xA4
def SFT_IMAGE_VER : Nat := 0xA8
def MOV_CHAN : Nat := 0x80
def MOV_GATE : Nat := 0x90
def MOV_BUSY_LO : Nat := 0x94
def MOV_BUSY_HI : Nat := 0x98
def MOV_DONE : Nat := 0x9C
def MOV_BYTES_LO : Nat := 0xA0
def MOV_BYTES_HI : Nat := 0xA4
def MOV_COALESCED : Nat := 0xA8
def MOV_LAST_FAULT : Nat := 0xAC
def MOV_FAULT_POS_LO : Nat := 0xB0
def MOV_FAULT_POS_HI : Nat := 0xB4
def MOV_TAG_FAIL : Nat := 0xB8
def MEM_GEOM : Nat := 0x80
def MEM_FRAME : Nat := 0x84
def MEM_SLOT_OWNER : Nat := 0x88
def MEM_REFRESH : Nat := 0xA8
def MEM_SCRUB : Nat := 0xAC
def MEM_KEYS : Nat := 0xB0
def MEM_RELEASE : Nat := 0xB4
def MEM_SPARE : Nat := 0xC0
def MEM_SPARE_PROG : Nat := 0xC4
def MEM_RD_LO : Nat := 0x100
def MEM_RD_HI : Nat := 0x104
def MEM_WR_LO : Nat := 0x108
def MEM_WR_HI : Nat := 0x10C
def UPD_QUEUE : Nat := 0x80
def UPD_BLOCKS_LO : Nat := 0x84
def UPD_BLOCKS_HI : Nat := 0x88
def UPD_LAZY : Nat := 0x8C
def UPD_STAMP_BACK : Nat := 0x90
def UPD_ORTHO : Nat := 0x94
def UPD_LAST_FAULT : Nat := 0x98
def UPD_SUMSQ : Nat := 0x9C
def UPD_HOST_PEND : Nat := 0xA0
def UPD_HOST_DONE : Nat := 0xC0
def SCH_CTX_SEL : Nat := 0x80
def SCH_CTX_OP : Nat := 0x84
def SCH_CTX_DATA : Nat := 0x88
def SCH_TC_SEL : Nat := 0xC8
def SCH_TC_DATA : Nat := 0xCC
def SCH_TC_COMMIT : Nat := 0xEC
def SCH_TALLY_SEL : Nat := 0xF0
def SCH_TALLY_VAL : Nat := 0xF4
def SCH_TALLY_ADD : Nat := 0xF8
def SCH_DOORBELL : Nat := 0xFC
def SCH_CTX_RANGE : Nat := 0x100
def SCH_TC_RANGE : Nat := 0x104
def SCH_TALLY_RANGE : Nat := 0x108
def SCH_SEG_RANGE : Nat := 0x10C
def SCH_SLOTS : Nat := 0x110
def SCH_TAG_QUOTA : Nat := 0x114
def SCH_TAG_INUSE : Nat := 0x118
def SCH_FLAG_CTX : Nat := 0x11C
def SCH_FLAGS : Nat := 0x120
def SCH_REFUSED : Nat := 0x124
def SCH_FAULT_CTX : Nat := 0x128
def STX_SIG_RX : Nat := 0x80
def STX_SIG_TX : Nat := 0x84
def STX_SIG_DROP : Nat := 0x88
def STX_LAST_DROP : Nat := 0x8C
def STX_REMOTE_CMDS : Nat := 0x90
def LNK_STATUS : Nat := 0x80
def LNK_PEER : Nat := 0x84
def LNK_SLOT_OWNER : Nat := 0x88
def LNK_TX_LO : Nat := 0xA8
def LNK_TX_HI : Nat := 0xAC
def LNK_RX_LO : Nat := 0xB0
def LNK_RX_HI : Nat := 0xB4
def LNK_REPLAYS : Nat := 0xB8
def LNK_TAG_FAIL : Nat := 0xBC
def LNK_KEY : Nat := 0xC0
def LNK_REKEYS : Nat := 0xC4
def LNK_TRAINS : Nat := 0xC8
def LNK_LANE : Nat := 0x100
def RTE_BRIDGE : Nat := 0x80
def RTE_TIMEOUT : Nat := 0x84
def RTE_HOLD : Nat := 0x88
def RTE_TRANSIT : Nat := 0x8C
def RTE_DROP : Nat := 0x9C
def RTE_STALE : Nat := 0xA0
def RTE_LAST_DROP : Nat := 0xA4
def RTE_INTRA : Nat := 0x200
def RTE_INTER : Nat := 0x400
def RTE_EPOCH : Nat := 0xC00
def HBR_ROLE : Nat := 0x80
def HBR_PCIE : Nat := 0x84
def HBR_NUMVF : Nat := 0x88
def HBR_PCI_ID : Nat := 0x8C
def HBR_WIN_EN : Nat := 0x90
def HBR_WIN : Nat := 0x94
def HBR_ABORTS : Nat := 0xD4
def HBR_INT_FWD : Nat := 0xD8
def HBR_INT_RESENT : Nat := 0xDC
def COL_GRP_SEL : Nat := 0x80
def COL_GRP_DATA : Nat := 0x84
def COL_GRP_COMMIT : Nat := 0x9C
def COL_GRP_RANGE : Nat := 0xA0
def COL_ACTIVE : Nat := 0xA4
def COL_DONE : Nat := 0xA8
def COL_REFUSED : Nat := 0xAC
def COL_DROP : Nat := 0xB0
def COL_LAST_FAULT : Nat := 0xB4
def COL_BYTES_LO : Nat := 0xB8
def COL_BYTES_HI : Nat := 0xBC
def COL_JOIN_TIMEOUT : Nat := 0xC0
def ROT_LIFECYCLE : Nat := 0x80
def ROT_ROLLBACK : Nat := 0x84
def ROT_LAYOUT_GEN : Nat := 0x88
def ROT_REQ_OP : Nat := 0x8C
def ROT_REQ_ARG : Nat := 0x90
def ROT_REQ_STATUS : Nat := 0xB0
def ROT_PT_SEL : Nat := 0xC0
def ROT_PT_DATA : Nat := 0xC4
def ROT_POLICY : Nat := 0x104
def ROT_REGION : Nat := 0x200
def ROT_BUF : Nat := 0x800
def ROT_T_PART : Nat := 0x80
def ROT_T_GEN : Nat := 0x84
def ROT_T_OP : Nat := 0x88
def ROT_T_STATUS : Nat := 0x8C
def ROT_T_OFFSET : Nat := 0x90
def ROT_T_KEYS : Nat := 0x94
def ROT_T_LOADED : Nat := 0xA0
def ROT_T_EPH : Nat := 0xC0
def ROT_T_BUF : Nat := 0x800
def ARB_FW_VER : Nat := 0x80
def ARB_SVN : Nat := 0x84
def ARB_HEARTBEAT : Nat := 0x88
def ARB_MCTP : Nat := 0x8C
def ARB_MBOX_CTRL : Nat := 0x90
def ARB_UPD_STAGE : Nat := 0x94
def ARB_UPD_STATUS : Nat := 0x98
def ARB_MBOX_BUF : Nat := 0x800
def PWR_CAP : Nat := 0x80
def PWR_CAP_REQ : Nat := 0x84
def PWR_CAP_STATUS : Nat := 0x88
def PWR_RESERVED : Nat := 0x8C
def PWR_POLICY : Nat := 0x90
def PWR_TARGET_EFF : Nat := 0x94
def PWR_INPUT : Nat := 0x98
def PWR_INPUT_AVG : Nat := 0x9C
def PWR_STATE : Nat := 0xA0
def PWR_TIME_LO : Nat := 0xA8
def PWR_TIME_HI : Nat := 0xAC
def PWR_SQ : Nat := 0x100
def PWR_DIE : Nat := 0x220
def PWR_RAIL : Nat := 0x260
def SCR_SEQ : Nat := 0x80
def SCR_COUNT : Nat := 0x84
def SCR_CURSOR : Nat := 0x88
def SCR_VIEW : Nat := 0x8C
def SCR_CLEAR : Nat := 0x90
def SCR_QUOTA : Nat := 0x94
def SCR_WIN : Nat := 0x100
def PWR_T_TIME_LO : Nat := 0x80
def PWR_T_TIME_HI : Nat := 0x84
def MCH_STATUS : Nat := 0x90
def MCH_LAST_LO : Nat := 0x94
def MCH_LAST_HI : Nat := 0x98
def MCH_UE_COUNT : Nat := 0x9C

end R

/-- R81. -/
def devRows : List RegRow :=
  [⟨0x80, 1, 4, [⟨31, 31, .rwo, 0⟩, ⟨15, 0, .rwo, 0⟩]⟩,
   ⟨0x84, 1, 4, [⟨31, 0, .ro, 0⟩]⟩,
   ⟨0x88, 1, 4, [⟨31, 0, .ro, 0⟩]⟩,
   ⟨0x8C, 1, 4, [⟨15, 8, .ro, 0⟩, ⟨7, 0, .ro, 0⟩]⟩,
   ⟨0x90, 1, 4, [⟨25, 19, .ro, 0⟩, ⟨18, 16, .ro, 0⟩, ⟨15, 12, .ro, 0⟩, ⟨11, 8, .ro, 0⟩, ⟨7, 0, .ro, 0⟩]⟩,
   ⟨0x94, 1, 4, [⟨31, 27, .ro, 16⟩, ⟨26, 23, .ro, 8⟩, ⟨22, 16, .ro, 64⟩, ⟨15, 8, .ro, 8⟩, ⟨7, 0, .ro, 128⟩]⟩,
   ⟨0x98, 1, 4, [⟨7, 4, .ro, 0⟩, ⟨1, 1, .ro, 0⟩, ⟨0, 0, .ro, 0⟩]⟩,
   ⟨0x9C, 1, 4, [⟨15, 8, .rwo, 0⟩, ⟨7, 0, .rwo, 0⟩]⟩,
   ⟨0xA0, 1, 4, [⟨23, 16, .ro, 0⟩, ⟨15, 8, .ro, 0⟩, ⟨6, 6, .ro, 0⟩, ⟨5, 5, .ro, 0⟩, ⟨4, 4, .ro, 0⟩, ⟨3, 3, .ro, 0⟩, ⟨2, 0, .ro, 1⟩]⟩,
   ⟨0xA4, 1, 4, [⟨7, 0, .ro, 255⟩]⟩,
   ⟨0xA8, 1, 4, [⟨31, 16, .wo, 0⟩, ⟨2, 2, .wo, 0⟩, ⟨1, 1, .wo, 0⟩, ⟨0, 0, .wo, 0⟩]⟩,
   ⟨0xAC, 1, 4, [⟨5, 5, .w1c, 0⟩, ⟨4, 4, .w1c, 0⟩, ⟨3, 3, .w1c, 0⟩, ⟨2, 2, .w1c, 0⟩, ⟨1, 1, .w1c, 0⟩, ⟨0, 0, .w1c, 1⟩]⟩,
   ⟨0xC0, 1, 4, [⟨31, 0, .ro, 0⟩]⟩,
   ⟨0xC4, 1, 4, [⟨31, 0, .ro, 0⟩]⟩,
   ⟨0xC8, 1, 4, [⟨25, 16, .ro, 0⟩, ⟨7, 0, .ro, 0⟩]⟩,
   ⟨0xCC, 1, 4, [⟨31, 0, .ro, 0⟩]⟩,
   ⟨0xD0, 1, 4, [⟨31, 0, .ro, 0⟩]⟩,
   ⟨0xD4, 1, 4, [⟨0, 0, .rw, 0⟩]⟩]

/-- R527. -/
def arbRows : List RegRow :=
  [⟨0x80, 1, 4, [⟨31, 16, .ro, 0⟩, ⟨15, 0, .ro, 0⟩]⟩,
   ⟨0x84, 1, 4, [⟨6, 0, .ro, 0⟩]⟩,
   ⟨0x88, 1, 4, [⟨31, 0, .ro, 0⟩]⟩,
   ⟨0x8C, 1, 4, [⟨31, 24, .ro, 0⟩, ⟨16, 10, .rw, 98⟩, ⟨7, 0, .ro, 0⟩]⟩,
   ⟨0x90, 1, 4, [⟨31, 31, .wo, 0⟩, ⟨30, 30, .ro, 0⟩, ⟨11, 0, .rw, 0⟩]⟩,
   ⟨0x94, 1, 4, [⟨31, 31, .rw, 0⟩, ⟨8, 0, .rw, 0⟩]⟩,
   ⟨0x98, 1, 4, [⟨31, 28, .ro, 0⟩, ⟨27, 8, .ro, 0⟩, ⟨7, 0, .ro, 0⟩]⟩,
   ⟨0x800, 512, 4, [⟨31, 0, .rw, 0⟩]⟩]

/-- R498. -/
def rotRows : List RegRow :=
  [⟨0x80, 1, 4, [⟨15, 8, .ro, 0⟩, ⟨4, 4, .ro, 0⟩, ⟨3, 3, .ro, 0⟩, ⟨2, 0, .ro, 0⟩]⟩,
   ⟨0x84, 1, 4, [⟨6, 0, .ro, 0⟩]⟩,
   ⟨0x88, 1, 4, [⟨31, 0, .ro, 0⟩]⟩,
   ⟨0x8C, 1, 4, [⟨11, 8, .wo, 0⟩, ⟨7, 0, .wo, 0⟩]⟩,
   ⟨0x90, 8, 4, [⟨31, 0, .rw, 0⟩]⟩,
   ⟨0xB0, 1, 4, [⟨31, 31, .ro, 0⟩, ⟨7, 0, .ro, 0⟩]⟩,
   ⟨0xC0, 1, 4, [⟨3, 0, .rw, 0⟩]⟩,
   ⟨0xC4, 16, 4, [⟨31, 0, .ro, 0⟩]⟩,
   ⟨0x104, 1, 4, [⟨0, 0, .rwo, 1⟩]⟩,
   ⟨0x200, 64, 4, [⟨31, 0, .ro, 0⟩]⟩,
   ⟨0x800, 512, 4, [⟨31, 0, .rw, 0⟩]⟩]

/-- R499. -/
def rotTRows : List RegRow :=
  [⟨0x80, 1, 4, [⟨6, 4, .ro, 0⟩, ⟨3, 0, .ro, 0⟩]⟩,
   ⟨0x84, 1, 4, [⟨31, 0, .ro, 0⟩]⟩,
   ⟨0x88, 1, 4, [⟨15, 8, .wo, 0⟩, ⟨7, 0, .wo, 0⟩]⟩,
   ⟨0x8C, 1, 4, [⟨31, 31, .ro, 0⟩, ⟨30, 8, .ro, 0⟩, ⟨7, 0, .ro, 0⟩]⟩,
   ⟨0x90, 1, 4, [⟨31, 0, .rw, 0⟩]⟩,
   ⟨0x94, 1, 4, [⟨16, 8, .ro, 0⟩, ⟨7, 0, .ro, 0⟩]⟩,
   ⟨0xA0, 8, 4, [⟨31, 0, .ro, 0⟩]⟩,
   ⟨0xC0, 8, 4, [⟨31, 0, .ro, 0⟩]⟩,
   ⟨0x800, 512, 4, [⟨31, 0, .rw, 0⟩]⟩]

/-- R528. -/
def pwrRows : List RegRow :=
  [⟨0x80, 1, 4, [⟨11, 0, .ro, 0⟩]⟩,
   ⟨0x84, 1, 4, [⟨11, 0, .wo, 0⟩]⟩,
   ⟨0x88, 1, 4, [⟨31, 31, .ro, 0⟩, ⟨1, 0, .ro, 0⟩]⟩,
   ⟨0x8C, 1, 4, [⟨19, 0, .ro, 0⟩]⟩,
   ⟨0x90, 1, 4, [⟨11, 0, .rw, 2000⟩]⟩,
   ⟨0x94, 1, 4, [⟨11, 0, .ro, 2000⟩]⟩,
   ⟨0x98, 1, 4, [⟨31, 16, .ro, 0⟩, ⟨15, 0, .ro, 0⟩]⟩,
   ⟨0x9C, 1, 4, [⟨19, 0, .ro, 0⟩]⟩,
   ⟨0xA0, 1, 4, [⟨8, 8, .ro, 0⟩, ⟨7, 0, .ro, 0⟩]⟩,
   ⟨0xA8, 1, 4, [⟨31, 0, .ro, 0⟩]⟩,
   ⟨0xAC, 1, 4, [⟨31, 0, .ro, 0⟩]⟩,
   ⟨0x100, 72, 4, [⟨31, 20, .ro, 0⟩, ⟨19, 10, .ro, 0⟩, ⟨9, 2, .ro, 0⟩]⟩,
   ⟨0x220, 16, 4, [⟨8, 8, .ro, 0⟩, ⟨7, 0, .ro, 0⟩]⟩,
   ⟨0x260, 16, 4, [⟨15, 0, .ro, 0⟩]⟩]

/-- R528. -/
def pwrTRows : List RegRow :=
  [⟨0x80, 1, 4, [⟨31, 0, .ro, 0⟩]⟩,
   ⟨0x84, 1, 4, [⟨31, 0, .ro, 0⟩]⟩]

/-- R529. -/
def scrRows : List RegRow :=
  [⟨0x80, 1, 4, [⟨31, 0, .ro, 0⟩]⟩,
   ⟨0x84, 1, 4, [⟨12, 0, .ro, 0⟩]⟩,
   ⟨0x88, 1, 4, [⟨12, 0, .rw, 0⟩]⟩,
   ⟨0x8C, 1, 4, [⟨3, 0, .rwo, 0⟩]⟩,
   ⟨0x90, 1, 4, [⟨15, 0, .rwo, 0⟩]⟩,
   ⟨0x94, 1, 4, [⟨28, 16, .ro, 0⟩, ⟨12, 0, .ro, 0⟩]⟩,
   ⟨0x100, 64, 4, [⟨31, 0, .ro, 0⟩]⟩]

/-- R145. -/
def sqRows : List RegRow :=
  [⟨0x80, 1, 4, [⟨15, 15, .ro, 0⟩, ⟨6, 0, .ro, 0⟩]⟩,
   ⟨0x84, 1, 4, [⟨31, 16, .ro, 0⟩, ⟨15, 8, .ro, 0⟩]⟩,
   ⟨0x88, 1, 4, [⟨9, 0, .ro, 0⟩]⟩,
   ⟨0x8C, 1, 4, [⟨31, 0, .ro, 0⟩]⟩,
   ⟨0x90, 1, 4, [⟨31, 0, .ro, 0⟩]⟩,
   ⟨0x94, 1, 4, [⟨9, 0, .ro, 1023⟩]⟩]

/-- R186. -/
def mxeRows : List RegRow :=
  [⟨0x80, 1, 4, [⟨16, 16, .ro, 0⟩, ⟨15, 8, .ro, 0⟩, ⟨7, 0, .ro, 0⟩]⟩,
   ⟨0x84, 1, 4, [⟨17, 16, .ro, 0⟩, ⟨15, 0, .ro, 0⟩]⟩,
   ⟨0x88, 1, 4, [⟨15, 0, .ro, 0⟩]⟩,
   ⟨0x8C, 1, 4, [⟨15, 0, .rw, 4096⟩]⟩,
   ⟨0x90, 1, 4, [⟨31, 0, .ro, 0⟩]⟩,
   ⟨0x94, 1, 4, [⟨31, 0, .ro, 0⟩]⟩,
   ⟨0x98, 1, 4, [⟨31, 0, .ro, 0⟩]⟩,
   ⟨0x9C, 1, 4, [⟨31, 0, .ro, 0⟩]⟩,
   ⟨0xA0, 1, 4, [⟨31, 24, .ro, 0⟩, ⟨23, 20, .ro, 0⟩, ⟨15, 8, .ro, 0⟩, ⟨7, 0, .ro, 0⟩]⟩,
   ⟨0xA4, 1, 4, [⟨4, 0, .rwo, 10⟩]⟩,
   ⟨0xA8, 1, 4, [⟨31, 0, .ro, 0⟩]⟩]

/-- R222. -/
def vxeRows : List RegRow :=
  [⟨0x80, 1, 4, [⟨20, 16, .ro, 0⟩, ⟨4, 0, .ro, 0⟩]⟩,
   ⟨0x84, 1, 4, [⟨9, 0, .ro, 0⟩]⟩,
   ⟨0x88, 3, 4, [⟨31, 31, .ro, 0⟩, ⟨26, 0, .ro, 0⟩]⟩,
   ⟨0x94, 1, 4, [⟨3, 0, .ro, 0⟩]⟩,
   ⟨0x98, 1, 4, [⟨15, 0, .rw, 4096⟩]⟩,
   ⟨0x9C, 1, 4, [⟨31, 0, .ro, 0⟩]⟩,
   ⟨0xA0, 1, 4, [⟨31, 0, .ro, 0⟩]⟩,
   ⟨0xA4, 1, 4, [⟨31, 0, .ro, 0⟩]⟩,
   ⟨0xA8, 1, 4, [⟨31, 24, .ro, 0⟩, ⟨19, 16, .ro, 0⟩, ⟨9, 0, .ro, 0⟩]⟩,
   ⟨0xAC, 1, 4, [⟨26, 0, .ro, 0⟩]⟩,
   ⟨0xB0, 1, 4, [⟨31, 0, .ro, 0⟩]⟩]

/-- R247. -/
def sftRows : List RegRow :=
  [⟨0x80, 1, 4, [⟨0, 0, .ro, 0⟩]⟩,
   ⟨0x84, 1, 4, [⟨31, 0, .ro, 16383⟩]⟩,
   ⟨0x88, 1, 4, [⟨31, 0, .ro, 16383⟩]⟩,
   ⟨0x8C, 1, 4, [⟨15, 8, .ro, 0⟩, ⟨7, 0, .ro, 0⟩]⟩,
   ⟨0x90, 1, 4, [⟨8, 8, .ro, 0⟩, ⟨6, 0, .ro, 0⟩]⟩,
   ⟨0x94, 1, 4, [⟨31, 0, .ro, 0⟩]⟩,
   ⟨0x98, 1, 4, [⟨31, 0, .ro, 0⟩]⟩,
   ⟨0x9C, 1, 4, [⟨31, 24, .ro, 0⟩, ⟨20, 16, .ro, 0⟩, ⟨15, 8, .ro, 0⟩, ⟨0, 0, .ro, 0⟩]⟩,
   ⟨0xA0, 1, 4, [⟨16, 16, .ro, 0⟩, ⟨15, 15, .ro, 0⟩, ⟨14, 10, .ro, 0⟩, ⟨8, 0, .ro, 0⟩]⟩,
   ⟨0xA4, 1, 4, [⟨31, 0, .ro, 0⟩]⟩,
   ⟨0xA8, 1, 4, [⟨15, 0, .ro, 0⟩]⟩]

/-- R318. -/
def movRows : List RegRow :=
  [⟨0x80, 4, 4, [⟨31, 31, .ro, 0⟩, ⟨14, 8, .ro, 0⟩, ⟨7, 0, .ro, 0⟩]⟩,
   ⟨0x90, 1, 4, [⟨15, 0, .rw, 4096⟩]⟩,
   ⟨0x94, 1, 4, [⟨31, 0, .ro, 0⟩]⟩,
   ⟨0x98, 1, 4, [⟨31, 0, .ro, 0⟩]⟩,
   ⟨0x9C, 1, 4, [⟨31, 0, .ro, 0⟩]⟩,
   ⟨0xA0, 1, 4, [⟨31, 0, .ro, 0⟩]⟩,
   ⟨0xA4, 1, 4, [⟨31, 0, .ro, 0⟩]⟩,
   ⟨0xA8, 1, 4, [⟨31, 0, .ro, 0⟩]⟩,
   ⟨0xAC, 1, 4, [⟨31, 24, .ro, 0⟩, ⟨23, 22, .ro, 0⟩, ⟨15, 8, .ro, 0⟩, ⟨2, 0, .ro, 0⟩]⟩,
   ⟨0xB0, 1, 4, [⟨31, 0, .ro, 0⟩]⟩,
   ⟨0xB4, 1, 4, [⟨31, 0, .ro, 0⟩]⟩,
   ⟨0xB8, 1, 4, [⟨31, 0, .ro, 0⟩]⟩]

/-- R146. -/
def spdRows : List RegRow :=
  [⟨0x80, 8, 8, [⟨9, 0, .rw, 0⟩]⟩,
   ⟨0x84, 8, 8, [⟨31, 31, .rw, 0⟩, ⟨18, 16, .rw, 0⟩, ⟨9, 0, .rw, 0⟩]⟩,
   ⟨0xC0, 1, 4, [⟨31, 16, .ro, 0⟩, ⟨7, 7, .ro, 0⟩, ⟨5, 0, .ro, 0⟩]⟩,
   ⟨0xC4, 1, 4, [⟨0, 0, .rw, 1⟩]⟩]

/-- R147. -/
def pwnRows : List RegRow :=
  [⟨0x80, 1, 4, [⟨15, 0, .rw, 0⟩]⟩,
   ⟨0x84, 1, 4, [⟨3, 3, .ro, 0⟩, ⟨2, 1, .ro, 3⟩, ⟨0, 0, .ro, 1⟩]⟩,
   ⟨0x88, 1, 4, [⟨31, 0, .ro, 0⟩]⟩,
   ⟨0x8C, 1, 4, [⟨31, 0, .ro, 0⟩]⟩,
   ⟨0x90, 1, 4, [⟨31, 0, .ro, 0⟩]⟩,
   ⟨0x94, 1, 4, [⟨31, 0, .wo, 0⟩]⟩,
   ⟨0x98, 1, 4, [⟨31, 0, .rw, 0⟩]⟩]

/-- R148. -/
def meshRows : List RegRow :=
  [⟨0x80, 1, 4, [⟨15, 0, .ro, 0⟩]⟩,
   ⟨0x84, 1, 4, [⟨7, 4, .ro, 0⟩, ⟨3, 0, .ro, 0⟩]⟩,
   ⟨0x88, 1, 4, [⟨31, 0, .ro, 0⟩]⟩,
   ⟨0x8C, 1, 4, [⟨31, 0, .ro, 0⟩]⟩,
   ⟨0x90, 1, 4, [⟨31, 0, .ro, 0⟩]⟩,
   ⟨0x94, 1, 4, [⟨31, 0, .ro, 0⟩]⟩]

/-- R344. -/
def memRows : List RegRow :=
  [⟨0x80, 1, 4, [⟨31, 24, .ro, 8⟩, ⟨23, 16, .ro, 128⟩, ⟨15, 8, .ro, 64⟩, ⟨7, 0, .ro, 0⟩]⟩,
   ⟨0x84, 1, 4, [⟨31, 16, .ro, 180⟩, ⟨7, 0, .ro, 64⟩]⟩,
   ⟨0x88, 8, 4, [⟨31, 0, .ro, 0⟩]⟩,
   ⟨0xA8, 1, 4, [⟨31, 24, .ro, 0⟩, ⟨15, 8, .ro, 78⟩, ⟨7, 0, .ro, 0⟩]⟩,
   ⟨0xAC, 1, 4, [⟨16, 16, .rw, 1⟩, ⟨15, 0, .rw, 16⟩]⟩,
   ⟨0xB0, 1, 4, [⟨15, 0, .ro, 0⟩]⟩,
   ⟨0xB4, 1, 4, [⟨31, 31, .ro, 0⟩, ⟨8, 0, .ro, 0⟩]⟩,
   ⟨0xC0, 8, 8, [⟨31, 30, .ro, 0⟩, ⟨14, 8, .ro, 0⟩, ⟨7, 0, .ro, 0⟩]⟩,
   ⟨0xC4, 8, 8, [⟨22, 0, .ro, 0⟩]⟩,
   ⟨0x100, 1, 4, [⟨31, 0, .ro, 0⟩]⟩,
   ⟨0x104, 1, 4, [⟨31, 0, .ro, 0⟩]⟩,
   ⟨0x108, 1, 4, [⟨31, 0, .ro, 0⟩]⟩,
   ⟨0x10C, 1, 4, [⟨31, 0, .ro, 0⟩]⟩]

/-- R346. -/
def mchRows : List RegRow :=
  [⟨0x90, 8, 32, [⟨14, 8, .ro, 0⟩, ⟨2, 0, .ro, 0⟩]⟩,
   ⟨0x94, 8, 32, [⟨31, 0, .ro, 0⟩]⟩,
   ⟨0x98, 8, 32, [⟨31, 31, .ro, 0⟩, ⟨17, 16, .ro, 0⟩, ⟨15, 0, .ro, 0⟩]⟩,
   ⟨0x9C, 8, 32, [⟨31, 0, .ro, 0⟩]⟩]

/-- R372. -/
def updRows : List RegRow :=
  [⟨0x80, 1, 4, [⟨11, 11, .ro, 0⟩, ⟨10, 9, .ro, 0⟩, ⟨8, 8, .ro, 0⟩, ⟨7, 0, .ro, 0⟩]⟩,
   ⟨0x84, 1, 4, [⟨31, 0, .ro, 0⟩]⟩,
   ⟨0x88, 1, 4, [⟨31, 0, .ro, 0⟩]⟩,
   ⟨0x8C, 1, 4, [⟨31, 0, .ro, 0⟩]⟩,
   ⟨0x90, 1, 4, [⟨31, 0, .ro, 0⟩]⟩,
   ⟨0x94, 1, 4, [⟨27, 4, .ro, 0⟩, ⟨3, 0, .ro, 0⟩]⟩,
   ⟨0x98, 1, 4, [⟨31, 24, .ro, 0⟩, ⟨23, 0, .ro, 0⟩]⟩,
   ⟨0x9C, 1, 4, [⟨31, 0, .ro, 0⟩]⟩,
   ⟨0xA0, 8, 4, [⟨31, 0, .ro, 0⟩]⟩,
   ⟨0xC0, 1, 4, [⟨7, 0, .wo, 0⟩]⟩]

/-- R441. -/
def lnkRows : List RegRow :=
  [⟨0x80, 1, 4, [⟨15, 12, .ro, 0⟩, ⟨11, 8, .ro, 0⟩, ⟨7, 7, .ro, 0⟩, ⟨6, 6, .ro, 0⟩, ⟨5, 3, .ro, 0⟩, ⟨2, 0, .ro, 0⟩]⟩,
   ⟨0x84, 1, 4, [⟨31, 16, .ro, 0⟩, ⟨5, 0, .ro, 0⟩]⟩,
   ⟨0x88, 8, 4, [⟨31, 0, .ro, 0⟩]⟩,
   ⟨0xA8, 1, 4, [⟨31, 0, .ro, 0⟩]⟩,
   ⟨0xAC, 1, 4, [⟨31, 0, .ro, 0⟩]⟩,
   ⟨0xB0, 1, 4, [⟨31, 0, .ro, 0⟩]⟩,
   ⟨0xB4, 1, 4, [⟨31, 0, .ro, 0⟩]⟩,
   ⟨0xB8, 1, 4, [⟨31, 0, .ro, 0⟩]⟩,
   ⟨0xBC, 1, 4, [⟨31, 0, .ro, 0⟩]⟩,
   ⟨0xC0, 1, 4, [⟨1, 1, .ro, 0⟩, ⟨0, 0, .ro, 0⟩]⟩,
   ⟨0xC4, 1, 4, [⟨31, 0, .ro, 0⟩]⟩,
   ⟨0xC8, 1, 4, [⟨31, 0, .ro, 0⟩]⟩,
   ⟨0x100, 4, 4, [⟨31, 16, .ro, 0⟩, ⟨15, 8, .ro, 0⟩, ⟨1, 0, .ro, 0⟩]⟩]

/-- R443. -/
def rteRows : List RegRow :=
  [⟨0x80, 1, 4, [⟨16, 16, .rwo, 0⟩, ⟨15, 0, .rwo, 0⟩]⟩,
   ⟨0x84, 1, 4, [⟨23, 0, .rwo, 1000⟩]⟩,
   ⟨0x88, 1, 4, [⟨15, 0, .rwo, 20⟩]⟩,
   ⟨0x8C, 4, 4, [⟨5, 0, .rwo, 0⟩, ⟨13, 8, .rwo, 0⟩, ⟨21, 16, .rwo, 0⟩, ⟨29, 24, .rwo, 0⟩]⟩,
   ⟨0x9C, 1, 4, [⟨31, 0, .ro, 0⟩]⟩,
   ⟨0xA0, 1, 4, [⟨31, 0, .ro, 0⟩]⟩,
   ⟨0xA4, 1, 4, [⟨31, 24, .ro, 0⟩, ⟨15, 0, .ro, 0⟩]⟩,
   ⟨0x200, 128, 4, [⟨31, 0, .rwo, 0⟩]⟩,
   ⟨0x400, 512, 4, [⟨31, 0, .rwo, 0⟩]⟩,
   ⟨0xC00, 256, 4, [⟨31, 0, .rwo, 0⟩]⟩]

/-- R402. -/
def stxRows : List RegRow :=
  [⟨0x80, 1, 4, [⟨31, 0, .ro, 0⟩]⟩,
   ⟨0x84, 1, 4, [⟨31, 0, .ro, 0⟩]⟩,
   ⟨0x88, 1, 4, [⟨31, 0, .ro, 0⟩]⟩,
   ⟨0x8C, 1, 4, [⟨19, 16, .ro, 0⟩, ⟨15, 0, .ro, 0⟩]⟩,
   ⟨0x90, 1, 4, [⟨31, 0, .ro, 0⟩]⟩]

/-- R470. -/
def colRows : List RegRow :=
  [⟨0x80, 1, 4, [⟨9, 0, .rw, 0⟩]⟩,
   ⟨0x84, 1, 4, [⟨29, 16, .rw, 0⟩, ⟨14, 0, .rw, 0⟩]⟩,
   ⟨0x88, 1, 4, [⟨3, 3, .rw, 0⟩, ⟨2, 0, .rw, 0⟩]⟩,
   ⟨0x8C, 1, 4, [⟨31, 0, .rw, 0⟩]⟩,
   ⟨0x90, 1, 4, [⟨15, 0, .rw, 0⟩]⟩,
   ⟨0x94, 1, 4, [⟨21, 0, .ro, 0⟩]⟩,
   ⟨0x98, 1, 4, []⟩,
   ⟨0x9C, 1, 4, [⟨0, 0, .wo, 0⟩]⟩,
   ⟨0xA0, 1, 4, [⟨25, 16, .ro, 0⟩, ⟨9, 0, .ro, 0⟩]⟩,
   ⟨0xA4, 1, 4, [⟨4, 0, .ro, 0⟩]⟩,
   ⟨0xA8, 1, 4, [⟨31, 0, .ro, 0⟩]⟩,
   ⟨0xAC, 1, 4, [⟨31, 0, .ro, 0⟩]⟩,
   ⟨0xB0, 1, 4, [⟨31, 0, .ro, 0⟩]⟩,
   ⟨0xB4, 1, 4, [⟨31, 24, .ro, 0⟩, ⟨23, 10, .ro, 0⟩, ⟨9, 0, .ro, 0⟩]⟩,
   ⟨0xB8, 1, 4, [⟨31, 0, .ro, 0⟩]⟩,
   ⟨0xBC, 1, 4, [⟨31, 0, .ro, 0⟩]⟩,
   ⟨0xC0, 1, 4, [⟨23, 0, .rw, 1000000⟩]⟩]

/-- R445. -/
def hbrRows : List RegRow :=
  [⟨0x80, 1, 4, [⟨3, 3, .rwo, 0⟩, ⟨2, 2, .ro, 0⟩, ⟨1, 1, .ro, 0⟩, ⟨0, 0, .ro, 0⟩]⟩,
   ⟨0x84, 1, 4, [⟨9, 9, .ro, 0⟩, ⟨8, 4, .ro, 0⟩, ⟨3, 0, .ro, 0⟩]⟩,
   ⟨0x88, 1, 4, [⟨3, 0, .ro, 0⟩]⟩,
   ⟨0x8C, 1, 4, [⟨31, 16, .ro, 0⟩, ⟨15, 0, .ro, 0⟩]⟩,
   ⟨0x90, 1, 4, [⟨15, 0, .rw, 0⟩]⟩,
   ⟨0x94, 16, 4, [⟨31, 16, .rw, 0⟩, ⟨15, 0, .rw, 0⟩]⟩,
   ⟨0xD4, 1, 4, [⟨31, 0, .ro, 0⟩]⟩,
   ⟨0xD8, 1, 4, [⟨31, 0, .ro, 0⟩]⟩,
   ⟨0xDC, 1, 4, [⟨31, 0, .ro, 0⟩]⟩]

/-- R400. -/
def schRows : List RegRow :=
  [⟨0x80, 1, 4, [⟨15, 0, .rw, 0⟩]⟩,
   ⟨0x84, 1, 4, [⟨1, 0, .wo, 0⟩]⟩,
   ⟨0x88, 16, 4, [⟨31, 0, .rw, 0⟩]⟩,
   ⟨0xC8, 1, 4, [⟨11, 0, .rw, 0⟩]⟩,
   ⟨0xCC, 1, 4, [⟨30, 24, .rw, 0⟩, ⟨22, 16, .rw, 0⟩, ⟨14, 8, .rw, 0⟩, ⟨6, 0, .rw, 0⟩]⟩,
   ⟨0xD0, 1, 4, [⟨21, 16, .rw, 0⟩, ⟨14, 8, .rw, 0⟩, ⟨6, 0, .rw, 0⟩]⟩,
   ⟨0xD4, 2, 4, [⟨31, 0, .rw, 0⟩]⟩,
   ⟨0xDC, 1, 4, [⟨23, 0, .rw, 0⟩]⟩,
   ⟨0xE0, 1, 4, [⟨17, 0, .rw, 0⟩]⟩,
   ⟨0xE4, 1, 4, [⟨31, 0, .rw, 0⟩]⟩,
   ⟨0xE8, 1, 4, []⟩,
   ⟨0xEC, 1, 4, [⟨0, 0, .wo, 0⟩]⟩,
   ⟨0xF0, 1, 4, [⟨13, 0, .rw, 0⟩]⟩,
   ⟨0xF4, 1, 4, [⟨31, 0, .rw, 0⟩]⟩,
   ⟨0xF8, 1, 4, [⟨31, 0, .wo, 0⟩]⟩,
   ⟨0xFC, 1, 4, [⟨31, 16, .wo, 0⟩, ⟨15, 0, .wo, 0⟩]⟩,
   ⟨0x100, 1, 4, [⟨31, 16, .ro, 0⟩, ⟨15, 0, .ro, 0⟩]⟩,
   ⟨0x104, 1, 4, [⟨27, 16, .ro, 0⟩, ⟨11, 0, .ro, 0⟩]⟩,
   ⟨0x108, 1, 4, [⟨29, 16, .ro, 0⟩, ⟨13, 0, .ro, 0⟩]⟩,
   ⟨0x10C, 1, 4, [⟨25, 16, .ro, 0⟩, ⟨9, 0, .ro, 0⟩]⟩,
   ⟨0x110, 1, 4, [⟨13, 8, .ro, 0⟩, ⟨5, 0, .ro, 0⟩]⟩,
   ⟨0x114, 1, 4, [⟨17, 0, .ro, 0⟩]⟩,
   ⟨0x118, 1, 4, [⟨17, 0, .ro, 0⟩]⟩,
   ⟨0x11C, 1, 4, [⟨15, 0, .ro, 0⟩]⟩,
   ⟨0x120, 1, 4, [⟨31, 0, .ro, 0⟩]⟩,
   ⟨0x124, 1, 4, [⟨31, 0, .ro, 0⟩]⟩]
  ++ [⟨0x128, 1, 4, [⟨31, 24, .ro, 0⟩, ⟨15, 0, .ro, 0⟩]⟩]

/-- The table of a block. -/
def blockRows : Block → List RegRow
  | .dev => devRows
  | .arb => arbRows
  | .rot => rotRows
  | .rotT => rotTRows
  | .pwr => pwrRows
  | .pwrT => pwrTRows
  | .scr => scrRows
  | .sq => sqRows
  | .mxe => mxeRows
  | .vxe => vxeRows
  | .sft => sftRows
  | .mov => movRows
  | .spd => spdRows
  | .pwn => pwnRows
  | .mesh => meshRows
  | .mem => memRows
  | .mch => mchRows
  | .upd => updRows
  | .lnk => lnkRows
  | .rte => rteRows
  | .stx => stxRows
  | .col => colRows
  | .hbr => hbrRows
  | .sch => schRows
  | .none => []

/-- The fields of the register at offset `off` of a block's page (none: no such register). -/
def rowFind : List RegRow → Nat → Option (List Field)
  | [], _ => none
  | r :: t, off =>
    if r.off ≤ off ∧ off < r.off + r.count * r.stride ∧ (off - r.off) % r.stride = 0 then some r.fields
    else rowFind t off

def regFields (b : Block) (off : Nat) : Option (List Field) := rowFind (blockRows b) off

/-- The reset word of a list of fields. -/
def fieldsReset (fs : List Field) : Nat := fs.foldl (fun acc f => acc ||| (f.rst % 2 ^ (f.hi + 1 - f.lo)) <<< f.lo) 0

/-- The bits of a register whose field has an access code accepted by `p`. -/
def fieldsMask (p : Acc → Bool) (fs : List Field) : Nat :=
  fs.foldl (fun acc f => if p f.acc then acc ||| maskOf f.hi f.lo else acc) 0

/-- The reset value of a block register; 0 where the table has none. -/
def regReset (b : Block) (off : Nat) : Word :=
  match regFields b off with
  | some fs => word (fieldsReset fs)
  | none => 0

end Sys2Proof.Machine
end

