-- ==== Sys2Proof/Machine/State.lean ====
section
/-!
DEFINITION. The state of the Kelelo block: everything the spec gives the machine, as plain data, and its reset value.
-/

namespace Sys2Proof.Machine

/-! ### The device -/

/-- The four variants (R3). -/
inductive Variant where
  | kl8s4i | kl8s2i | kl6s4i | kl4s4i
deriving DecidableEq, Repr

/-- `DEV_STATUS.DEVICE_STATE` (R81). -/
inductive DevState where
  | safe | starting | ready | resetting
deriving DecidableEq, Repr

/-- Fused values, straps, pins and the device's own status (R81, R84, R565, R570). `vbus` is in 10 mV; `warm` tells that the
start-up under way resumed after a WARM reset (R574), `pll` counts the ns that the PLL still holds local time at 0 (R109), and `arbHeld`
tells that the RoT holds the Arbiter in reset (R526). -/
structure Sys where
  variant : Variant
  serial : DWord
  stepping : Byte
  fieldLock : Bool
  pciVendor : BitVec 16
  pciDevice : BitVec 16
  strapFeed : BitVec 4
  strapBridge : Bool
  strapStandby : Bool
  feedId : BitVec 4
  bridgeEn : Bool
  bridgeStandby : Bool
  devState : DevState
  safeCause : Byte
  bootStep : Nat
  warm : Bool
  debugOpened : Bool
  therm : Bool
  fault : Bool
  vbus : Nat
  powered : Bool
  rstN : Bool
  perstN : Bool
  refclk : Bool
  auxOn : Bool
  auxRetry : Bool
  localSense : Bool
  pll : Nat
  arbHeld : Bool
  time : DWord
deriving DecidableEq, Repr

/-! ### Register pages -/

/-- `STATE.STATE` (R69). -/
inductive PState where
  | off | starting | running | draining | faulted | testing | retired
deriving DecidableEq, Repr

/-- A page's header state (R65): STATE, ENABLE, DRAIN, ENABLE_PENDING, ZEROING, LOCK and the block-specific CTRL bits. -/
structure Page where
  st : PState
  enable : Bool
  drain : Bool
  pendingEn : Bool
  zeroing : Bool
  lock : Bool
  ctl : Word
deriving DecidableEq, Repr

/-- One fault-counting set (R75): eight buckets, newest first. `edge` is the local time, in ns, of the last bucket edge that
the buckets have seen (R76). -/
structure ErrSet where
  buckets : List Nat
  edge : Nat
  total : Nat
  length : Nat
  limit : Nat
  lasting : Bool
deriving DecidableEq, Repr

/-- A requester's latch or held low word: the pair's low offset and the word (R78, R79). -/
structure Latch where
  pair : Nat
  value : Word
deriving DecidableEq, Repr

/-- A remote scoresheet cursor (R80): its holder and its value; the list is kept most recently used first. -/
structure RemoteCursor where
  dev : BitVec 16
  part : Fin 16
  index : Nat
deriving DecidableEq, Repr

/-- The register space (R57 to R88). `regs` is keyed by bank × 2^24 + DRS offset, `pages` by page number (offset / 4,096),
`errs` by the offset of the set, `latches`, `holds` and `cursors` by requester number. -/
structure Drs where
  regs : FMap Word
  pages : FMap Page
  errs : FMap ErrSet
  latches : FMap (Option Latch)
  holds : FMap (Option Latch)
  cursors : FMap Nat
  remoteCursors : List RemoteCursor
deriving DecidableEq, Repr

/-! ### The scoresheet -/

/-- A buffered event (R513 to R515). -/
structure Event where
  kind : Nat
  part : Fin 16
  subject : Nat
  value : Nat
  stamp : Nat
deriving DecidableEq, Repr

/-- An entry (R512); `bins` holds 64 counts. -/
structure Entry where
  kind : Nat
  part : Fin 16
  log2 : Bool
  subject : Nat
  width : Nat
  count : Nat
  min : Nat
  max : Nat
  minStamp : Nat
  maxStamp : Nat
  firstStamp : Nat
  lastStamp : Nat
  bins : List Nat
deriving DecidableEq, Repr

/-- The scoresheet (R511 to R519): entries in order of creation, buffered events oldest first, the sequence number of
each partition, and the clears waiting for the next commit with the time each was written. -/
structure Score where
  entries : List Entry
  buffer : List Event
  seq : FMap Nat
  clears : List (Fin 16 × Nat)
deriving DecidableEq, Repr

/-! ### Squares, scratchpad and pawns -/

/-- A memory cell: a known byte, or a byte without a stated value, which reads as `Config.freeByte occasion address`. -/
inductive Cell where
  | known (b : Byte)
  | unstated (occasion : Nat)
deriving DecidableEq, Repr

/-- A pawn's modes (R122). -/
inductive PawnMode where
  | user | machine
deriving DecidableEq, Repr

/-- One command port of a pawn (R130): the sequence number given to the last accepted SUBMIT, and `RESULT`. -/
structure Port where
  issued : Nat
  resultSeq : Nat
  resultCode : Byte
deriving DecidableEq, Repr

/-- A pawn (R122 to R131): the RISC-V registers, the machine-mode control registers, the physical-memory-protection
entries, the reservation (the number of the word reserved), and the pawn control page. `x` holds x1 to x31 and `f` holds f0 to f31. -/
structure Pawn where
  x : List DWord
  f : List Word
  pc : DWord
  mode : PawnMode
  frm : BitVec 3
  mstatus : DWord
  mie : DWord
  mtvec : DWord
  mscratch : DWord
  mepc : DWord
  mcause : DWord
  mtval : DWord
  mcounteren : DWord
  pmpcfg : List Byte
  pmpaddr : List DWord
  cycle : DWord
  instret : DWord
  reservation : Option Nat
  wfi : Bool
  halted : Bool
  mtimecmp : DWord
  irqPend : Byte
  irqEn : Byte
  mboxTarget : BitVec 2
  mboxRecv : Word
  ports : List Port
deriving DecidableEq, Repr

/-- The squares. `owner` and `remap` are keyed by logical square q; everything a square holds is keyed by the physical
position p that bears the name (R141): the scratchpad by p × 24 MiB + row × 32 KiB + physical bank × 512 + byte (R112,
R115), its ECC marks by the same address / 8 (1 a single-bit error, 2 uncorrectable, R118), the pawns by 4p + k, their
memories by (4p + k) × 128 KiB + offset (instruction memory first, R124), and the CMD buffers by
((4p + k) × 6 + port) × 32 + word. `pawnImage` holds, by 4p + k, 0 for
an instruction memory that unlisted reads 0 in, and 1 + i for one that holds the pawn firmware of image i (R570 step 9), whose
bytes are then keyed from (1 + i) × 2^40 on. `scrubPos` holds the place of a position's scrub: bank × 768 + row (R120). -/
structure Squares where
  owner : FMap (Fin 16)
  remap : FMap Nat
  standin : FMap Bool
  retiredPhys : FMap Bool
  promotions : List (Fin 64)
  remapGen : Nat
  spad : FMap Cell
  spadMark : FMap Nat
  pawns : FMap Pawn
  pawnMem : FMap Byte
  pawnMark : FMap Nat
  pawnImage : FMap Nat
  cmdBuf : FMap DWord
  selfGated : FMap Bool
  scrubPos : FMap Nat
deriving DecidableEq, Repr

/-! ### Contexts, time controls and admitted commands -/

/-- A context's state (R376). -/
inductive CtxState where
  | idle | active | parked | stopped | faulted
deriving DecidableEq, Repr

/-- A stream context's entry (R376). -/
structure Ctx where
  st : CtxState
  stopOnRefuse : Bool
  intOnComplete : Bool
  tc : Nat
  ringLog2 : Nat
  budget : Nat
  ringBase : Nat
  cqBase : Nat
  head : Nat
  tail : Nat
  ctally : Word
  promise : Nat
  lastCode : Byte
  seg : Nat
  segOpen : Bool
deriving DecidableEq, Repr

/-- A time control's entry (R384). -/
structure Tc where
  uMe : Nat
  uVe : Nat
  uMov : Nat
  uSft : Nat
  uUpd : Nat
  uCol : Nat
  p : Nat
  squares : DWord
  cmdLimit : Nat
  tags : Nat
  link : Word
deriving DecidableEq, Repr

/-- A replay segment (R397, R398). -/
structure Seg where
  isOpen : Bool
  closed : Bool
  overflow : Bool
  base : Nat
  cap : Nat
  count : Nat
  ctx : Nat
deriving DecidableEq, Repr

/-- A copy that the Arbiter has the movers of a partition make for an adjournment (R22, R539, R556): `len` bytes from `src` of this
device's memory to `dst` of its own, or of another device's; `fill` marks one of a standby's fill. -/
structure ArbCopy where
  part : Fin 16
  src : Nat
  dev : Option (BitVec 16)
  dst : Nat
  len : Nat
  fill : Bool
deriving DecidableEq, Repr

/-- Where a command came from: slot `slot` of a context's ring, a pawn's command port, a COMMAND packet, a recorded command of
SEG_REPLAY `parent` (R399), the update units, for a tile of the ORTHO command `parent` (R20, R153), or the Arbiter, for a copy of an
adjournment (R556). -/
inductive Origin where
  | ring (slot : Nat)
  | port (phys : Nat) (k : Fin 4) (port : Fin 6) (seq : Nat)
  | remote (src : BitVec 16) (tag : BitVec 17)
  | replay (parent : Nat)
  | unit (parent : Nat)
  | arbiter (copy : ArbCopy)
deriving DecidableEq, Repr

/-- Where an admitted command stands: waiting for its engine, running, or ended with a completion code (R383) and not yet
recorded (R382). -/
inductive Phase where
  | queued
  | running
  | ended (code : Nat)
deriving DecidableEq, Repr

/-- An admitted command. `body` holds its words 2 to LENGTH + 1 (R378), `prog` what admission read for it: a program's copy
(R190), an update's descriptors, or the headers of a mover command's owner tables (R306),
`fs` and `ff` its start and finish in the fluid schedule (R388), in units of 1 / `fluidScale` ns, `fell` whether its flag has fallen (R389),
`order` its place among all commands in the order of their starts (0 before its own), `run` the joined run of two or more that it is
a member of (R173; 0 for none). -/
structure Job where
  id : Nat
  part : Fin 16
  ctx : Nat
  origin : Origin
  target : Nat
  square : Nat
  unit : Nat
  tc : Nat
  body : List DWord
  signal : Option (Nat × Option (BitVec 16))
  promise : Nat
  beats : Nat
  fs : Nat
  ff : Nat
  phase : Phase
  fell : Bool
  prog : List DWord
  order : Nat := 0
  run : Nat := 0
deriving DecidableEq, Repr

/-- A command held before admission because its time control has no free queue entry (R388), a program store is full
(R191), for a port, the pawn's queue is full (R131), or an earlier held command has to go first. A COMMAND packet is kept whole, with
the time of its arrival, from which its budget counts (R374, R423). -/
structure Held where
  ctx : Nat
  part : Fin 16
  origin : Origin
  words : List DWord
  packet : Option Packet := none
  since : Nat := 0
deriving DecidableEq, Repr

/-- A parked context's wait and the value its tally passed, if it has (R392, R393). -/
structure Wait where
  ctx : Nat
  tally : Nat
  value : Word
  reachedAt : Option Nat
deriving DecidableEq, Repr

/-- A tally change or doorbell held while the SCH or STX page is not RUNNING (R401, R403). -/
inductive HeldOp where
  | doorbell (ctx : Nat) (tail : Nat)
  | tallySet (tally : Nat) (v : Word)
  | tallyAdd (tally : Nat) (v : Word)
  | signal (p : Packet)
deriving DecidableEq, Repr

/-- The scheduler (R374 to R403). `busy`, and `fluid`, the fluid schedule's last finish (R388), are keyed by time control ×
4,096 + engine number, `busyMem` and `busyLink` by time control; `tcData` and `selectors` stand in the register space. -/
structure Sched where
  ctxs : FMap Ctx
  tcs : FMap Tc
  busy : FMap Nat
  busyMem : FMap Nat
  busyLink : FMap Nat
  fluid : FMap Nat
  tallies : FMap Word
  segs : FMap Seg
  jobs : List Job
  nextJob : Nat
  nextOrder : Nat
  held : List Held
  waits : List Wait
  heldOps : List HeldOp
deriving DecidableEq, Repr

/-! ### Device memory -/

/-- A physical channel's state (R346). -/
inductive ChanState where
  | spareFree | serving | copySource | copyTarget | retired | failed
deriving DecidableEq, Repr

/-- A physical channel: its state and the logical channel it bears (R346). -/
structure Chan where
  st : ChanState
  logical : Nat
deriving DecidableEq, Repr

/-- `MEM_SPARE_k` (R344): 0 FREE, 1 COPYING, 2 ACTIVE, 3 FAILED. -/
structure Spare where
  phase : Nat
  logical : Nat
  source : Nat
  progress : Nat
deriving DecidableEq, Repr

/-- An access held because its stack's MEM page is not RUNNING (R108, R345). -/
structure HeldAccess where
  part : Fin 16
  addr : Nat
  size : Nat
  data : Option (List Byte)
deriving DecidableEq, Repr

/-- Device memory and its controllers (R320 to R346). `cells` is keyed by local address; an unlisted byte has no stated
value. `mark` is keyed by granule (0 sound, 1 or 2 symbols wrong, 3 uncorrectable, R332 to R335). `regionOwner` holds the
partition of each 1 GiB region, `cutOff` the regions that belong to no partition while they wait for their overwrite, with
the partition they go to (R477), in ascending order. `regionEra` numbers the contents a region has had (R343). Channels are
keyed by stack × 136 + physical channel, and so is `scrubPos`, the granule index that the patrol scrub reads next (R336);
spares are keyed by stack × 8 + spare. -/
structure Mem where
  cells : FMap Cell
  mark : FMap Nat
  regionOwner : FMap (Fin 16)
  regionEra : FMap Nat
  cutOff : List (Nat × Fin 16)
  keys : BitVec 16
  chans : FMap Chan
  spares : FMap Spare
  scrubPos : FMap Nat
  held : List HeldAccess
deriving DecidableEq, Repr

/-! ### The partition table -/

/-- A partition's state (R472). -/
inductive PartState where
  | free | configuring | active | teardown
deriving DecidableEq, Repr

/-- A contiguous range (R473). -/
structure Range where
  first : Nat
  count : Nat
deriving DecidableEq, Repr

/-- A partition table entry (R473); squares are held in `Squares.owner`, regions in `Mem.regionOwner`. Partition 0's own
ranges, quota and slots are what the tenants leave (R609). -/
structure Part where
  st : PartState
  gen : Word
  ctx : Range
  tc : Range
  tally : Range
  seg : Range
  grp : Range
  key : Range
  tags : Nat
  mesh : BitVec 16
  memSlots : DWord
  linkSlots : DWord
  peers : List (Nat × Nat)
deriving DecidableEq, Repr

/-- A weight key in its slot (R302, R491): the partition it is bound to, and the key. -/
structure WeightKey where
  part : Fin 16
  key : List Byte
deriving DecidableEq, Repr

/-- The partition table (R472 to R481), and the weight key slots. -/
structure PTable where
  parts : FMap Part
  layoutGen : Word
  keys : FMap (Option WeightKey)
deriving DecidableEq, Repr

/-! ### Links, router and bridge -/

/-- `LNK_STATUS.LSTATE` (R441). -/
inductive LState where
  | down | detect | train | align | keying | up | retrain
deriving DecidableEq, Repr

/-- A flit kept in the replay buffer until it is acknowledged (R411), with the number of times it has been resent and the
packet whose bytes it carries. -/
structure KeptFlit where
  seq : Nat
  part : Fin 16
  bytes : List Byte
  tries : Nat
  packet : Packet
deriving DecidableEq, Repr

/-- A packet held, for a newer epoch, while the RTE page is not RUNNING or for a place in a replay buffer, with the
time it arrived (R411, R430, R443). -/
structure EpochHold where
  packet : Packet
  since : Nat
deriving DecidableEq, Repr

/-- A link (R404 to R416, R441). `order` gives the logical lane borne by each physical lane; `oldKey` tells that the
receiver still holds the key of the former phase (R415); `rx` holds the bytes received of each partition's unfinished
packet; `txFlits` counts the flits sent under the present key (R413); `waived` tells that the link has spent 1 s in DETECT
without a peer (R572); `waiting` holds the packets that wait for places in the replay buffer; `badBlock` is the counter of the
last block that did not decode (R408, R412). -/
structure Link where
  st : LState
  laneOk : BitVec 4
  pol : BitVec 4
  order : List (Fin 4)
  keyed : Bool
  peerDev : BitVec 16
  peerLink : BitVec 6
  txPhase : Bool
  rxPhase : Bool
  oldKey : Bool
  txSeq : Nat
  lastAcc : Nat
  discarding : Bool
  replay : List KeptFlit
  txFlits : Nat
  rx : List (Fin 16 × List Byte)
  waived : Bool
  waiting : List EpochHold
  badBlock : Option Word
deriving DecidableEq, Repr

/-- Who waits for the answer of an outstanding transaction (R395): an admitted command, a pawn, a host access through a
bridge BAR (with its number), or the Arbiter. -/
inductive TxOwner where
  | job (id : Nat)
  | pawn (phys : Nat) (k : Fin 4)
  | bar (fn : Fin 16) (access : Nat)
  | island
deriving DecidableEq, Repr

/-- An outstanding transaction (R395, R429): its tag, its owner, what was asked, when, and the answer: the data of a read
or the empty list of an acknowledged write, or the code of a NACK. -/
structure Tx where
  tag : Nat
  part : Fin 16
  owner : TxOwner
  isWrite : Bool
  dev : BitVec 16
  addr : Nat
  len : Nat
  sentAt : Nat
  got : Option (List Byte)
  fail : Option Nat
deriving DecidableEq, Repr

/-- One MSI-X table entry (R439); masked after reset, as PCIe has it. -/
structure Msix where
  addr : DWord
  data : Word
  masked : Bool
  pend : Bool
deriving DecidableEq, Repr

/-- A host access through BAR0 or BAR2 that waits for its packets (R437). -/
structure BarAccess where
  num : Nat
  fn : Fin 16
  size : Nat
  isWrite : Bool
deriving DecidableEq, Repr

/-- The link fabric and the bridge (R404 to R446). `links` is keyed by link number, `msix` by function × 128 + vector. `intWait`
lists the partitions whose INTERRUPT awaits the bridge's acknowledgement (R440), `heldOut` the packets held while the RTE page is
not RUNNING (R443), `heldIn` the WRITE and READ packets that wait for a stack or a square (R108), `intSent` the number of INTERRUPTs
raised by each partition and `intSeen`, keyed by partition × 65,536 + device, the last such number seen by the bridge (R440),
`lanesOut` by 4n + k the lanes out of use until the next cold start (R567, R576), `intAt` the moment at which each partition's
INTERRUPT was last sent, `active` `HBR_ROLE.ACTIVE`, `takeover` a TAKEOVER that waits for the port. -/
structure Fabric where
  links : FMap Link
  txs : List Tx
  nextTag : Nat
  epochHeld : List EpochHold
  heldOut : List EpochHold
  heldIn : List Packet
  intWait : List (Fin 16)
  msix : FMap Msix
  bars : List BarAccess
  nextBar : Nat
  intSent : FMap Nat
  intSeen : FMap Nat
  intAt : FMap Nat
  active : Bool
  takeover : Bool
  pcieUp : Bool
  pcieWidth : Nat
  pcieSpeed : Nat
  numVfs : Nat
  lanesOut : FMap Bool
deriving DecidableEq, Repr

/-! ### Matrix engines -/

/-- A matrix engine's pass (R164 to R173): its shape, the commands running with their slots (the members of a joined run all
in queue order, each with its first row), the masked slots, the members of the open batching window and the moment it opened,
whether the pass has counted its one UNIT_FAULT (R169), and the tolerance exponent that a command running alone in FULL mode
started with (R187). -/
structure MxeEng where
  shape : Nat
  slots : List (Nat × Nat)
  masked : Nat
  window : List Nat
  windowAt : Nat
  counted : Bool
  tol : Nat
deriving DecidableEq, Repr

/-! ### Vector engines and segment tables -/

/-- An open hardware loop (R209): the first instruction of its body, the one past its end, its count and its present
iteration. -/
structure LoopLevel where
  first : Nat
  stop : Nat
  count : Nat
  iter : Nat
deriving DecidableEq, Repr

/-- The first trapping element of the running chain (R217): its chunk, its instruction and its position. -/
structure TrapAt where
  chunk : Nat
  pc : Nat
  elem : Nat
deriving DecidableEq, Repr

/-- A vector engine (R189 to R222): the program it runs and its next instruction, the first instruction of the chain now
running, the table bank that chain latched (R242), the open loops, innermost first, the executions so far of each
instruction (R208), the present seed, the contents of the taps, the scan state (FP32 codes, R271), the first trapping
element, and whether the chain has found an empty slot (R244). -/
structure VxeEng where
  job : Option Nat
  pc : Nat
  chain : Option Nat
  bank : Option Nat
  loops : List LoopLevel
  execs : FMap Nat
  seed : DWord
  taps : FMap (Option (List Nat))
  scan : FMap Nat
  trap : Option TrapAt
  emptyUse : Bool
deriving DecidableEq, Repr

/-- What a slot of a segment-table bank holds: the built-in table of its number, or an image as its 512 words of 64 bits
(R229). -/
inductive SftSlot where
  | builtin
  | image (ws : List DWord)
deriving DecidableEq, Repr

/-- The segment-table stores (R224 to R228), keyed by physical position p: the active bank by p, the slots by
p × 64 + bank × 32 + slot, their ECC marks by that number × 512 + word (1 a single-bit error, 2 uncorrectable), and
whether the square has left OFF since the last device reset (R227); and, by logical square, the slots that its running
SFT_LOAD has written (R246). -/
structure SftStore where
  active : FMap Nat
  slots : FMap SftSlot
  mark : FMap Nat
  leftOff : FMap Bool
  written : FMap Nat
deriving DecidableEq, Repr

/-! ### Update units -/

/-- Where a running update command stands (R355, R358): its bitmap still to be read, in a pass, between the passes at the
combination, at the writing of X₀ or at a product of an iteration. -/
inductive UpdStage where
  | bitmap | pass1 | combine | start | product | pass2
deriving DecidableEq, Repr

/-- A tile command that the units have sent and not yet read back (R360): its number in the product, its job, whether it has
completed. -/
structure UpdTile where
  num : Nat
  job : Nat
  ready : Bool
deriving DecidableEq, Repr

/-- The update units' present command (R355 to R360): the command, its stage, the blocks left in the present pass, the present blocks
with their Δ (R353), the fold of their sums of squares in the wide form and their element count (R356), the reciprocal square root,
the iteration, its product (0 to 2 for steps 1, 3 and 5 of R358), the next tile, the tiles sent, and what has been read back of the
present product, as FP32 codes keyed by row × columns + column. -/
structure UpdEng where
  job : Option Nat
  stage : UpdStage
  left : List Nat
  delta : List (Nat × Nat)
  sum : Val
  count : Nat
  factor : Val
  iter : Nat
  product : Nat
  next : Nat
  tiles : List UpdTile
  got : FMap Nat
deriving DecidableEq, Repr

def UpdEng.reset : UpdEng := ⟨none, .bitmap, [], [], .zero, 0, .zero, 0, 0, 0, [], emptyMap⟩

/-! ### Movers -/

/-- A mover channel (R289, R298, R299, R303, R306, R312): the command it runs, the windows or chunks that command has completed,
whether the writes of the present window are on their way, the writes that have yet to leave, the presence map of an EXCLUSIVE
SCATTER as index position × 2^23 + mapped index, what its buffers hold of the present window or chunk as runs of bytes by global
address, the owner-table entries the command has used as side, block, VADDR and SADDR, the key with which the present chunk began,
and whether the key with which a DECRYPT started has gone. -/
structure MovChan where
  job : Option Nat
  window : Nat
  writing : Bool
  out : List (Nat × List Byte)
  present : List Nat
  buf : List (Nat × List Byte)
  entries : List (Nat × Nat × Nat × Nat)
  key : Option (List Byte)
  keyGone : Bool
deriving DecidableEq, Repr

/-! ### Collectives -/

/-- A communication group's entry (R447), with the device and context of each rank as the member list gave them at the
commit. -/
structure Grp where
  size : Nat
  rank : Nat
  width : Nat
  valid : Bool
  listAddr : Nat
  seq : Nat
  ids : List (Nat × Nat)
deriving DecidableEq, Repr

/-- Where a collective stands (R455): its join round open, its offer round open, or accepted. -/
inductive ColPhase where
  | joining | offering | accepted
deriving DecidableEq, Repr

/-- A member's OFFER (R455, R463): its duration, none for the ∞ of a command that fails its tests, its budget, its command
body and its send counts. -/
structure Offer where
  rank : Nat
  d : Option Nat
  budget : Nat
  body : List DWord
  counts : List Word
deriving DecidableEq, Repr

/-- A piece of a node's child stream that waits for its siblings (R460). -/
structure NodePart where
  chunk : Nat
  level : Nat
  child : Nat
  offset : Nat
  bytes : List Byte
deriving DecidableEq, Repr

/-- A collective that joins or runs (R455 to R465): its command's job, its group and SEQ, the time of its own step 1, the joined
nodes (level, block), whether its JOIN has gone up, g, its own pricing, the OFFERs received, the node buffers, the packets that
arrived before they could be taken, whether its data moves, the pieces still owed, and the slot to record at its acceptance (R398;
empty for none). `lost` tells that a packet of it found no way out (R429), `bound` is this member's own G, `beats` its price. -/
structure Coll where
  job : Nat
  part : Fin 16
  grp : Nat
  seq : Nat
  startAt : Nat
  phase : ColPhase
  joined : List (Nat × Nat)
  sentUp : Bool
  complete : Bool
  g : Nat
  bound : Nat
  beats : Nat
  d : Option Nat
  busy : Option Nat
  busyMem : Option Nat
  busyLink : Option Nat
  budget : Nat
  offers : List Offer
  nodes : List NodePart
  early : List Packet
  moving : Bool
  owed : Nat
  record : List DWord
  lost : Bool
deriving DecidableEq, Repr

/-- The collective engine (R447 to R471): the groups, the collectives that join or run, and the packets kept for a
collective not yet taken or while the COL page is not RUNNING (R108, R458, R465). -/
structure ColStore where
  groups : FMap Grp
  colls : List Coll
  held : List Packet
deriving DecidableEq, Repr

/-! ### The root of trust -/

/-- An ephemeral key pair (R492): its number and the partition's generation when it was made. -/
structure Eph where
  key : Nat
  gen : Word
deriving DecidableEq, Repr

/-- A request to the RoT (R474, R494, R499), with its arguments as they stood when it was written: `bank` is none for page 0
and the bank of page 1. `part` is the partition concerned, `slot` the weight key slot. `started` tells that it is being
served and has begun what it does over time. -/
structure RotReq where
  bank : Option (Fin 16)
  op : Nat
  part : Fin 16
  slot : Nat
  args : List Word
  buf : List Byte
  started : Bool
deriving DecidableEq, Repr

/-- An SPDM responder's progress (R487): a version has been agreed, algorithms have been negotiated, and the session that is
open, with whether it has been finished. -/
structure Spdm where
  version : Bool
  negotiated : Bool
  session : Option Nat
  finished : Bool
deriving DecidableEq, Repr

/-- The root of trust (R472 to R500): the lifecycle and anti-rollback fuses, failed unlock attempts, DEBUG_OPEN, the number
of the vendor nonce outstanding, the requests in arrival order, ephemeral keys by partition × 256 + slot, each bank's result
bytes, whether the alias certificate stands, and the SPDM responder. -/
structure Rot where
  lifecycle : Nat
  rollback : Nat
  pwFails : Nat
  debugOpen : Bool
  nonce : Option Nat
  queue : List RotReq
  eph : FMap (Option Eph)
  results : FMap (List Byte)
  akeyReady : Bool
  spdm : Spdm
deriving DecidableEq, Repr

/-! ### The Arbiter -/

/-- Where a field self-test stands (R578): its copy-out, the test of the physical square, or its copy-back. -/
inductive TestPhase where
  | copyOut | testing | copyBack
deriving DecidableEq, Repr

/-- A field self-test (R577 to R582): the logical square, the tested physical position, the stand-in, its phase and when that
phase began. `solo` tells that an ENGINE reset has left the stand-in with the name for good (R582). -/
structure SelfTest where
  square : Fin 64
  phys : Nat
  standin : Nat
  phase : TestPhase
  since : Nat
  solo : Bool
deriving DecidableEq, Repr

/-- The Arbiter (R501 to R529). Keyed by physical square: the core rail it has set, in mV, the diodes that have failed, the lowest
window rate and the highest temperature of the present millisecond. `dieFailed` is keyed as `PWR_DIE`. `dutySince` tells when the
present duty-limit period began, `i3c` is the dynamic address, `spdmFrom` the transport and source of the last SPDM message.
`imageSize` and `received` belong to the firmware update under way, `stagedAt` to its region; `newImage` whether the flash holds an
image that awaits its first start. `tests` lists the squares that wait for a field self-test, `retries` those to be tried again and
when; `sparePos` gives the physical position that each of the eight spare places names; `image` numbers the firmware image that
runs. -/
structure Arb where
  railSet : FMap Nat
  diodeBad : FMap Bool
  msRate : FMap Nat
  msTemp : FMap Nat
  dieFailed : FMap Bool
  dutySince : Option Nat
  i3c : Option Nat
  spdmFrom : Nat × Byte
  imageSize : Nat
  received : Nat
  stagedAt : Nat
  newImage : Bool
  tests : List (Fin 64)
  retries : List (Fin 64 × Nat)
  test : Option SelfTest
  period : Nat
  sparePos : FMap Nat
  image : Nat
deriving DecidableEq, Repr

/-! ### Recovery -/

/-- A member of a recovery plan (R541). -/
structure Member where
  dev : BitVec 16
  feed : Nat
  loop : Nat
deriving DecidableEq, Repr

/-- A standby of a recovery plan (R541). -/
structure Standby where
  dev : BitVec 16
  patchCount : Nat
  patchAddr : Nat
deriving DecidableEq, Repr

/-- What a plan says of one adjourning partition (R541): its tallies and context, its reserve, the place and length of its range
list, and the ranges as the commit read them (none yet on a standby, whose partitions come with a takeover). -/
structure AdjPlan where
  part : Fin 16
  stepTally : Nat
  goTally : Nat
  saveCtx : Nat
  reserve : Nat
  listAt : Nat
  listCount : Nat
  ranges : List (Nat × Nat)
deriving DecidableEq, Repr

/-- A recovery plan as loaded (R541, R543), with the first 8 bytes of its digest. -/
structure Plan where
  captain : BitVec 16
  deputy : BitVec 16
  hbUs : Nat
  replaceOnShort : Bool
  windowDays : Nat
  rowSize : Nat
  takeStage : Nat
  members : List Member
  standbys : List Standby
  adjs : List AdjPlan
  digest : List Byte
deriving DecidableEq, Repr

/-- This device's role (R542). -/
inductive Role where
  | member | deputy | captain | standby | none
deriving DecidableEq, Repr

/-- GSTATE (R561). -/
inductive GState where
  | steady | filling | restoring | shrunk | halted
deriving DecidableEq, Repr

/-- The state of an adjournment (R557). -/
inductive AdjState where
  | none | saving | secured | exposed | abandoned | discarded
deriving DecidableEq, Repr

/-- A configuration block as the Arbiter reads it back (R550): the contexts, time controls, tallies and groups of a
partition, and the device's route and epoch tables. -/
structure Snapshot where
  ctxs : List (Nat × Ctx)
  tcs : List (Nat × Tc)
  tallies : List (Nat × Word)
  grps : List (Nat × Grp)
  rte : List (Nat × Word)
deriving DecidableEq, Repr

/-- A copy slot of a reserve (R551): the SEQ and step it holds, its configuration, its shard digests and seal. -/
structure CopySlot where
  seq : Nat
  step : Nat
  snap : Snapshot
  digests : List (List Byte)
  sealed : List Byte
deriving DecidableEq, Repr

/-- A partition's newest adjournment as this device knows it. The captain's part: its SEQ, step and state, the members' digests
and save times, the members confirmed, the last two secured SEQs, the interval in seconds, the moment of the last save's step 4,
the members that have restored, and the SEQ the host confirmed. The member's part: the step it is to save at, and its own two
copy slots. -/
structure Adj where
  seq : Nat
  step : Nat
  st : AdjState
  digests : List (Nat × List Byte)
  times : List (Nat × Nat)
  confirmed : List Nat
  secured : Nat
  prior : Nat
  interval : Nat
  savedAt : Nat
  goAt : Option Nat
  saveFrom : Option Nat
  own : List (Option CopySlot)
  restoredBy : List Nat
  hostHas : Nat
deriving DecidableEq, Repr

/-- A takeover under way (R539): the failed member, the device ID of the standby tried or taken, the member that fills it, and
how far it has come. -/
structure Fill where
  member : Nat
  standby : Nat
  source : Option Nat
  accepted : Bool
  filled : Bool
deriving DecidableEq, Repr

/-- Recovery (R538 to R563). `misses` counts the missed heartbeats of each device ID, `bad` lists the device IDs whose last
heartbeat carried SAFE, or SHORT where the plan replaces on it, `steps` the STEP_TALLY values that the members last reported, keyed
by member × 16 + partition; `failures` holds the times of the declarations, `waiting` the failures that wait for the fills, `used`
the device IDs of the standbys taken, `extra` those of the live devices of a removed row, `buddies` each member's buddy, `owes` the
copies this device has yet to confirm, `taken` the member whose ID this device took, `filledSent` whether it has reported FILLED,
`useOld` whether a restore goes back behind the newest adjournment, `fed` the wards whose standbys this device has filled since the
group began to fill, `copies` the copies of adjournments that the movers have yet to
be given, `mail` the MGMT packets that this device has sent to itself. `adj` is keyed by partition. -/
structure Recovery where
  planLo : Word
  planHi : Word
  plan : Option Plan
  result : Nat
  role : Role
  captain : BitVec 16
  deputy : BitVec 16
  commitAt : Nat
  live : DWord
  misses : FMap Nat
  bad : List Nat
  steps : FMap Nat
  gstate : GState
  restoring : List (Fin 16 × Nat)
  useOld : Bool
  fed : List Nat
  failures : List Nat
  waiting : List Nat
  fills : List Fill
  used : List Nat
  extra : List Nat
  taken : Option Nat
  filledSent : Bool
  buddies : List (Option Nat)
  owes : List (Fin 16 × Nat)
  adj : FMap Adj
  copies : List ArbCopy
  mail : List Packet
deriving DecidableEq, Repr

/-! ### Outside -/

/-- What leaves the device (the model's own list of outputs, assumption 5). -/
inductive Out where
  | packet (link : Nat) (p : Packet)
  | flit (link : Nat) (seq : Nat)
  | nak (link : Nat) (ackSeq : Nat)
  | msix (fn : Fin 16) (vector : Nat) (addr : DWord) (data : Word)
  | completion (fn : Fin 16) (ok : Bool) (abort : Bool) (bytes : List Byte)
  | mctp (m : MctpMsg)
  | memory (part : Fin 16) (addr : Nat) (code : Nat) (bytes : List Byte)
deriving DecidableEq, Repr

/-- The machine's state; `mxe` and `vxe` are keyed by 2q + u, `mov` by 4q + channel. -/
structure State where
  pending : List Instr
  sys : Sys
  drs : Drs
  score : Score
  squares : Squares
  sch : Sched
  mem : Mem
  pt : PTable
  fab : Fabric
  mxe : FMap MxeEng
  vxe : FMap VxeEng
  sft : SftStore
  mov : FMap MovChan
  upd : UpdEng
  col : ColStore
  rot : Rot
  arb : Arb
  rcv : Recovery
  out : List Out
  resp : Option DWord
  free : Nat
deriving DecidableEq, Repr

/-- The machine right after reset (assumption 2): start-up begins. -/
def State.reset : State :=
  { pending := []
    sys := { variant := .kl8s4i, serial := 0, stepping := 0, fieldLock := true, pciVendor := 0, pciDevice := 0, strapFeed := 0,
             strapBridge := false, strapStandby := false, feedId := 0, bridgeEn := false, bridgeStandby := false,
             devState := .starting, safeCause := 0, bootStep := 0, warm := false, debugOpened := false, therm := false, fault := false,
             vbus := 4800, powered := true, rstN := true, perstN := true, refclk := true, auxOn := true, auxRetry := false,
             localSense := false, pll := 0, arbHeld := false, time := 0 }
    drs := { regs := ⟨[(0x40 * 4096 + 0x80, 2600)]⟩, pages := emptyMap, errs := emptyMap, latches := emptyMap, holds := emptyMap,
             cursors := emptyMap, remoteCursors := [] }
    score := ⟨[], [], emptyMap, []⟩
    squares := { owner := emptyMap, remap := emptyMap, standin := emptyMap, retiredPhys := emptyMap, promotions := [],
                 remapGen := 0, spad := emptyMap, spadMark := emptyMap, pawns := emptyMap, pawnMem := emptyMap,
                 pawnMark := emptyMap, pawnImage := emptyMap, cmdBuf := emptyMap, selfGated := emptyMap, scrubPos := emptyMap }
    sch := { ctxs := emptyMap, tcs := emptyMap, busy := emptyMap, busyMem := emptyMap, busyLink := emptyMap,
             fluid := emptyMap, tallies := emptyMap, segs := emptyMap, jobs := [], nextJob := 0, nextOrder := 1
             held := [], waits := [], heldOps := [] }
    mem := { cells := emptyMap, mark := emptyMap, regionOwner := emptyMap, regionEra := emptyMap, cutOff := [], keys := 0,
             chans := emptyMap, spares := emptyMap, scrubPos := emptyMap, held := [] }
    pt := ⟨emptyMap, 0, emptyMap⟩
    fab := { links := emptyMap, txs := [], nextTag := 0, epochHeld := [], heldOut := [], heldIn := [], intWait := [], msix := emptyMap,
             bars := [], nextBar := 0, intSent := emptyMap, intSeen := emptyMap, intAt := emptyMap, active := false, takeover := false,
             pcieUp := false, pcieWidth := 0, pcieSpeed := 0, numVfs := 0, lanesOut := emptyMap }
    mxe := emptyMap
    vxe := emptyMap
    sft := ⟨emptyMap, emptyMap, emptyMap, emptyMap, emptyMap⟩
    mov := emptyMap
    upd := UpdEng.reset
    col := ⟨emptyMap, [], []⟩
    rot := { lifecycle := 2, rollback := 0, pwFails := 0, debugOpen := false, nonce := none, queue := [], eph := emptyMap,
             results := emptyMap, akeyReady := false, spdm := ⟨false, false, none, false⟩ }
    arb := { railSet := emptyMap, diodeBad := emptyMap, msRate := emptyMap, msTemp := emptyMap, dieFailed := emptyMap,
             dutySince := none, i3c := none, spdmFrom := (0, 0), imageSize := 0, received := 0, stagedAt := 0,
             newImage := false, tests := [], retries := [], test := none, period := 0, sparePos := emptyMap, image := 0 }
    rcv := { planLo := 0, planHi := 0, plan := none, result := 0, role := .none, captain := 0, deputy := 0, commitAt := 0,
             live := 0, misses := emptyMap, bad := [], steps := emptyMap, gstate := .steady, restoring := [], useOld := false,
             failures := [], waiting := [], fills := [], used := [], extra := [], taken := none, filledSent := false,
             buddies := [], owes := [], adj := emptyMap, fed := [], copies := [], mail := [] }
    out := []
    resp := none
    free := 0 }

/-- Why the machine stops: the spec promises nothing beyond this point. -/
inductive Fault where
  /-- Raised by VBUS_RISE and INPUT_OV above 80 V, where R597 promises no behaviour. Safe: the model goes no further. -/
  | aboveAbsoluteMaximum
deriving DecidableEq, Repr

/-- Why a command has no meaning. -/
inductive Refusal where
  /-- Raised by an arm of `exec` whose command has no meaning yet. Safe. -/
  | notModelled (mnemonic : String)
deriving DecidableEq, Repr

end Sys2Proof.Machine
end

