-- ==== Sys2Proof/Machine/Ops.lean ====
section
/-!
DEFINITION. The operations that every family shares: reading and writing a register, a page's header and its events (R65
to R74), interrupt status bits, recording an event on the scoresheet (R514), partitions and what they hold (R473, R609),
ending admitted commands, and counting a fault (R75 to R77) with what its declaration starts (R530 to R537).
-/

namespace Sys2Proof.Machine

open Sys2Proof

/-! ### The register space -/

/-- The block whose page has number `pn` (R59). -/
def blockAt (pn : Nat) : Block :=
  if pn = 0 then .dev
  else if pn = 0x10 then .arb
  else if pn = 0x20 then .rot
  else if pn = 0x21 then .rotT
  else if pn = 0x40 then .pwr
  else if pn = 0x41 then .pwrT
  else if pn = 0x80 then .scr
  else if 0x100 ≤ pn ∧ pn < 0x500 then
    match pn % 16 with
    | 0 => .sq
    | 1 | 2 => .mxe
    | 3 | 4 => .vxe
    | 5 => .sft
    | 6 => .mov
    | 7 => .spd
    | 8 | 9 | 10 | 11 => .pwn
    | 12 => .mesh
    | _ => .none
  else if 0x800 ≤ pn ∧ pn < 0x900 then
    if pn % 32 = 0 then .mem
    else if pn % 32 ≤ 0x11 then .mch
    else if pn % 32 = 0x18 then .upd
    else .none
  else if 0xC00 ≤ pn ∧ pn < 0xD00 then (if pn % 4 = 0 then .lnk else .none)
  else if pn = 0xD00 then .rte
  else if pn = 0xD10 then .stx
  else if pn = 0xD20 then .col
  else if pn = 0xE00 then .hbr
  else if pn = 0xF00 then .sch
  else .none

/-- Page numbers (R59). -/
def pgDev : Nat := 0
def pgArb : Nat := 0x10
def pgRot : Nat := 0x20
def pgRotT : Nat := 0x21
def pgPwr : Nat := 0x40
def pgScr : Nat := 0x80
def pgRte : Nat := 0xD00
def pgStx : Nat := 0xD10
def pgCol : Nat := 0xD20
def pgHbr : Nat := 0xE00
def pgSch : Nat := 0xF00
/-- Page `i` of square q. -/
def pgSq (q i : Nat) : Nat := 0x100 + q * 16 + i
def pgMxe (q u : Nat) : Nat := pgSq q (1 + u)
def pgVxe (q u : Nat) : Nat := pgSq q (3 + u)
def pgSft (q : Nat) : Nat := pgSq q 5
def pgMov (q : Nat) : Nat := pgSq q 6
def pgSpd (q : Nat) : Nat := pgSq q 7
def pgPwn (q k : Nat) : Nat := pgSq q (8 + k)
def pgMesh (q : Nat) : Nat := pgSq q 12
def pgMem (k : Nat) : Nat := 0x800 + k * 32
def pgMch (k i : Nat) : Nat := 0x800 + k * 32 + i
def pgUpd (k : Nat) : Nat := 0x800 + k * 32 + 0x18
def pgLnk (n : Nat) : Nat := 0xC00 + n * 4

/-- The square of a page number, if it is one of a square's thirteen pages. -/
def sqOfPage (pn : Nat) : Option Nat := if 0x100 ≤ pn ∧ pn < 0x500 ∧ pn % 16 < 13 then some ((pn - 0x100) / 16) else none

/-- Whether a page number belongs to a square's window. -/
def isSquarePage (pn : Nat) : Bool := decide (0x100 ≤ pn) && decide (pn < 0x500)

/-- Header offsets (R65). -/
def hPageId : Nat := 0
def hOwner : Nat := 0xC
def hCtrl : Nat := 0x10
def hState : Nat := 0x14
def hIntStatus : Nat := 0x18
def hIntEnable : Nat := 0x1C
def hIntForce : Nat := 0x20
def hErr : Nat := 0x24

/-- What an unlisted register reads as: its reset value in the tables. The key is bank × 2^24 + DRS offset. -/
def regDefault (k : Nat) : Word :=
  let off := k % 2 ^ 24
  regReset (blockAt (off / 4096)) (off % 4096)

/-- A register's stored word in bank 0. -/
def State.reg (s : State) (pn off : Nat) : Word := s.drs.regs.get regDefault (4096 * pn + off)

/-- A register's stored word in a partition's bank. -/
def State.regB (s : State) (p : Fin 16) (pn off : Nat) : Word :=
  s.drs.regs.get regDefault (2 ^ 24 * p.val + (4096 * pn + off))

/-- Stores a word in bank 0. -/
def State.setReg (s : State) (pn off : Nat) (v : Word) : State :=
  { s with drs := { s.drs with regs := s.drs.regs.set regDefault (4096 * pn + off) v } }

/-- Stores a word in a partition's bank. -/
def State.setRegB (s : State) (p : Fin 16) (pn off : Nat) (v : Word) : State :=
  { s with drs := { s.drs with regs := s.drs.regs.set regDefault (2 ^ 24 * p.val + (4096 * pn + off)) v } }

/-- Adds to a wrapping 32-bit counter. -/
def State.bump (s : State) (pn off n : Nat) : State := s.setReg pn off (s.reg pn off + word n)

def State.bumpB (s : State) (p : Fin 16) (pn off n : Nat) : State := s.setRegB p pn off (s.regB p pn off + word n)

/-- Adds to a 64-bit counter held in a pair, low word first. -/
def State.bump64 (s : State) (pn off n : Nat) : State :=
  let v := (s.reg pn off).toNat + (s.reg pn (off + 4)).toNat * 2 ^ 32 + n
  (s.setReg pn off (word v)).setReg pn (off + 4) (word (v / 2 ^ 32))

def State.bump64B (s : State) (p : Fin 16) (pn off n : Nat) : State :=
  let v := (s.regB p pn off).toNat + (s.regB p pn (off + 4)).toNat * 2 ^ 32 + n
  (s.setRegB p pn off (word v)).setRegB p pn (off + 4) (word (v / 2 ^ 32))

/-- The partitions. -/
def allParts : List (Fin 16) := List.finRange 16

/-- Pages whose `INT_STATUS`, `INT_ENABLE` and `INT_FORCE` are banked per partition (R63). -/
def bankedInt : Block → Bool
  | .dev | .sch | .stx | .col | .hbr | .scr | .rotT | .pwrT => true
  | _ => false

/-- Pages whose block-specific registers are banked per partition (R63). -/
def bankedRegs : Block → Bool
  | .sch | .stx | .col | .hbr | .scr | .rotT | .pwrT => true
  | _ => false

/-- The bank of a page's interrupt registers that a partition reaches. -/
def intBank (p : Fin 16) (pn : Nat) : Fin 16 := if bankedInt (blockAt pn) then p else 0

/-- Sets an `INT_STATUS` bit in one partition's bank (an unbanked page has one bank). -/
def State.statusOne (s : State) (p : Fin 16) (pn bit : Nat) : State :=
  let b := intBank p pn
  s.setRegB b pn hIntStatus (s.regB b pn hIntStatus ||| word (2 ^ bit))

/-- Sets an `INT_STATUS` bit for an event of the page itself: in every bank (R63). -/
def State.statusAll (s : State) (pn bit : Nat) : State :=
  if bankedInt (blockAt pn) then allParts.foldl (fun s p => s.statusOne p pn bit) s else s.statusOne 0 pn bit

/-- CMD_IGNORED, in the bank of the requester's partition (R63, R65). -/
def State.cmdIgnored (s : State) (p : Fin 16) (pn : Nat) : State := s.statusOne p pn 3

/-! ### Time and the scoresheet -/

/-- Local time in ns (R109). -/
def State.now (s : State) : Nat := s.sys.time.toNat

/-- The local-time counter has a clock: the device has power, its island is out of reset (start-up step 1 is past, R570), and
the reference runs (R109, R592). -/
def State.clocked (s : State) : Bool := s.sys.powered && s.sys.rstN && s.sys.refclk && decide (1 ≤ s.sys.bootStep)

/-- Local time moves up to `t` when `t` lies ahead (assumption 7), unless the counter has no clock or the PLL holds it. -/
def State.reach (s : State) (t : Nat) : State :=
  if s.now < t ∧ s.clocked ∧ s.sys.pll = 0 then { s with sys := { s.sys with time := BitVec.ofNat 64 t } } else s

/-- A nanosecond passes (R109; assumption 7): the counter advances, or the PLL comes nearer to its lock. -/
def State.tick (s : State) : State :=
  if !s.clocked then s
  else if s.sys.pll = 0 then { s with sys := { s.sys with time := s.sys.time + 1 } }
  else { s with sys := { s.sys with pll := s.sys.pll - 1 } }

/-- Buffers an event for the next commit (R513, R515). -/
def State.recordAt (s : State) (kind : Nat) (p : Fin 16) (subject value stamp : Nat) : State :=
  { s with score := { s.score with buffer := s.score.buffer ++ [⟨kind, p, subject, value, stamp⟩] } }

def State.record (s : State) (kind : Nat) (p : Fin 16) (subject value : Nat) : State :=
  s.recordAt kind p subject value s.now

/-- A write ignored under R63 is counted against its requester (R64, kind 0x0010). -/
def State.countIgnored (s : State) (p : Fin 16) (off : Nat) : State := s.record 0x10 p (bitsOf off 23 12) 1

/-- A denied access is counted against the requester's partition (kind 0x0011). -/
def State.countDenied (s : State) (p : Fin 16) (source : Nat) : State := s.record 0x11 p source 1

/-- A fresh number for a free value, and the state that has used it. -/
def State.fresh (s : State) : Nat × State := (s.free, { s with free := s.free + 1 })

/-! ### The device -/

/-- `DEV_CAPS.STACK_MASK` (R82). -/
def Variant.stackMask : Variant → Nat
  | .kl8s4i | .kl8s2i => 0xFF
  | .kl6s4i => 0x77
  | .kl4s4i => 0x55

/-- `DEV_CAPS.IODIE_MASK` (R82). -/
def Variant.ioMask : Variant → Nat
  | .kl8s2i => 0x3
  | _ => 0xF

def Variant.code : Variant → Nat
  | .kl8s4i => 1
  | .kl8s2i => 2
  | .kl6s4i => 3
  | .kl4s4i => 4

/-- The fitted stacks, ascending (R14). -/
def Variant.stacks (v : Variant) : List Nat := (List.range 8).filter (fun k => bitOf v.stackMask k)

def State.nStacks (s : State) : Nat := s.sys.variant.stacks.length

def State.stackFitted (s : State) (k : Nat) : Bool := decide (k < 8) && bitOf s.sys.variant.stackMask k

/-- Link n is present when its I/O die is fitted (R14). -/
def State.linkFitted (s : State) (n : Nat) : Bool := decide (n < 64) && bitOf s.sys.variant.ioMask (n / 16)

/-- A unit whose pages exist on this variant (R15). -/
def State.present (s : State) (pn : Nat) : Bool :=
  match blockAt pn with
  | .mem | .mch | .upd => s.stackFitted ((pn - 0x800) / 32)
  | .lnk => s.linkFitted ((pn - 0xC00) / 4)
  | .none => false
  | _ => true

/-- The device ID and its validity (R81). -/
def State.devIdValid (s : State) : Bool := (s.reg pgDev R.DEV_ID).getLsbD 31

def State.devId (s : State) : BitVec 16 := (s.reg pgDev R.DEV_ID).setWidth 16

/-! ### Squares -/

/-- The owner of a logical square (R62). -/
def State.sqOwner (s : State) (q : Nat) : Fin 16 := s.squares.owner.get (fun _ => 0) q

/-- The physical position that bears a logical square's name (R141). -/
def State.phys (s : State) (q : Nat) : Nat := s.squares.remap.get (fun q => q) q

/-- The partition that owns a page (R62). -/
def State.pageOwner (s : State) (pn : Nat) : Fin 16 :=
  match sqOfPage pn with
  | some q => s.sqOwner q
  | none => 0

/-- The squares. -/
def allSquares : List Nat := List.range 64

/-! ### Pawns -/

def Port.reset : Port := ⟨0, 0, 0⟩

/-- The base of a pawn's private region (R124). -/
def pawnBase : Nat := 0xC000000000000000

/-- A pawn before its first ENABLE (R122, R123, R129; assumption 20). -/
def Pawn.reset : Pawn :=
  { x := List.replicate 31 0, f := List.replicate 32 0, pc := 0, mode := .machine, frm := 0,
    mstatus := 0, mie := 0, mtvec := 0, mscratch := 0, mepc := 0, mcause := 0, mtval := 0, mcounteren := 0,
    pmpcfg := List.replicate 16 0, pmpaddr := List.replicate 16 0, cycle := 0, instret := 0, reservation := none,
    wfi := false, halted := true, mtimecmp := BitVec.allOnes 64, irqPend := 0, irqEn := 0, mboxTarget := 0, mboxRecv := 0,
    ports := List.replicate 6 Port.reset }

def State.pawn (s : State) (p k : Nat) : Pawn := s.squares.pawns.get (fun _ => Pawn.reset) (4 * p + k)

def State.setPawn (s : State) (p k : Nat) (x : Pawn) : State :=
  { s with squares := { s.squares with pawns := s.squares.pawns.set (fun _ => Pawn.reset) (4 * p + k) x } }

/-! ### Pages -/

/-- A page at reset (R65). -/
def Page.reset : Page := ⟨.off, false, true, false, false, false, 0⟩

def State.page (s : State) (pn : Nat) : Page := s.drs.pages.get (fun _ => Page.reset) pn

def State.setPage (s : State) (pn : Nat) (p : Page) : State :=
  { s with drs := { s.drs with pages := s.drs.pages.set (fun _ => Page.reset) pn p } }

/-- Pages that read STATE RUNNING whenever the island runs, and ignore `CTRL` writes (R74). -/
def alwaysOn : Block → Bool
  | .dev | .arb | .rot | .rotT | .pwr | .pwrT | .scr => true
  | _ => false

/-- The state a page shows: the island's pages RUNNING (R74), an MCH page its MEM page's state (R346). -/
def State.pstate (s : State) (pn : Nat) : PState :=
  match blockAt pn with
  | .mch => (s.page (pn / 32 * 32)).st
  | b => if alwaysOn b then .running else (s.page pn).st

def State.running (s : State) (pn : Nat) : Bool := s.pstate pn = .running

/-- The pages that show a page's STATE: its own, and of a MEM page the stack's MCH pages as well (R346). -/
def shownBy (pn : Nat) : List Nat := if blockAt pn = .mem then pn :: (List.range 17).map (pn + 1 + ·) else [pn]

/-- A status bit of every page that shows a page's STATE. -/
def State.signal (s : State) (pn bit : Nat) : State := (shownBy pn).foldl (fun s x => s.statusAll x bit) s

/-- The bit of `SQ_GATED` and of `selfGated` that stands for a page of a square (R145). -/
def gateOf (pn : Nat) : Option Nat :=
  match pn % 16 with
  | 1 => some 0
  | 2 => some 1
  | 3 => some 2
  | 4 => some 3
  | 6 => some 4
  | _ => none

/-- A unit that leaves RUNNING is no longer gated by itself (R145). -/
def State.ungate (s : State) (pn : Nat) : State :=
  match sqOfPage pn, gateOf pn with
  | some q, some b =>
    { s with squares := { s.squares with selfGated := s.squares.selfGated.set (fun _ => false) (16 * q + b) false } }
  | _, _ => s

/-- Puts a page in a state, with what R65 signals: STATE_CHANGE whenever STATE changes, and FAULT on entering FAULTED,
both events of the page itself. -/
def State.toPage (s : State) (pn : Nat) (p : Page) : State :=
  let old := (s.page pn).st
  let s1 := s.setPage pn p
  let s2 := if old = p.st then s1 else (s1.ungate pn).signal pn 0
  if old ≠ .faulted ∧ p.st = .faulted then s2.signal pn 1 else s2

/-- The pages of a square. -/
def sqPages (q : Nat) : List Nat := (List.range 13).map (pgSq q)

/-- Whether an enable of this page is held: ZEROING, or a square's page other than SQ while the SQ page is not RUNNING
(R70, R144). -/
def State.enableHeld (s : State) (pn : Nat) : Bool :=
  (s.page pn).zeroing ||
  (match sqOfPage pn with
    | some q => pn % 16 ≠ 0 && !s.running (pgSq q 0)
    | none => false)

/-- The hold of a pending enable has ended: an OFF page with ENABLE_PENDING moves to STARTING (R70). -/
def State.releasePending (s : State) (pn : Nat) : State :=
  let p := s.page pn
  if p.st = .off ∧ p.pendingEn ∧ ¬ s.enableHeld pn then s.toPage pn { p with st := .starting, pendingEn := false } else s

/-- Releases the pending enables of a square's pages. -/
def State.releaseSquare (s : State) (q : Nat) : State := (sqPages q).foldl State.releasePending s

/-- ENABLE written 1 (R70, R73). Answers whether the write was ignored. -/
def State.enableOne (s : State) (pn : Nat) : Bool × State :=
  let p := s.page pn
  match p.st with
  | .off =>
    if s.enableHeld pn then (false, s.setPage pn { p with enable := true, pendingEn := true })
    else (false, s.toPage pn { p with enable := true, st := .starting })
  | .draining | .testing => (false, s.setPage pn { p with enable := true, pendingEn := true })
  | .starting | .running => (false, s.setPage pn { p with enable := true })
  | .faulted | .retired => (true, s)

/-- ENABLE written 0 to one page (R70). In every state the register takes the 0 (R65): of a RETIRED page too, whose ENABLE is
what its successor starts from (R534). -/
def State.enableZero (s : State) (pn : Nat) : State :=
  let p := s.page pn
  match p.st with
  | .starting | .running => s.toPage pn { p with enable := false, st := .draining }
  | _ => s.setPage pn { p with enable := false, pendingEn := false }

/-- An uncorrectable unit fault puts a page in FAULTED (R70). -/
def State.faultPage (s : State) (pn : Nat) : State :=
  let p := s.page pn
  match p.st with
  | .starting | .running | .draining => s.toPage pn { p with st := .faulted, enable := false, pendingEn := false }
  | _ => s

/-- A fault declared lasting puts a page in RETIRED (R70). ENABLE keeps what it last held: DEDUCED from R534 step 4, which
starts the promoted square from it, and from R70, which clears it on entry to FAULTED alone (assumption 113). -/
def State.retirePage (s : State) (pn : Nat) : State :=
  let p := s.page pn
  s.toPage pn { p with st := .retired }

/-! ### Partitions -/

/-- A partition table entry at reset: partition 0 ACTIVE, tenants FREE (R472). -/
def Part.reset (p : Nat) : Part :=
  ⟨if p = 0 then .active else .free, 0, ⟨0, 0⟩, ⟨0, 0⟩, ⟨0, 0⟩, ⟨0, 0⟩, ⟨0, 0⟩, ⟨0, 0⟩, 0, 0, 0, 0, []⟩

def State.part (s : State) (p : Fin 16) : Part := s.pt.parts.get Part.reset p.val

def State.setPart (s : State) (p : Fin 16) (e : Part) : State :=
  { s with pt := { s.pt with parts := s.pt.parts.set Part.reset p.val e } }

def Range.has (r : Range) (n : Nat) : Bool := decide (r.first ≤ n) && decide (n < r.first + r.count)

/-- The tenants. -/
def tenants : List (Fin 16) := allParts.filter (· ≠ 0)

/-- Whether a partition holds number `n` of a ranged resource of `size` numbers: a tenant by its range, partition 0
whatever no tenant's range holds (R609). -/
def State.holds (s : State) (f : Part → Range) (size : Nat) (p : Fin 16) (n : Nat) : Bool :=
  decide (n < size) &&
  (if p = 0 then tenants.all (fun t => !(f (s.part t)).has n) else (f (s.part p)).has n)

def State.holdsCtx (s : State) (p : Fin 16) (n : Nat) : Bool := s.holds Part.ctx 65536 p n
def State.holdsTc (s : State) (p : Fin 16) (n : Nat) : Bool := s.holds Part.tc 4096 p n
def State.holdsTally (s : State) (p : Fin 16) (n : Nat) : Bool := s.holds Part.tally 16384 p n
def State.holdsSeg (s : State) (p : Fin 16) (n : Nat) : Bool := s.holds Part.seg 1024 p n
def State.holdsGrp (s : State) (p : Fin 16) (n : Nat) : Bool := s.holds Part.grp 1024 p n
def State.holdsKey (s : State) (p : Fin 16) (n : Nat) : Bool := s.holds Part.key 256 p n

/-- The partition that holds a context. -/
def State.ctxPart (s : State) (n : Nat) : Fin 16 := (tenants.find? (fun t => s.holdsCtx t n)).getD 0

/-- The partition's range as its registers show it (R609). -/
def State.rangeOf (s : State) (f : Part → Range) (size : Nat) (p : Fin 16) : Range :=
  if p = 0 then ⟨0, size⟩ else f (s.part p)

/-- The partition's tag quota (R395, R609). -/
def State.tagQuota (s : State) (p : Fin 16) : Nat :=
  if p = 0 then 131072 - (tenants.map (fun t => (s.part t).tags)).sum else (s.part p).tags

/-- The frame slots a partition holds: partition 0 those that no tenant does (R473). -/
def State.meshMask (s : State) (p : Fin 16) : Nat :=
  if p = 0 then 0xFFFF - (tenants.foldl (fun a t => a ||| (s.part t).mesh.toNat) 0) else (s.part p).mesh.toNat

def State.memMask (s : State) (p : Fin 16) : Nat :=
  if p = 0 then (2 ^ 63 - 1) - (tenants.foldl (fun a t => a ||| (s.part t).memSlots.toNat) 0) % 2 ^ 63
  else (s.part p).memSlots.toNat

def State.linkMask (s : State) (p : Fin 16) : Nat :=
  if p = 0 then (2 ^ 63 - 1) - (tenants.foldl (fun a t => a ||| (s.part t).linkSlots.toNat) 0) % 2 ^ 63
  else (s.part p).linkSlots.toNat

def State.meshSlots (s : State) (p : Fin 16) : Nat := popCount 16 (s.meshMask p)
def State.memSlots (s : State) (p : Fin 16) : Nat := popCount 63 (s.memMask p)
def State.linkSlots (s : State) (p : Fin 16) : Nat := popCount 63 (s.linkMask p)

/-- The owner of a frame slot under a mask function. -/
def State.slotOwner (s : State) (f : Part → Nat) (i : Nat) : Fin 16 :=
  (tenants.find? (fun t => bitOf (f (s.part t)) i)).getD 0

/-- Whether a partition's peer list admits a device (R473, R475). -/
def State.peerOk (s : State) (p : Fin 16) (dev : Nat) : Bool :=
  (s.part p).peers.any (fun r => decide (r.1 ≤ dev) && decide (dev ≤ r.2))

/-- An entry's generation rises, and with it the device-wide one (R479), which page 1 signals in the partition's bank
(R497). -/
def State.bumpGen (s : State) (p : Fin 16) : State :=
  let s1 := s.setPart p { s.part p with gen := (s.part p).gen + 1 }
  let s2 := { s1 with pt := { s1.pt with layoutGen := s1.pt.layoutGen + 1 } }
  (s2.statusOne p pgRotT 5).statusOne 0 pgRot 5

/-- The partition of a requester (R61). -/
def State.reqPart (s : State) : Req → Fin 16
  | .host fn => fn
  | .pawn q _ => s.sqOwner q.val
  | .arbiter | .rot => 0
  | .remote _ p => p

/-! ### Admitted commands -/

/-- Replaces the admitted commands. -/
def State.setJobs (s : State) (js : List Job) : State := { s with sch := { s.sch with jobs := js } }

def Job.live (j : Job) : Bool :=
  match j.phase with
  | .ended _ => false
  | _ => true

def Job.isRunning (j : Job) : Bool := j.phase = .running

def State.job? (s : State) (id : Nat) : Option Job := s.sch.jobs.find? (fun j => j.id = id)

/-- Changes one command. -/
def State.modJob (s : State) (id : Nat) (f : Job → Job) : State :=
  s.setJobs (s.sch.jobs.map (fun j => if j.id = id then f j else j))

/-- Ends one command with a code, if it has not ended; its record follows (R382). -/
def Job.end (code : Nat) (j : Job) : Job := if j.live then { j with phase := .ended code } else j

def State.endJob (s : State) (id code : Nat) : State := s.modJob id (Job.end code)

/-- Ends every live command that satisfies `p`. -/
def State.endJobs (s : State) (p : Job → Bool) (code : Nat) : State :=
  s.setJobs (s.sch.jobs.map (fun j => if p j then Job.end code j else j))

/-- Completion codes (R383). -/
def cDone : Nat := 0x00
def cRefused : Nat := 0x01
def cBadDescriptor : Nat := 0x02
def cAliasWrite : Nat := 0x03
def cIndexRange : Nat := 0x04
def cPartitionFault : Nat := 0x05
def cKeyAbsent : Nat := 0x06
def cTagMismatch : Nat := 0x07
def cDataLost : Nat := 0x08
def cUnitFault : Nat := 0x09
def cAborted : Nat := 0x0A
def cFlagFallen : Nat := 0x0B
def cStaleEpoch : Nat := 0x0C
def cNumericTrap : Nat := 0x0D
def cLinkDown : Nat := 0x0E

/-- Ring targets (R379). -/
def tMxe : Nat := 1
def tVxe : Nat := 2
def tMov : Nat := 3
def tSft : Nat := 4
def tUpd : Nat := 5
def tCol : Nat := 6
def tSch : Nat := 7

/-- A command of one of a square's own engines. -/
def Job.onSquare (q : Nat) (j : Job) : Bool := decide (j.target ≤ 4) && decide (j.square = q)

/-! ### Fault counting -/

/-- Defaults (LIMIT, LENGTH) of the set at an offset (R530). -/
def errDefaults (base : Nat) : Nat × Nat :=
  let pn := base / 4096
  match blockAt pn with
  | .spd | .sft => (8, 6000)
  | .mch => (64, 36000)
  | .lnk => (16, 600)
  | _ => (2, 864000)

def ErrSet.reset (base : Nat) : ErrSet :=
  ⟨List.replicate 8 0, 0, 0, (errDefaults base).2, (errDefaults base).1, false⟩

def State.err (s : State) (base : Nat) : ErrSet := s.drs.errs.get ErrSet.reset base

def State.setErr (s : State) (base : Nat) (e : ErrSet) : State :=
  { s with drs := { s.drs with errs := s.drs.errs.set ErrSet.reset base e } }

/-- A set's bucket length in ns: LENGTH / 8, rounded down to 100 ms (R76). -/
def ErrSet.period (e : ErrSet) : Nat := e.length / 8 * 100000000

/-- The next bucket edge of a set at local time `now`: the first whole number of periods that its buckets have not seen
(R76; assumption 114). -/
def ErrSet.nextEdge (e : ErrSet) (now : Nat) : Nat :=
  let last := now / e.period * e.period
  if e.edge < last then last else last + e.period

/-- The buckets move on to an edge: one place for each period that has passed (R76). -/
def ErrSet.advance (e : ErrSet) (t : Nat) : ErrSet :=
  let n := (t - e.edge) / e.period
  { e with buckets := (List.replicate (min n 8) 0 ++ e.buckets).take 8, edge := t }

/-- IN_WINDOW: the sum of the eight buckets, in the 16 bits the register has (R75). -/
def ErrSet.inWindow (e : ErrSet) : Nat := min 65535 e.buckets.sum

/-- The sets of the device (R75, R146, R346, R441, R530): the offset of the set that holds the register at `off`. -/
def errSetAt (off : Nat) : Option Nat :=
  let pn := off / 4096
  let o := off % 4096
  match blockAt pn with
  | .sq | .mxe | .sft | .upd | .col => if hErr ≤ o ∧ o < hErr + 16 then some (pn * 4096 + hErr) else none
  | .spd => if 0x400 ≤ o ∧ o < 0x400 + 16 * 64 then some (off / 16 * 16) else none
  | .lnk => if 0x400 ≤ o ∧ o < 0x400 + 16 * 4 then some (off / 16 * 16) else none
  | .mch => if 0x80 ≤ o ∧ o < 0x80 + 0x20 * 8 ∧ o % 0x20 < 16 then some (off / 16 * 16) else none
  | _ => none

/-- The number of the counted unit within its page: bank, channel or lane, else 0 (R563). -/
def errUnit (base : Nat) : Nat :=
  let o := base % 4096
  match blockAt (base / 4096) with
  | .spd | .lnk => (o - 0x400) / 16
  | .mch => (o - 0x80) / 0x20
  | _ => 0

/-- The set's offset for the square, matrix engine, segment-table store, scratchpad bank, channel, lane, update unit and
collective engine. -/
def errSq (q : Nat) : Nat := pgSq q 0 * 4096 + hErr
def errMxe (q u : Nat) : Nat := pgMxe q u * 4096 + hErr
def errSft (q : Nat) : Nat := pgSft q * 4096 + hErr
def errBank (q b : Nat) : Nat := pgSpd q * 4096 + 0x400 + 16 * b
def errChan (k ch : Nat) : Nat := pgMch k (ch / 8 + 1) * 4096 + 0x80 + 0x20 * (ch % 8)
def errLane (n l : Nat) : Nat := pgLnk n * 4096 + 0x400 + 16 * l
def errUpd (k : Nat) : Nat := pgUpd k * 4096 + hErr
def errCol : Nat := pgCol * 4096 + hErr

/-- A physical channel at reset (R346). -/
def Chan.reset (key : Nat) : Chan := if key % 136 < 128 then ⟨.serving, key % 136⟩ else ⟨.spareFree, 0⟩

def State.chan (s : State) (k ch : Nat) : Chan := s.mem.chans.get Chan.reset (k * 136 + ch)

def State.setChan (s : State) (k ch : Nat) (c : Chan) : State :=
  { s with mem := { s.mem with chans := s.mem.chans.set Chan.reset (k * 136 + ch) c } }

def Spare.reset : Spare := ⟨0, 0, 0, 0⟩

def State.spare (s : State) (k j : Nat) : Spare := s.mem.spares.get (fun _ => Spare.reset) (k * 8 + j)

def State.setSpare (s : State) (k j : Nat) (x : Spare) : State :=
  { s with mem := { s.mem with spares := s.mem.spares.set (fun _ => Spare.reset) (k * 8 + j) x } }

/-- The lowest-numbered free spare of a stack (R337). -/
def State.freeSpare (s : State) (k : Nat) : Option Nat :=
  (List.range 8).find? (fun j => (s.spare k j).phase = 0 && (s.chan k (128 + j)).st = .spareFree)

/-- Starts the copy of a channel that serves into the lowest free spare (R337). With none free the channel keeps serving and
SPARES_OUT is set (R339). -/
def State.copyToSpare (s : State) (k ch : Nat) : State :=
  let l := (s.chan k ch).logical
  match s.freeSpare k with
  | none => (s.setChan k ch ⟨.serving, l⟩).statusAll (pgMem k) 7
  | some j => ((s.setChan k ch ⟨.copySource, l⟩).setChan k (128 + j) ⟨.copyTarget, l⟩).setSpare k j ⟨1, l, ch, 0⟩

/-- A channel's count is declared lasting: a serving channel is copied into a spare (R337); a spare that fails during a copy
is FAILED, and the copy starts anew on the next one (R338). -/
def State.startSpareCopy (s : State) (k ch : Nat) : State :=
  match (s.chan k ch).st with
  | .serving => s.copyToSpare k ch
  | .copyTarget =>
    let x := s.spare k (ch - 128)
    ((s.setChan k ch ⟨.failed, 0⟩).setSpare k (ch - 128) { x with phase := 3 }).copyToSpare k x.source
  | _ => s

/-- Stacks whose update unit is not RETIRED. -/
def State.updStacks (s : State) : List Nat := s.sys.variant.stacks.filter (fun k => s.pstate (pgUpd k) ≠ .retired)

/-- The coordinating update unit's stack (R356). -/
def State.updCoord (s : State) : Option Nat := s.updStacks.head?

/-- What a command that ends with a code other than DONE leaves on its engine's page when nothing more is known of the failure:
the code with no place, and the status bit of such endings (R186, R222, R223, R247, R318, R319, R372, R373). To `MXE_LAST_FAULT` a
fallen flag is no failure: the command completed without error (R389; DEDUCED, assumption 130). -/
def State.noteEnd (s : State) (j : Job) (code : Nat) : State :=
  let w0 := (nth 0#64 j.body 0).toNat
  let faulty (s : State) (pn bit : Nat) : State := if code = cAborted then s else s.statusAll pn bit
  if code = cDone then s
  else if j.target = tMxe then
    if code = cFlagFallen then s else s.setReg (pgMxe j.square j.unit) R.MXE_LAST_FAULT (word (code * 2 ^ 24 + 0xFFFF))
  else if j.target = tVxe then
    faulty (s.setReg (pgVxe j.square j.unit) R.VXE_LAST_FAULT (word (code * 2 ^ 24 + 0xF0000))) (pgVxe j.square j.unit) 6
  else if j.target = tMov then
    let s1 := s.setReg (pgMov j.square) R.MOV_LAST_FAULT
      (word (code * 2 ^ 24 + bitsOf w0 9 8 * 2 ^ 22 + bitsOf w0 7 0 * 2 ^ 8 + 7))
    faulty ((s1.setReg (pgMov j.square) R.MOV_FAULT_POS_LO 0).setReg (pgMov j.square) R.MOV_FAULT_POS_HI 0) (pgMov j.square) 7
  else if j.target = tSft then
    s.setReg (pgSft j.square) R.SFT_LAST_ERR (word (code * 2 ^ 24 + bitsOf w0 12 8 * 2 ^ 16 + 0xFF00
      + (1 - s.sft.active.get (fun _ => 0) (s.phys j.square))))
  else if j.target = tUpd then
    match s.updCoord with
    | some k => faulty (s.setReg (pgUpd k) R.UPD_LAST_FAULT (word (code * 2 ^ 24 + 0xFFFFFF))) (pgUpd k) 6
    | none => s
  else s

/-- Ends every live command that satisfies `p`, each noted on its engine's page. -/
def State.endNoted (s : State) (p : Job → Bool) (code : Nat) : State :=
  ((s.sch.jobs.filter (fun j => p j && j.live)).foldl (fun s j => s.noteEnd j code) s).endJobs p code

/-- What the engines and mover channels of a square hold is gone. -/
def State.dropEngines (s : State) (q : Nat) : State :=
  { s with
    mxe := s.mxe.keep (fun k => decide (k / 2 ≠ q))
    vxe := s.vxe.keep (fun k => decide (k / 2 ≠ q))
    mov := s.mov.keep (fun k => decide (k / 4 ≠ q)) }

/-- The transactions of ended commands are over. -/
def State.dropEndedTxs (s : State) : State :=
  { s with fab := { s.fab with txs := s.fab.txs.filter (fun t => match t.owner with
      | .job id => (s.job? id).any Job.live
      | _ => true) } }

/-- Step 1 of a square's promotion (R534): every page of the square enters RETIRED, the commands of its engines, mover and
port 5 end UNIT_FAULT, their engines and buffers are cleared (R316), and the promotion waits its turn (R536). -/
def State.retireSquare (s : State) (q : Nat) : State :=
  if (s.page (pgSq q 0)).st = .retired then s
  else
    let s1 := (sqPages q).foldl State.retirePage s
    let s2 := ((s1.endNoted (Job.onSquare q) cUnitFault).dropEngines q).dropEndedTxs
    { s2 with squares := { s2.squares with
        retiredPhys := s2.squares.retiredPhys.set (fun _ => false) (s2.phys q) true
        promotions := s2.squares.promotions ++ [Fin.ofNat 64 q] } }

/-- A fault declared lasting (R76, R530, R531): LASTING and ERR_LASTING are set, LASTING_FAULT is recorded, and the unit is
retired. A lane's link retrains without it (R407). -/
def State.declareLasting (s : State) (base : Nat) : State :=
  let pn := base / 4096
  let s1 := s.setErr base { s.err base with lasting := true }
  let s2 := s1.statusAll pn 2
  let s3 := s2.record 0x100 0 (bitsOf base 23 12 * 256 + errUnit base) 1
  match blockAt pn with
  | .sq | .mxe | .sft | .spd => s3.retireSquare ((pn - 0x100) / 16)
  | .mch => s3.startSpareCopy ((pn - 0x800) / 32) ((pn % 32 - 1) * 8 + errUnit base)
  | .upd | .col => s3.retirePage pn
  | .lnk =>
    { s3 with fab := { s3.fab with
        lanesOut := s3.fab.lanesOut.set (fun _ => false) ((pn - 0xC00) / 4 * 4 + errUnit base) true } }
  | _ => s3

/-- Declares the fault lasting when IN_WINDOW has reached LIMIT and LIMIT is not 0 (R75, R76). -/
def State.checkLasting (s : State) (base : Nat) : State :=
  let e := s.err base
  if e.limit ≠ 0 ∧ e.limit ≤ e.inWindow ∧ ¬ e.lasting then s.declareLasting base else s

/-- Adds `n` events to a set (R75, R76). -/
def ErrSet.add (e : ErrSet) (n : Nat) : ErrSet :=
  { e with
    buckets := (match e.buckets with
      | [] => [n]
      | b :: t => (b + n) :: t)
    total := min 65535 (e.total + n) }

/-- Counts `n` events against a unit (R75, R76). -/
def State.countFault (s : State) (base n : Nat) : State :=
  (s.setErr base ((s.err base).add n)).checkLasting base

/-- One UNIT_FAULT event against a square. -/
def State.unitFault (s : State) (q : Nat) : State := s.countFault (errSq q) 1

/-! ### Stream contexts -/

/-- A context at reset (R376): IDLE, STOP_ON_REFUSE 1. -/
def Ctx.reset : Ctx := ⟨.idle, true, false, 0, 0, 0, 0, 0, 0, 0, 0, 0, 0, 0, false⟩

def State.ctx (s : State) (n : Nat) : Ctx := s.sch.ctxs.get (fun _ => Ctx.reset) n

def State.setCtx (s : State) (n : Nat) (c : Ctx) : State :=
  { s with sch := { s.sch with ctxs := s.sch.ctxs.set (fun _ => Ctx.reset) n c } }

end Sys2Proof.Machine
end

