-- ==== Sys2Proof/Machine/Fabric.lean ====
section
/-!
DEFINITION. Packets and their route (R421 to R426, R443, R444), outstanding transactions (R395), MSI-X vectors (R439), and
the summary interrupts that follow every command (R87, R88, R439, R445).
-/

namespace Sys2Proof.Machine

open Sys2Proof

/-! ### Packets -/

/-- Packet types (R422). -/
def ptWrite : Byte := 0x01
def ptRead : Byte := 0x02
def ptData : Byte := 0x03
def ptAck : Byte := 0x04
def ptNack : Byte := 0x05
def ptSignal : Byte := 0x06
def ptCommand : Byte := 0x07
def ptCollective : Byte := 0x08
def ptInterrupt : Byte := 0x09
def ptMgmt : Byte := 0x0A

/-- The 32 header bytes and the payload (R421). -/
def encodePacket (p : Packet) : List Byte :=
  let w0 := p.type.toNat + p.part.val * 2 ^ 8 + b01 p.det * 2 ^ 12 + p.dst.toNat * 2 ^ 16 + p.src.toNat * 2 ^ 32
    + p.stream.toNat * 2 ^ 48
  let w1 := p.addr.toNat + p.len.toNat * 2 ^ 48
  let w2 := p.epoch.toNat + p.tag.toNat * 2 ^ 32 + p.hops.toNat * 2 ^ 49 + p.code.toNat * 2 ^ 56
  let w3 := p.remain.toNat + p.arg.toNat * 2 ^ 32
  leBytes 8 w0 ++ leBytes 8 w1 ++ leBytes 8 w2 ++ leBytes 8 w3 ++ p.payload

/-- The payload bytes that follow a header: none for a READ, which only asks for LEN bytes (R421). -/
def payloadLen (type : Byte) (len : Nat) : Nat := if type = ptRead then 0 else len

/-- Reads one packet from the front of a byte stream, if a whole one is there (R421). -/
def decodePacket (bs : List Byte) : Option (Packet × List Byte) :=
  if bs.length < 32 then none
  else
    let w0 := leNat (bs.take 8)
    let w1 := leNat ((bs.drop 8).take 8)
    let w2 := leNat ((bs.drop 16).take 8)
    let w3 := leNat ((bs.drop 24).take 8)
    let ty : Byte := BitVec.ofNat 8 w0
    let len := bitsOf w1 59 48
    let n := payloadLen ty len
    if bs.length < 32 + n then none
    else
      some (⟨ty, Fin.ofNat 16 (bitsOf w0 11 8), bitOf w0 12, BitVec.ofNat 16 (bitsOf w0 31 16),
        BitVec.ofNat 16 (bitsOf w0 47 32), BitVec.ofNat 16 (bitsOf w0 63 48), BitVec.ofNat 48 (bitsOf w1 47 0),
        BitVec.ofNat 12 len, BitVec.ofNat 32 w2, BitVec.ofNat 17 (bitsOf w2 48 32), BitVec.ofNat 4 (bitsOf w2 52 49),
        BitVec.ofNat 8 (bitsOf w2 63 56), BitVec.ofNat 32 w3, BitVec.ofNat 32 (bitsOf w3 63 32),
        (bs.drop 32).take n⟩, bs.drop (32 + n))

/-- A device's group and member (R57). -/
def devGroup (d : BitVec 16) : Nat := bitsOf d.toNat 13 6
def devMember (d : BitVec 16) : Nat := bitsOf d.toNat 5 0

/-- The device ID of a member of a group. -/
def mkDev (g m : Nat) : BitVec 16 := BitVec.ofNat 16 (g * 64 + m)

/-- This device's epoch for a group (R430). -/
def State.epochOf (s : State) (g : Nat) : Word := s.reg pgRte (R.RTE_EPOCH + 4 * g)

/-- A packet of this device, without payload, addressed to `dst`: its own group's epoch is written into it (R430). -/
def State.mkPacket (s : State) (type : Byte) (p : Fin 16) (dst : BitVec 16) : Packet :=
  ⟨type, p, false, dst, s.devId, 0, 0, 0, s.epochOf (devGroup s.devId), 0, 0, 0, 0xFFFFFFFF, 0, []⟩

def withPayload (p : Packet) (bs : List Byte) : Packet := { p with payload := bs, len := BitVec.ofNat 12 bs.length }

/-! ### Links and routes -/

def Link.reset : Link :=
  ⟨.down, 0, 0, [0, 1, 2, 3], false, 0, 0, false, false, false, 0, 4095, false, [], 0, [], false, [], none⟩

def State.link (s : State) (n : Nat) : Link := s.fab.links.get (fun _ => Link.reset) n

def State.setLink (s : State) (n : Nat) (l : Link) : State :=
  { s with fab := { s.fab with links := s.fab.links.set (fun _ => Link.reset) n l } }

/-- A link that takes new packets: UP, with its page not draining (R442). -/
def State.linkUp (s : State) (n : Nat) : Bool := (s.link n).st = .up && s.running (pgLnk n)

/-- Live lanes of a link. -/
def Link.lanes (l : Link) : Nat := popCount 4 l.laneOk.toNat

/-- A 64-bit register pair, as stored. -/
def State.pairAt (s : State) (pn off : Nat) : Nat := (s.reg pn off).toNat + (s.reg pn (off + 4)).toNat * 2 ^ 32

/-- The route entry for a destination (R424). -/
def State.routeEntry (s : State) (dst : BitVec 16) : Nat :=
  if devGroup dst = devGroup s.devId then s.pairAt pgRte (R.RTE_INTRA + 8 * devMember dst)
  else s.pairAt pgRte (R.RTE_INTER + 8 * devGroup dst)

/-- The valid candidate links of an entry, in list order (R444). -/
def routeCandidates (e : Nat) : List Nat :=
  ((List.range 8).filter (fun c => bitOf e (7 * c + 6))).map (fun c => bitsOf e (7 * c + 5) (7 * c))

def routeDeterministic (e : Nat) : Bool := bitOf e 56

def routeMaxHops (e : Nat) : Nat := bitsOf e 60 57

/-- The flits of a packet: containers of 1,008 bytes (R409, R421). -/
def flitsOf (p : Packet) : List (List Byte) := chunks 1008 (encodePacket p)

/-- Flits that wait on a link for a partition. -/
def State.flitsWaiting (s : State) (p : Fin 16) (n : Nat) : Nat :=
  (((s.link n).waiting.filter (fun h => h.packet.part = p)).map (fun h => (flitsOf h.packet).length)).sum

/-- The candidate a packet takes (R425): on an adaptive route the one with the fewest flits waiting for its partition, the
first in the list of several. -/
def State.chooseLink (s : State) (p : Packet) (e : Nat) : Option Nat :=
  let cs := routeCandidates e
  if routeDeterministic e || p.det then
    let h := p.src ^^^ p.dst ^^^ p.stream ^^^ BitVec.ofNat 16 (p.part.val * 4096)
    let i := if cs.length = 0 then 0 else ((bitsOf h.toNat 15 8) ^^^ (bitsOf h.toNat 7 0)) % cs.length
    (cs.drop i ++ cs.take i).find? s.linkUp
  else
    let ups := cs.filter s.linkUp
    ups.find? (fun n => ups.all (fun m => decide (s.flitsWaiting p.part n ≤ s.flitsWaiting p.part m)))

/-- Counts a dropped packet (R422, R443, R444). -/
def State.countDrop (s : State) (p : Packet) (reason : Nat) : State :=
  let s1 := (s.bump pgRte R.RTE_DROP 1).setReg pgRte R.RTE_LAST_DROP (word (reason * 2 ^ 24 + p.src.toNat))
  s1.statusAll pgRte 4

/-- Puts a packet on a link: it becomes DATA flits of 1,008-byte containers, each kept in the replay buffer (R409, R411,
R421). -/
def State.transmit (s : State) (n : Nat) (p : Packet) : State :=
  let l := s.link n
  let cs := flitsOf p
  let kept := cs.zipIdx.map (fun (b, i) => (⟨(l.txSeq + i) % 4096, p.part, b, 0, p⟩ : KeptFlit))
  let s1 := s.setLink n { l with
    txSeq := (l.txSeq + cs.length) % 4096
    replay := l.replay ++ kept
    txFlits := l.txFlits + cs.length }
  let s2 := s1.bump64 (pgLnk n) R.LNK_TX_LO cs.length
  { s2 with out := s2.out ++ [.packet n p] }

/-- The time a packet spent in this device comes off its REMAIN, which saturates at 0; a command without a promise keeps its
0xFFFF_FFFF (R423). -/
def aged (p : Packet) (ns : Nat) : Packet :=
  if p.remain = 0xFFFFFFFF then p else { p with remain := word (p.remain.toNat - ns) }

/-- A link's replay buffer of 512 flits has places for a packet's flits (R411). -/
def State.linkRoom (s : State) (n : Nat) (p : Packet) : Bool :=
  decide ((s.link n).replay.length + (flitsOf p).length ≤ 512)

/-- A packet has slots to leave in: its partition's, or the maintenance slot (R417, R420). -/
def State.hasSlot (s : State) (p : Packet) : Bool := p.type = ptInterrupt || p.type = ptMgmt || decide (0 < s.linkSlots p.part)

/-- What a packet's order on a link goes by (R418, R419): its partition, whether it is a transit packet, and the time control
of its stream. -/
def State.linkClass (s : State) (p : Packet) : Nat × Bool × Nat :=
  if p.src = s.devId then (p.part.val, false, (s.ctx p.stream.toNat).tc) else (p.part.val, true, 0)

/-- Packets of one flow that keep their order (R426). -/
def State.sameFlow (s : State) (a b : Packet) : Bool :=
  a.src = b.src && a.dst = b.dst && a.part = b.part && a.stream = b.stream
  && (routeDeterministic (s.routeEntry a.dst) || a.det || b.det)

/-- A packet that waited, aged (R423). -/
def State.agedHold (s : State) (h : EpochHold) : Packet := aged h.packet (s.now - h.since)

/-- The waiting packet of a link that leaves next: of the class of the first that has slots, the one with the smallest REMAIN,
the first of several (R419), behind which none of its flow waits (R426). -/
def State.nextOnLink (s : State) (n : Nat) : Option Nat :=
  let ws := (s.link n).waiting.zipIdx
  match ws.find? (fun h => s.hasSlot h.1.packet) with
  | none => none
  | some h0 =>
    let mates := ws.filter (fun h => s.linkClass h.1.packet = s.linkClass h0.1.packet
      && !(ws.any (fun g => decide (g.2 < h.2) && s.sameFlow g.1.packet h.1.packet)))
    let key (h : EpochHold × Nat) : Nat := (s.agedHold h.1).remain.toNat
    (mates.find? (fun h => mates.all (fun g => decide (key h ≤ key g)))).map (·.2)

/-- Puts a packet on a link, or lets it wait behind the packets that wait there for places in the replay buffer, or for
slots. -/
def State.launch (s : State) (n : Nat) (p : Packet) : State :=
  if s.hasSlot p && !((s.link n).waiting.any (fun h => s.hasSlot h.packet)) && s.linkRoom n p then
    s.transmit n { p with hops := p.hops + 1 }
  else s.setLink n { s.link n with waiting := (s.link n).waiting ++ [⟨p, s.now⟩] }

/-- The packets that wait on a link and find room leave; the time they waited comes off their REMAIN (R423). None leaves while
the RTE page is not RUNNING (R443). -/
def State.sendWaiting (n : Nat) : Nat → State → State
  | 0, s => s
  | f + 1, s =>
    match (s.nextOnLink n).bind (fun i => ((s.link n).waiting[i]?).map (fun h => (i, h))) with
    | none => s
    | some (i, h) =>
      if s.linkRoom n h.packet && s.running pgRte then
        State.sendWaiting n f ((s.setLink n { s.link n with waiting := (s.link n).waiting.eraseIdx i }).transmit n
          { s.agedHold h with hops := h.packet.hops + 1 })
      else s

/-- Acknowledgements have made room in a link's replay buffer. -/
def State.takeRoom (s : State) (n : Nat) : State := State.sendWaiting n (s.link n).waiting.length s

/-- Every link sends what it can: the RTE page runs again, or slots have changed hands. -/
def State.takeRooms (s : State) : State :=
  (s.fab.links.keys.filter (fun n => !(s.link n).waiting.isEmpty)).foldl State.takeRoom s

/-- Answers: a dropped one is answered by none. -/
def isAnswer (p : Packet) : Bool := p.type = ptData || p.type = ptAck || p.type = ptNack

/-- Sends a packet that does not belong to this device over its route (R424, R425), or drops it; the answer says whether it
left. A packet is held while the RTE page is not RUNNING (R443). -/
def State.forward (s : State) (p : Packet) : Bool × State :=
  if !s.running pgRte then (true, { s with fab := { s.fab with heldOut := s.fab.heldOut ++ [⟨p, s.now⟩] } })
  else if p.hops = 15 then (false, s.countDrop p 3)
  else
    match s.chooseLink p (s.routeEntry p.dst) with
    | none => (false, s.countDrop p 2)
    | some n => (true, s.launch n p)

/-! ### Outstanding transactions -/

/-- Gives the transaction of a tag its answer. -/
def State.answerTx (s : State) (tag : Nat) (f : Tx → Tx) : State :=
  { s with fab := { s.fab with txs := s.fab.txs.map (fun t => if t.tag = tag then f t else t) } }

/-- The outstanding transaction of a tag. -/
def State.openTx (s : State) (tag : Nat) : Option Tx :=
  s.fab.txs.find? (fun t => t.tag = tag && t.got.isNone && t.fail.isNone)

/-- Transactions of a host access. -/
def State.barTxs (s : State) (b : BarAccess) : List Tx := s.fab.txs.filter (fun t => t.owner = .bar b.fn b.num)

/-- A host access whose packets are all answered completes: with the data joined in address order, or, when one of them
failed, with Completer Abort, all ones, and a count in `HBR_ABORTS` (R437). -/
def State.settleBar (s : State) (b : BarAccess) : State :=
  let ts := s.barTxs b
  if ts.all (fun t => t.got.isSome || t.fail.isSome) then
    let bad := ts.any (fun t => t.fail.isSome)
    let data := if !b.isWrite then (if bad then List.replicate b.size 0xFF#8 else ts.flatMap (fun t => t.got.getD [])) else []
    let s1 := { s with
      fab := { s.fab with
        txs := s.fab.txs.filter (fun t => t.owner ≠ .bar b.fn b.num)
        bars := s.fab.bars.filter (fun c => c.num ≠ b.num) }
      out := s.out ++ [.completion b.fn (!bad) bad data] }
    if bad then s1.bumpB b.fn pgHbr R.HBR_ABORTS 1 else s1
  else s

def State.settleBars (s : State) : State := s.fab.bars.foldl State.settleBar s

/-- A transaction of the Arbiter's is over once it is answered: nothing waits for it. -/
def State.closeTx (s : State) (tag : Nat) : State :=
  { s with fab := { s.fab with txs := s.fab.txs.filter (fun t => t.tag ≠ tag) } }

/-- A transaction gets its answer: the data of a read, or the empty list of an acknowledged write. -/
def State.giveTx (s : State) (tag : Nat) (bs : List Byte) : State :=
  match s.openTx tag with
  | none => s
  | some t =>
    if t.owner = .island then s.closeTx tag else (s.answerTx tag (fun t => { t with got := some bs })).settleBars

/-- A transaction fails with a code (R429). Its command ends when it next looks. -/
def State.failTx (s : State) (tag code : Nat) : State :=
  match s.openTx tag with
  | none => s
  | some t =>
    if t.owner = .island then s.closeTx tag else (s.answerTx tag (fun t => { t with fail := some code })).settleBars

/-- A packet of this device's own collective has found no way out: the collective ends LINK_DOWN when it next looks (R429, R464). -/
def State.loseColl (s : State) (p : Packet) : State :=
  { s with col := { s.col with colls := s.col.colls.map (fun c =>
      if c.part = p.part ∧ c.grp = bitsOf p.arg.toNat 9 0 ∧ c.seq = bitsOf p.arg.toNat 31 10 then { c with lost := true } else c) } }

/-- A packet refused at its own router: the router returns NACK LINK_DOWN to SRC (R424), with the ADDR and ARG that tell a
collective's from others; when this device is SRC, the sending command ends (R429). -/
def State.sendOrFail (s : State) (p : Packet) : State :=
  let (sent, s1) := s.forward p
  if sent then s1
  else if isAnswer p then s1
  else if p.src = s.devId then (if p.type = ptCollective then s1.loseColl p else s1.failTx p.tag.toNat cLinkDown)
  else
    let n := { s1.mkPacket ptNack p.part p.src with
      tag := p.tag, code := BitVec.ofNat 8 cLinkDown, stream := p.stream, addr := p.addr, arg := p.arg }
    (s1.forward n).2

/-- Sends packets that were held, in order, each aged by the time it was (R423). -/
def State.sendHeld (s : State) (hs : List EpochHold) : State :=
  hs.foldl (fun s h => s.sendOrFail (aged h.packet (s.now - h.since))) s

/-- Opens a transaction and makes its request (R395, R423). Tag 131,071 is kept for packets without a transaction. -/
def State.makeRequest (s : State) (p : Fin 16) (owner : TxOwner) (dev : BitVec 16) (addr len : Nat)
    (write : Option (List Byte)) (stream : Nat) (promise : Option Nat) : Packet × State :=
  let tag := s.fab.nextTag
  let t : Tx := ⟨tag, p, owner, write.isSome, dev, addr, len, s.now, none, none⟩
  let s1 := { s with fab := { s.fab with txs := s.fab.txs ++ [t], nextTag := (tag + 1) % 131071 } }
  let pk := s1.mkPacket (if write.isSome then ptWrite else ptRead) p dev
  let remain := match promise with
    | none => 0xFFFFFFFF
    | some d => min (d - s.now) 0xFFFFFFFE
  ({ pk with
    stream := BitVec.ofNat 16 stream
    addr := BitVec.ofNat 48 addr
    len := BitVec.ofNat 12 len
    tag := BitVec.ofNat 17 tag
    remain := BitVec.ofNat 32 remain
    payload := write.getD [] }, s1)

/-- Opens a transaction and sends its request. -/
def State.request (s : State) (p : Fin 16) (owner : TxOwner) (dev : BitVec 16) (addr len : Nat)
    (write : Option (List Byte)) (stream : Nat) (promise : Option Nat) : State :=
  let (pk, s1) := s.makeRequest p owner dev addr len write stream promise
  s1.sendOrFail pk

/-! ### MSI-X -/

def Msix.reset : Msix := ⟨0, 0, true, false⟩

def State.msixAt (s : State) (fn : Fin 16) (v : Nat) : Msix := s.fab.msix.get (fun _ => Msix.reset) (fn.val * 128 + v)

def State.setMsix (s : State) (fn : Fin 16) (v : Nat) (m : Msix) : State :=
  { s with fab := { s.fab with msix := s.fab.msix.set (fun _ => Msix.reset) (fn.val * 128 + v) m } }

/-- Raises a vector of a function: a masked vector becomes pending, another sends its message (R439). -/
def State.raiseVector (s : State) (fn : Fin 16) (v : Nat) : State :=
  let m := s.msixAt fn v
  let s1 := s.bumpB fn pgHbr R.HBR_INT_FWD 1
  if m.masked then s1.setMsix fn v { m with pend := true }
  else { s1 with out := s1.out ++ [.msix fn v m.addr m.data] }

/-! ### Summary interrupts -/

/-- The summary bit of a page: square q at q, stack k at 64 + k, DEV to SCH in R81's order at 80 to 89, link n at
96 + n. -/
def summaryBit (pn : Nat) : Option Nat :=
  match blockAt pn with
  | .dev => some 80
  | .arb => some 81
  | .rot | .rotT => some 82
  | .pwr | .pwrT => some 83
  | .scr => some 84
  | .rte => some 85
  | .stx => some 86
  | .col => some 87
  | .hbr => some 88
  | .sch => some 89
  | .mem | .mch | .upd => some (64 + (pn - 0x800) / 32)
  | .lnk => some (96 + (pn - 0xC00) / 4)
  | .none => none
  | _ => some ((pn - 0x100) / 16)

/-- The banks and pages that have a status bit set together with its enable bit (R87). -/
def State.activeInts (s : State) : List (Fin 16 × Nat) :=
  (s.drs.regs.keys.filter (fun k => k % 4096 = hIntStatus)).filterMap (fun k =>
    let p := Fin.ofNat 16 (k / 2 ^ 24)
    let pn := k % 2 ^ 24 / 4096
    if s.regB p pn hIntStatus &&& s.regB p pn hIntEnable = 0 then none else some (p, pn))

/-- Whether a bank's interrupt of a page is a partition's (R87): its own bank of a banked page; of another page, the
owner's, and partition 0's as well, since the headers of all pages are its own. -/
def State.intIsMine (s : State) (p b : Fin 16) (pn : Nat) : Bool :=
  if bankedInt (blockAt pn) then b = p else p = 0 || s.pageOwner pn = p

/-- The summary bits of a partition (R87). -/
def State.summary (s : State) (p : Fin 16) : Nat :=
  s.activeInts.foldl (fun acc (b, pn) =>
    if s.intIsMine p b pn then
      match summaryBit pn with
      | some i => acc ||| 2 ^ i
      | none => acc
    else acc) 0

/-- `DEV_INT_CTRL.MASTER` of a partition's bank. -/
def State.master (s : State) (p : Fin 16) : Bool := (s.regB p pgDev R.DEV_INT_CTRL).getLsbD 0

/-- The ADDR that marks an INTERRUPT packet and its acknowledgement, whose ARG is the number of the interrupt: the bridge
tells a resend by it (R440; assumption 35). -/
def intAddr : BitVec 48 := BitVec.allOnes 48

/-- The ADDR that marks a SIGNAL packet and its answer (assumption 35). -/
def sigAddr : BitVec 48 := 0xFFFFFFFFFFFE#48

/-- A member raises the summary interrupt of a partition: an INTERRUPT packet to the device in `RTE_BRIDGE`, or, on the
bridge itself, the vector of its own member number (R439). It waits for the acknowledgement (R440). -/
def State.sendInterrupt (s : State) (p : Fin 16) : State :=
  let b := s.reg pgRte R.RTE_BRIDGE
  if !b.getLsbD 16 then s
  else if BitVec.setWidth 16 b = s.devId then
    if s.fab.active then
      { s.raiseVector p (devMember s.devId) with
        fab := { (s.raiseVector p (devMember s.devId)).fab with intWait := s.fab.intWait.filter (· ≠ p) } }
    else s
  else (s.forward { s.mkPacket ptInterrupt p (BitVec.setWidth 16 b) with
    addr := intAddr, tag := 131071#17, arg := word (s.fab.intSent.get (fun _ => 0) p.val) }).2

/-- The summary interrupt of a partition rises (R88): a new INTERRUPT, resent until it is acknowledged (R440). -/
def State.raiseSummary (s : State) (p : Fin 16) : State :=
  let n := s.fab.intSent.get (fun _ => 0) p.val + 1
  let s1 := { s with fab := { s.fab with
    intWait := s.fab.intWait.filter (· ≠ p) ++ [p]
    intSent := s.fab.intSent.set (fun _ => 0) p.val n
    intAt := s.fab.intAt.set (fun _ => 0) p.val s.now } }
  s1.sendInterrupt p

/-- The enabled HBR events of a bank (R445). -/
def State.hbrEvents (s : State) (p : Fin 16) : Nat :=
  ((s.regB p pgHbr hIntStatus) &&& (s.regB p pgHbr hIntEnable)).toNat &&& 0x30

/-- What a partition's summary interrupt sees: nothing while MASTER is 0 (R88). -/
def State.raisable (s : State) (p : Fin 16) : Nat := if s.master p then s.summary p else 0

/-- Whether the second number has a bit that the first lacks. -/
def gained (a b : Nat) : Bool := decide (b &&& (a ^^^ b) ≠ 0)

/-- The summary interrupt of a partition whose summary gained a bit while MASTER is 1 (R88). -/
def State.settleSummary (before s : State) (p : Fin 16) : State :=
  if gained (before.raisable p) (s.raisable p) then s.raiseSummary p else s

/-- Vector 64 of a bank whose enabled HBR events grew (R439, R445). -/
def State.settleVector (before s : State) (p : Fin 16) : State :=
  if gained (before.hbrEvents p) (s.hbrEvents p) && s.fab.active then s.raiseVector p 64 else s

/-- Raises what a command has made to rise. -/
def State.settleOne (before s : State) (p : Fin 16) : State := before.settleVector (before.settleSummary s p) p

def State.settle (before after : State) : State := allParts.foldl (State.settleOne before) after

/-- The device is powered and the island out of reset: without either, nothing acts but power and pins (R565, R570). -/
def State.alive (s : State) : Bool := s.sys.powered && s.sys.rstN

/-- The outcome of a command: its effect, then the interrupts it makes rise. A device without power, or held in reset, does
nothing. The queue is no part of any effect. -/
def done (before after : State) : Host.Outcome State Fault Refusal :=
  .next { (if before.alive then State.settle before after else before) with pending := before.pending }

/-- The outcome of an event of the pins and the power input, which acts on a device without power or held in reset as well. -/
def donePin (before after : State) : Host.Outcome State Fault Refusal :=
  .next { (if before.alive && after.alive then State.settle before after else after) with pending := before.pending }

/-! ### MCTP transports (R520) -/

/-- Transports by number: I3C, SMBus, PCIe, MGMT packets, the mailbox. -/
def tpI3c : Nat := 0
def tpSmbus : Nat := 1
def tpPcie : Nat := 2
def tpMgmt : Nat := 3
def tpMbox : Nat := 4

/-- An MCTP message leaves by its transport; over MGMT packets it goes to the device that bears its endpoint identifier, which is the
fabric manager's to say (assumption 39). -/
def State.mctpSend (s : State) (m : MctpMsg) : State :=
  if m.transport = tpMgmt then
    let pk := { s.mkPacket ptMgmt 0 (Config.eidDevice m.dst) with det := true, arg := 1 }
    (s.forward (withPayload pk (m.src :: m.dst :: m.type :: m.bytes))).2
  else { s with out := s.out ++ [.mctp m] }

end Sys2Proof.Machine
end

