-- ==== Sys2Proof/Machine/Access.lean ====
section
/-!
DEFINITION. Who may write a register (R61 to R64): the check that every register write goes through, and the count of a
write ignored under R63.
-/

namespace Sys2Proof.Machine

open Sys2Proof

/-- Whether an offset belongs to a page's header (R63). -/
def isHeader (off : Nat) : Bool := decide (off < 0x80)

/-- The header registers that banked pages bank per partition (R63). -/
def isIntReg (off : Nat) : Bool := off = hIntStatus || off = hIntEnable || off = hIntForce

/-- Whether a requester is admitted at all: a remote device by the peer list of the partition in its packet (R61, R428). -/
def State.admitted (s : State) : Req → Bool
  | .remote d p => d = s.devId || s.peerOk p d.toNat
  | _ => true

/-- The denial of a remote device that is not admitted is counted (R428). -/
def State.countUnadmitted (s : State) : Req → State
  | .remote d p => s.countDenied p d.toNat
  | _ => s

/-- Whether a requester reaches a register for writing (R63). `rwo` tells that the field is one that partition 0 alone
writes, or a fault-counting set that the page repeats. -/
def State.mayWrite (s : State) (r : Req) (pn off : Nat) (rwo : Bool) : Bool :=
  let p := s.reqPart r
  let b := blockAt pn
  let owner := s.pageOwner pn
  if !s.admitted r then false
  else if isHeader off then
    p = 0 || (bankedInt b && isIntReg off) || (owner = p && !rwo)
  else if b = .dev then p = 0 || decide (R.DEV_INT_SQ_LO ≤ off)
  else if bankedRegs b then p = 0 || !rwo
  else if p = 0 then owner = 0 || rwo
  else owner = p && !rwo

/-- A register write: made where the requester reaches the register, else ignored and counted (R63, R64). A page that the
variant lacks, or a reserved one, ignores writes (R15, R59), and DESIGN CHOICE: such a write is not counted, whoever makes it
(assumption 115). -/
def State.asWrite (s : State) (r : Req) (pn off : Nat) (rwo : Bool) (f : State → State) : State :=
  if !s.admitted r then s.countUnadmitted r
  else if !s.present pn then s
  else if s.mayWrite r pn off rwo then f s
  else s.countIgnored (s.reqPart r) (pn * 4096 + off)

/-- Whether a requester reaches a register for reading (R63). -/
def State.mayRead (s : State) (r : Req) (pn off : Nat) (rwo : Bool) : Bool :=
  let p := s.reqPart r
  let b := blockAt pn
  let owner := s.pageOwner pn
  if !s.admitted r then false
  else if isHeader off then p = 0 || bankedInt b || owner = p
  else if b = .dev || bankedRegs b then true
  else if p = 0 then owner = 0 || rwo
  else owner = p

end Sys2Proof.Machine
end

