-- ==== Sys2Proof/Machine/Space.lean ====
section
/-!
DEFINITION. Scratchpad and device memory: addressing, swizzle windows, check codes, regions and rights (R112 to R121,
R137, R320 to R346), and the local address map (R57).
-/

namespace Sys2Proof.Machine

open Sys2Proof

/-- The answer of an access: what was read, a completion code, or a wait for a unit that is not RUNNING (R108). -/
inductive Got (α : Type) where
  | ok (a : α)
  | fail (code : Nat)
  | wait
deriving DecidableEq, Repr

/-! ### Scratchpad -/

/-- Bytes of a scratchpad (R112). -/
def spadSize : Nat := 0x1800000

/-- Whether a row lies in valid swizzle window n of logical square q, and its shift code (R115). -/
def State.swizzleShift (s : State) (q row : Nat) : Option Nat :=
  ((List.range 8).filterMap (fun n =>
    let base := wbits (s.reg (pgSpd q) (R.SPD_SWZ_BASE + 8 * n)) 9 0
    let cfg := s.reg (pgSpd q) (R.SPD_SWZ_CFG + 8 * n)
    if cfg.getLsbD 31 && decide (base ≤ row) && decide (row < base + wbits cfg 9 0) then some (wbits cfg 18 16)
    else none)).head?

/-- The physical bank of a byte offset (R112, R115): the logical bank, XOR a[s+20:s+15] in a window of shift code s. -/
def State.physBank (s : State) (q a : Nat) : Nat :=
  let bank := bitsOf a 14 9
  match s.swizzleShift q (a / 32768) with
  | some sh => bank ^^^ bitsOf a (sh + 20) (sh + 15)
  | none => bank

/-- The storage place of a byte offset of logical square q. -/
def State.spadKey (s : State) (q a : Nat) : Nat :=
  s.phys q * spadSize + a / 32768 * 32768 + s.physBank q a * 512 + a % 512

/-- What an unlisted scratchpad byte reads as: 0 (assumption 3). -/
def spadDefault (_ : Nat) : Cell := .known 0

/-- A cell's byte. -/
def Cell.byte (addr : Nat) : Cell → Byte
  | .known b => b
  | .unstated n => Config.freeByte n addr

def State.spadCell (s : State) (k : Nat) : Cell := s.squares.spad.get spadDefault k

/-- The number by which a pawn reserves the 64-bit word of a scratchpad cell (R125). -/
def spadReservation (k : Nat) : Nat := 2 ^ 50 + k / 8

/-- A write ends every reservation of the word it reaches. -/
def State.breakReservations (s : State) (r : Nat) : State :=
  (s.squares.pawns.cells.filter (fun c => c.2.reservation = some r)).foldl (fun s c =>
    { s with squares := { s.squares with
      pawns := s.squares.pawns.set (fun _ => Pawn.reset) c.1 { c.2 with reservation := none } } }) s

def State.setSpadCell (s : State) (k : Nat) (c : Cell) : State :=
  { s.breakReservations (spadReservation k) with squares := { (s.breakReservations (spadReservation k)).squares with
    spad := s.squares.spad.set spadDefault k c } }

/-- The ECC mark of a 64-bit word (R118): 0 sound, 1 a single-bit error, 2 uncorrectable. -/
def State.spadMark (s : State) (w : Nat) : Nat := s.squares.spadMark.get (fun _ => 0) w

def State.setSpadMark (s : State) (w m : Nat) : State :=
  { s with squares := { s.squares with spadMark := s.squares.spadMark.set (fun _ => 0) w m } }

/-- `SPD_ECC_LAST` of the event on storage word `w` of logical square q (R146). -/
def State.eccLast (s : State) (q w : Nat) (uncorr : Bool) : State :=
  let k := w * 8 % spadSize
  s.setReg (pgSpd q) R.SPD_ECC_LAST (word (k / 32768 * 2 ^ 16 + b01 uncorr * 128 + k % 32768 / 512))

/-- A read (or a partial write) finds the mark of a word: a single-bit error is corrected, written back and counted against
its bank (R118); an uncorrectable word counts one UNIT_FAULT against the square, if it is the `first` that its access meets
(R119). Answers whether the word can be delivered. -/
def State.spadFind (s : State) (q w : Nat) (first : Bool) : Bool × State :=
  if s.spadMark w = 0 then (true, s)
  else if s.spadMark w = 1 then
    let s1 := (s.setSpadMark w 0).eccLast q w false
    (true, (s1.statusAll (pgSpd q) 4).countFault (errBank q (w * 8 % 32768 / 512)) 1)
  else
    let s1 := (s.eccLast q w true).statusAll (pgSpd q) 5
    (false, if first then s1.unitFault q else s1)

/-- The storage words of a run of bytes. -/
def State.spadWords (s : State) (q a n : Nat) : List Nat :=
  (List.range ((a + n + 7) / 8 - a / 8)).map (fun i => s.spadKey q ((a / 8 + i) * 8) / 8)

/-- Folds `spadFind` over words; all are looked at. -/
def State.spadFindAll (s : State) (q : Nat) (ws : List Nat) : Bool × State :=
  ws.foldl (fun (ok, s) w => let (k, s1) := s.spadFind q w ok; (ok && k, s1)) (true, s)

/-- Reads `n` bytes of logical square q's scratchpad, or ends DATA_LOST (R118, R119). -/
def State.spadRead (s : State) (q a n : Nat) : Got (List Byte) × State :=
  if spadSize < a + n then (.fail cPartitionFault, s)
  else
    let (ok, s1) := s.spadFindAll q (s.spadWords q a n)
    if ok then (.ok ((span a n).map (fun i => (s.spadCell (s.spadKey q i)).byte (s.spadKey q i))), s1)
    else (.fail cDataLost, s1)

/-- Writes the bytes of one 64-bit word: `part` gives each byte's offset and its value. A word that is uncorrectable takes
only a write of all its bytes; `first` tells that the access has met none before (R119). -/
def State.spadWriteWord (s : State) (q : Nat) (first : Bool) (part : List (Nat × Cell)) : Bool × State :=
  match part with
  | [] => (true, s)
  | (a0, _) :: _ =>
    let w := s.spadKey q a0 / 8
    let put (s : State) : State := part.foldl (fun s (a, c) => s.setSpadCell (s.spadKey q a) c) s
    if part.length = 8 then (true, put (s.setSpadMark w 0))
    else
      let (ok, s1) := s.spadFind q w first
      (ok, if ok then put s1 else s1)

/-- Groups consecutive offsets by 64-bit word. -/
def groupWords (a : Nat) (cs : List Cell) : List (List (Nat × Cell)) :=
  let tagged := cs.zipIdx.map (fun (c, i) => (a + i, c))
  (List.range ((a + cs.length + 7) / 8 - a / 8)).map (fun i => tagged.filter (fun x => x.1 / 8 = a / 8 + i))

/-- Writes cells to logical square q's scratchpad (R119): the other words of the access are written even when one is
uncorrectable. -/
def State.spadWriteCells (s : State) (q a : Nat) (cs : List Cell) : Got Unit × State :=
  if spadSize < a + cs.length then (.fail cPartitionFault, s)
  else
    let (ok, s1) := (groupWords a cs).foldl
      (fun (ok, s) g => let (k, s1) := s.spadWriteWord q ok g; (ok && k, s1)) (true, s)
    (if ok then .ok () else .fail cDataLost, s1)

def State.spadWrite (s : State) (q a : Nat) (bs : List Byte) : Got Unit × State :=
  s.spadWriteCells q a (bs.map Cell.known)

/-- The logical square whose name a physical position bears, if any (R141). -/
def State.nameAt (s : State) (p : Nat) : Option Nat := allSquares.find? (fun q => s.phys q = p)

def State.pawnMark (s : State) (i off : Nat) : Nat := s.squares.pawnMark.get (fun _ => 0) ((i * 0x20000 + off) / 8)

def State.setPawnMark (s : State) (i off m : Nat) : State :=
  { s with squares := { s.squares with pawnMark := s.squares.pawnMark.set (fun _ => 0) ((i * 0x20000 + off) / 8) m } }

/-! ### Device memory -/

/-- Bytes of device memory (R57). -/
def State.memSize (s : State) : Nat := s.nStacks * 2 ^ 36


/-- What an unlisted byte of device memory reads as: no stated value (R343). -/
def memDefault (_ : Nat) : Cell := .unstated 0

def State.regionEra (s : State) (x : Nat) : Nat := s.mem.regionEra.get (fun _ => 0) x

/-- A byte of device memory; an unlisted one is free, and another one after its region has changed hands. -/
def State.memByte (s : State) (a : Nat) : Byte :=
  match s.mem.cells.get memDefault a with
  | .known b => b
  | .unstated 0 => Config.freeByte (2 * s.regionEra (a / 2 ^ 30)) (2 ^ 60 + a)
  | .unstated (n + 1) => Config.freeByte (2 * n + 1) (2 ^ 60 + a)

def State.setMemCell (s : State) (a : Nat) (c : Cell) : State :=
  { s with mem := { s.mem with cells := s.mem.cells.set memDefault a c } }

def State.memMark (s : State) (g : Nat) : Nat := s.mem.mark.get (fun _ => 0) g

def State.setMemMark (s : State) (g m : Nat) : State :=
  { s with mem := { s.mem with mark := s.mem.mark.set (fun _ => 0) g m } }

/-- The XOR of the 3-bit groups of q (R322). -/
def xorGroups3 (q : Nat) : Nat := (List.range 8).foldl (fun a i => a ^^^ (q >>> (3 * i) % 8)) 0

/-- The place of granule g with S fitted stacks: stack slot, logical channel and index in the channel (R322). -/
def place (g S : Nat) : Nat × Nat × Nat :=
  let u := g >>> 7
  let q := u / S
  let j := (u % S + xorGroups3 (q % 2 ^ 23)) % S
  let c := (g % 128) ^^^ bitsOf u 6 0 ^^^ bitsOf u 13 7 ^^^ bitsOf u 20 14 ^^^ bitsOf u 25 21
  (j, c, q)

/-- The stack of a granule. -/
def State.granStack (s : State) (g : Nat) : Nat := nth 0 s.sys.variant.stacks (place g s.nStacks).1

/-- The physical channel that serves a logical channel of a stack (R320, R337). -/
def State.servingChan (s : State) (k l : Nat) : Nat :=
  ((List.range 136).find? (fun ch =>
    decide ((s.chan k ch).logical = l) && ((s.chan k ch).st = .serving || (s.chan k ch).st = .copySource))).getD l

def State.granChan (s : State) (g : Nat) : Nat := s.servingChan (s.granStack g) (place g s.nStacks).2.1

/-- Records a channel's event on granule g: corrected symbols, or uncorrectable (R333, R335, R346). -/
def State.chanEvent (s : State) (g symbols : Nat) (uncorr : Bool) : State :=
  let k := s.granStack g
  let ch := s.granChan g
  let pn := pgMch k (ch / 8 + 1)
  let o := 0x20 * (ch % 8)
  let a := g * 64
  let s1 := s.setReg pn (R.MCH_LAST_LO + o) (word a)
  let s2 := s1.setReg pn (R.MCH_LAST_HI + o) (word (a / 2 ^ 32 % 2 ^ 16 + symbols % 4 * 2 ^ 16 + b01 uncorr * 2 ^ 31))
  let bit := if uncorr then 5 else 4
  let s3 := (s2.statusAll pn bit).statusAll (pgMem k) bit
  let s4 := if uncorr then s3.bump pn (R.MCH_UE_COUNT + o) 1 else s3
  s4.countFault (errChan k ch) (if uncorr then 16 else 1)

/-- A read finds a granule's mark: a correctable error is delivered corrected and written back (R333), an uncorrectable
one is not delivered (R334, R335). -/
def State.memFind (s : State) (g : Nat) : Bool × State :=
  let m := s.memMark g
  if m = 0 then (true, s)
  else if m ≤ 2 then (true, (s.setMemMark g 0).chanEvent g m false)
  else (false, s.chanEvent g 0 true)

/-- The granules of a run of bytes. -/
def granules (a n : Nat) : List Nat := span (a / 64) ((a + n + 63) / 64 - a / 64)

/-- The partition of a region; a region cut off belongs to none (R342, R477). -/
def State.regionHeldBy (s : State) (p : Fin 16) (x : Nat) : Bool :=
  s.mem.regionOwner.get (fun _ => 0) x = p && !(s.mem.cutOff.any (fun c => c.1 = x))

/-- Whether a run lies in device memory and in the partition's regions (R342). -/
def State.memAllowed (s : State) (p : Fin 16) (a n : Nat) : Bool :=
  decide (a + n ≤ s.memSize) &&
  (span (a / 2 ^ 30) ((a + n + 2 ^ 30 - 1) / 2 ^ 30 - a / 2 ^ 30)).all (s.regionHeldBy p)

/-- Whether an access can move: every stack that it touches is RUNNING (R345), and the partition holds a memory slot to move
in (R324). -/
def State.memReady (s : State) (p : Fin 16) (a n : Nat) : Bool :=
  decide (0 < s.memSlots p) && (granules a n).all (fun g => s.running (pgMem (s.granStack g)))

/-- A granule as the stack stores it (R340): encrypted with its partition's key pair, the key of its region's present contents,
under its address as the tweak. Nothing outside the controller reads it. -/
def State.storedGranule (s : State) (g : Nat) : List Byte :=
  let x := g / 2 ^ 24
  Config.xts (16 * s.regionEra x + (s.mem.regionOwner.get (fun _ => 0) x).val) (64 * g) ((span (64 * g) 64).map s.memByte)

/-- Reads device memory whose rights have been checked (R331, R334). -/
def State.memReadRaw (s : State) (a n : Nat) : Got (List Byte) × State :=
  let (ok, s1) := (granules a n).foldl (fun (ok, s) g =>
    let (k, s1) := s.memFind g
    (ok && k, s1.bump64 (pgMem (s.granStack g)) R.MEM_RD_LO 1)) (true, s)
  (if ok then .ok ((span a n).map s.memByte) else .fail cDataLost, s1)

/-- Puts cells into granule g, whole or in part: a partial write of an uncorrectable granule leaves it as it was (R335).
`MEM_WR` counts a granule that is written (R344). -/
def State.writeGranule (s : State) (g : Nat) (part : List (Nat × Cell)) : Bool × State :=
  let put (s : State) : State :=
    part.foldl (fun s (x, c) => s.setMemCell x c) (s.bump64 (pgMem (s.granStack g)) R.MEM_WR_LO 1)
  if part.length = 64 then (true, put (s.setMemMark g 0))
  else
    let (k, s1) := s.memFind g
    (k, if k then put s1 else s1)

/-- Writes cells to device memory whose rights have been checked, granule by granule (R335). -/
def State.memWriteRaw (s : State) (a : Nat) (cs : List Cell) : Got Unit × State :=
  let tagged := cs.zipIdx.map (fun (c, i) => (a + i, c))
  let (ok, s1) := (granules a cs.length).foldl (fun (ok, s) g =>
    let (k, s1) := s.writeGranule g (tagged.filter (fun x => x.1 / 64 = g))
    (ok && k, s1)) (true, s)
  (if ok then .ok () else .fail cDataLost, s1)

/-- Reads device memory for a partition: PARTITION_FAULT, counted, outside its regions (R342); waits for a stack that is
not RUNNING (R345) or for a slot (R324). `src` is the scoresheet's subject. -/
def State.memRead (s : State) (p : Fin 16) (src a n : Nat) : Got (List Byte) × State :=
  if !s.memAllowed p a n then (.fail cPartitionFault, s.countDenied p src)
  else if !s.memReady p a n then (.wait, s)
  else s.memReadRaw a n

def State.memWriteCells (s : State) (p : Fin 16) (src a : Nat) (cs : List Cell) : Got Unit × State :=
  if !s.memAllowed p a cs.length then (.fail cPartitionFault, s.countDenied p src)
  else if !s.memReady p a cs.length then (.wait, s)
  else s.memWriteRaw a cs

/-! ### The local map -/

/-- The scratchpad windows' base (R57). -/
def spadBase : Nat := 0x010000000000

/-- The DRS base (R57). -/
def drsBase : Nat := 0xFFFFFF000000

/-- A local address as a place (R57). -/
inductive Place where
  | mem (a : Nat)
  | spad (q a : Nat)
  | drs (off : Nat)
  | unmapped
deriving DecidableEq, Repr

/-- Where a run of `n` bytes at a local address lies; a run that leaves its window is unmapped. -/
def State.placeOf (s : State) (a n : Nat) : Place :=
  if a + n ≤ s.memSize then .mem a
  else if spadBase ≤ a ∧ a < spadBase + 64 * 0x2000000 then
    let q := (a - spadBase) / 0x2000000
    let o := (a - spadBase) % 0x2000000
    if o + n ≤ spadSize then .spad q o else .unmapped
  else if drsBase ≤ a ∧ a + n ≤ 2 ^ 48 then .drs (a - drsBase)
  else .unmapped

/-- What square `home` sends enters the mesh while its MESH page is RUNNING (R108, R140). -/
def State.injects (s : State) (home : Option Nat) : Bool := home.all (fun q => s.running (pgMesh q))

/-- The flits that carry so many bytes over the mesh (R133): at least one, a request or an acknowledgement (DEDUCED, assumption
124). -/
def meshFlits (n : Nat) : Nat := max 1 (ceilDiv n 1024)

/-- Flits that square `home` has sent and received, and those that reached square `dst` and left it (R148). -/
def State.meshTrip (s : State) (home dst : Option Nat) (out back : Nat) : State :=
  let count (s : State) (q : Option Nat) (o i : Nat) : State :=
    match q with
    | some q => (s.bump (pgMesh q) R.MESH_FLITS_OUT o).bump (pgMesh q) R.MESH_FLITS_IN i
    | none => s
  count (count s home out back) dst back out

/-- An access over the mesh has been served, or refused at its destination, and its flits are counted (R148). -/
def meshDone {α : Type} (home dst : Option Nat) (out back : Nat) (x : Got α × State) : Got α × State :=
  match x.1 with
  | .wait => x
  | .ok _ => (x.1, x.2.meshTrip home dst out back)
  | .fail _ => (x.1, x.2.meshTrip home none out 1)

/-- Reads a local address for a partition. `home` is the square whose own ports make the access: it reaches its own
scratchpad directly; any other access goes through the mesh, and waits while the sending square's MESH page or the reached
square's is not RUNNING (R108, R140); a square serves its owner's partition alone (R137). Registers are not reached this way
(assumption 31). -/
def State.localRead (s : State) (p : Fin 16) (home : Option Nat) (src a n : Nat) : Got (List Byte) × State :=
  match s.placeOf a n with
  | .mem a => if s.injects home then meshDone home none 1 (meshFlits n) (s.memRead p src a n) else (.wait, s)
  | .spad q o =>
    if home = some q then s.spadRead q o n
    else if !s.injects home then (.wait, s)
    else if s.sqOwner q ≠ p then meshDone home none 1 1 (.fail cPartitionFault, s.countDenied p src)
    else if !s.running (pgMesh q) then (.wait, s)
    else meshDone home (some q) 1 (meshFlits n) (s.spadRead q o n)
  | _ => (.fail cPartitionFault, s.countDenied p src)

def State.localWriteCells (s : State) (p : Fin 16) (home : Option Nat) (src a : Nat) (cs : List Cell) :
    Got Unit × State :=
  match s.placeOf a cs.length with
  | .mem a =>
    if s.injects home then meshDone home none (meshFlits cs.length) 1 (s.memWriteCells p src a cs) else (.wait, s)
  | .spad q o =>
    if home = some q then s.spadWriteCells q o cs
    else if !s.injects home then (.wait, s)
    else if s.sqOwner q ≠ p then meshDone home none (meshFlits cs.length) 1 (.fail cPartitionFault, s.countDenied p src)
    else if !s.running (pgMesh q) then (.wait, s)
    else meshDone home (some q) (meshFlits cs.length) 1 (s.spadWriteCells q o cs)
  | _ => (.fail cPartitionFault, s.countDenied p src)

def State.localWrite (s : State) (p : Fin 16) (home : Option Nat) (src a : Nat) (bs : List Byte) : Got Unit × State :=
  s.localWriteCells p home src a (bs.map Cell.known)

/-- Whether a partition may reach a run of local addresses, as validation asks (R137, R342). -/
def State.localAllowed (s : State) (p : Fin 16) (a n : Nat) : Bool :=
  match s.placeOf a n with
  | .mem a => s.memAllowed p a n
  | .spad q _ => s.sqOwner q = p
  | _ => false

/-- Cells of a fresh unstated value: what a destination holds whose contents the spec leaves open (R41, R168, R217). -/
def openCells (occasion n : Nat) : List Cell := List.replicate n (.unstated occasion)

end Sys2Proof.Machine
end

