-- ==== Sys2Proof/Machine/Checks.lean ====
section
/-!
DEFINITION. The checks a request meets at its destination before its address (R428, R430), and the NACK that answers a
failure.
-/

namespace Sys2Proof.Machine

open Sys2Proof

/-- What the epoch and peer checks say of an arriving request (R428, R430). -/
inductive Verdict where
  | ok
  | held
  | refused (code : Nat)
deriving DecidableEq, Repr

/-- A request dropped as STALE_EPOCH (R430, R443). -/
def State.countStale (s : State) (p : Packet) : State :=
  let s1 := (s.bump pgRte R.RTE_STALE 1).setReg pgRte R.RTE_LAST_DROP (word (4 * 2 ^ 24 + p.src.toNat))
  (s1.statusAll pgRte 5).countDenied p.part p.src.toNat

/-- The peer list's answer (R428, R475): this device's own traffic needs no entry. A failure is counted. -/
def State.peerVerdict (s : State) (p : Packet) : Verdict × State :=
  if p.src = s.devId || s.peerOk p.part p.src.toNat then (.ok, s)
  else (.refused cPartitionFault, s.countDenied p.part p.src.toNat)

/-- Whether a packet's epoch lies below its source group's entry, or above it (R430). -/
def State.staleEpoch (s : State) (p : Packet) : Bool := decide (p.epoch.toNat < (s.epochOf (devGroup p.src)).toNat)
def State.newerEpoch (s : State) (p : Packet) : Bool := decide ((s.epochOf (devGroup p.src)).toNat < p.epoch.toNat)

/-- The epoch check: a request of a newer epoch is held with the time it arrived (R430). -/
def State.epochVerdict (s : State) (p : Packet) : Verdict × State :=
  if s.staleEpoch p then (.refused cStaleEpoch, s.countStale p)
  else if s.newerEpoch p then
    (.held, { s with fab := { s.fab with epochHeld := s.fab.epochHeld ++ [⟨p, s.now⟩] } })
  else (.ok, s)

/-- The epoch check, then the peer list (R428). -/
def State.verdict (s : State) (p : Packet) : Verdict × State :=
  match s.epochVerdict p with
  | (.ok, s1) => s1.peerVerdict p
  | r => r

/-- An answer to a request: back to its source, with its tag, stream, address and ARG; a request of this device has it at
once. -/
def State.answer (s : State) (type : Byte) (q : Packet) (code : Nat) (bs : List Byte) : State :=
  if q.src = s.devId then (if type = ptNack then s.failTx q.tag.toNat code else s.giveTx q.tag.toNat bs)
  else
  let a := withPayload (s.mkPacket type q.part q.src) bs
  s.sendOrFail { a with
    det := q.det, tag := q.tag, stream := q.stream, addr := q.addr, arg := q.arg, remain := q.remain
    code := BitVec.ofNat 8 code }

/-- NACK with a code (R428). -/
def State.nack (s : State) (q : Packet) (code : Nat) : State := s.answer ptNack q code []

/-- Runs `f` on a request that passes the checks of R428; a request that fails them is answered with NACK, and one held
for a newer epoch waits (R430). -/
def State.checked (s : State) (q : Packet) (f : State → State) : State :=
  match s.verdict q with
  | (.ok, s1) => f s1
  | (.held, s1) => s1
  | (.refused code, s1) => s1.nack q code

end Sys2Proof.Machine
end

