-- ==== Sys2Proof/Machine/Links.lean ====
section
/-!
DEFINITION. The links (R404 to R418, R441, R442, R572): bring-up and retraining, flits with their acceptance, replay and
keys. What a received packet does stands in `Deliver`.
-/

namespace Sys2Proof.Machine

open Sys2Proof

/-- `LNK_STATUS.LSTATE` as a number (R441). -/
def LState.code : LState → Nat
  | .down => 0
  | .detect => 1
  | .train => 2
  | .align => 3
  | .keying => 4
  | .up => 5
  | .retrain => 6

/-- Flits a list of kept flits belongs to, one packet each: the packets with an unacknowledged flit, in order. -/
def keptPackets : List KeptFlit → List Packet
  | [] => []
  | [f] => [f.packet]
  | f :: g :: t => if f.packet = g.packet then keptPackets (g :: t) else f.packet :: keptPackets (g :: t)

/-- Gives a link's fields a new state; DOWN is set when LSTATE leaves UP (R442), and the packets of its replay buffer leave
over the next candidate, before those that wait behind them (R426); they have not crossed it, so that HOPS is theirs again. -/
def State.linkTo (s : State) (n : Nat) (l : Link) : State :=
  let old := s.link n
  if old.st = .up ∧ l.st ≠ .up then
    let s1 := (s.setLink n { l with replay := [], rx := [], waiting := [] }).statusAll (pgLnk n) 5
    (((keptPackets old.replay).map (fun p => { p with hops := p.hops - 1 })).foldl State.sendOrFail s1).sendHeld old.waiting
  else s.setLink n l

/-- The link goes DOWN without its keys. -/
def State.linkOff (s : State) (n : Nat) : State :=
  let l := s.link n
  s.linkTo n { l with st := .down, keyed := false, oldKey := false, discarding := false }

/-- Lanes that stay out of use: those whose count was declared lasting (R407) and those that failed the start-up test
(R576), until the next cold start (R567). -/
def State.laneRetired (s : State) (n k : Nat) : Bool := s.fab.lanesOut.get (fun _ => false) (4 * n + k)

/-- The lanes of a training that may work. -/
def State.lanesOf (s : State) (n : Nat) (lanes : BitVec 4) : BitVec 4 :=
  BitVec.ofNat 4 (((List.range 4).filter (fun k => lanes.getLsbD k && !s.laneRetired n k)).map (fun k => 2 ^ k)).sum

/-- The Arbiter's verdict on its peer during keying (R490): the certificate chain, and where `PEER_DEBUG_REFUSE` is 1 its lifecycle and
debug state as well. -/
def State.peerPasses (s : State) (t : Training) : Bool :=
  t.chain && (!(s.reg pgRot R.ROT_POLICY).getLsbD 0 || (t.locked && !t.opened))

/-- A training has run on a link whose page is STARTING (R406). The link stays in the step that fewer than two lanes pass, of
DETECT, TRAIN and ALIGN; it is held after ALIGN while `DEV_ID.VALID` is 0 (R83, R572); then it records its peer, and a peer
that fails the checks of R490 leaves it in KEYING and is counted; no link completes keying on a decommissioned device
(R482). -/
def State.linkTrained (s : State) (n : Nat) (t : Training) : State :=
  let pn := pgLnk n
  let found := s.lanesOf n t.detect
  let trained := found &&& t.train
  let aligned := trained &&& t.lanes
  let few (x : BitVec 4) : Bool := decide (popCount 4 x.toNat < 2)
  let s0 := s.bump pn R.LNK_TRAINS 1
  let l := { s0.link n with
    laneOk := aligned, pol := t.polarity, order := t.order, keyed := false,
    txSeq := 0, lastAcc := 4095, discarding := false, replay := [], rx := [], txFlits := 0, oldKey := false, waived := false
    badBlock := none }
  let known := { l with peerDev := t.peerDev, peerLink := t.peerLink }
  if few found then s0.linkTo n { l with st := .detect, laneOk := found }
  else if few trained then s0.linkTo n { l with st := .train, laneOk := trained }
  else if few aligned || !s0.devIdValid then s0.linkTo n { l with st := .align }
  else if !s.peerPasses t || s0.rot.lifecycle = 3 then
    let s1 := s0.linkTo n { known with st := .keying }
    if s.peerPasses t then s1 else s1.record 0x14 0 n 1
  else
    let s1 := s0.setLink n { known with st := .up, keyed := true }
    let p := s1.page pn
    s1.toPage pn { p with st := if p.enable then .running else .draining }

/-- LINK_BRING_UP (R406). -/
def execLinkBringUp (n : Fin 64) (t : Training) (s : State) : Host.Outcome State Fault Refusal :=
  done s (if s.linkFitted n.val && (s.page (pgLnk n.val)).st = .starting then s.linkTrained n.val t else s)

/-- DETECT_TIMEOUT (R572): the link has spent 1 s in DETECT and no longer holds step 8; it keeps trying. -/
def execDetectTimeout (n : Fin 64) (s : State) : Host.Outcome State Fault Refusal :=
  let l := s.link n.val
  done s (if s.linkFitted n.val && (s.page (pgLnk n.val)).st = .starting then
    s.setLink n.val { l with st := .detect, waived := true } else s)

/-- LINK_RETRAIN (R407): after a lane retirement, steps 3 and 4 on the lanes that remain, keys kept; with fewer than two, the
page is RETIRED. After eight replays of one flit, or a re-enable, the whole bring-up. -/
def State.linkRetrain (s : State) (n : Nat) (t : Training) : State :=
  let pn := pgLnk n
  let l := s.link n
  let left := s.lanesOf n (l.laneOk &&& t.lanes)
  let lost := (List.range 4).any (fun k => l.laneOk.getLsbD k && s.laneRetired n k)
  if l.st = .up ∧ lost then
    let s1 := s.linkTo n { l with st := .retrain, laneOk := left }
    if popCount 4 left.toNat < 2 then (s1.setLink n { s1.link n with st := .down, keyed := false }).retirePage pn
    else
      let s2 := s1.setLink n { s1.link n with
        st := .up, pol := t.polarity, order := t.order, peerDev := t.peerDev, peerLink := t.peerLink }
      (s2.bump pn R.LNK_TRAINS 1).statusAll pn 4
  else if l.st = .up ∧ l.replay.any (fun f => decide (8 ≤ f.tries)) then
    let s1 := s.linkTo n { l with st := .retrain, keyed := false }
    (s1.toPage pn { s1.page pn with st := .starting }).linkTrained n t
  else if (s.page pn).st = .starting then s.linkTrained n t
  else s

def execLinkRetrain (n : Fin 64) (t : Training) (s : State) : Host.Outcome State Fault Refusal :=
  done s (if s.linkFitted n.val then s.linkRetrain n.val t else s)

/-! ### Flits (R409 to R412) -/

/-- An ACK_SEQ covers the flits up to its own (R411). -/
def ackedBy (ack : Nat) (fs : List KeptFlit) : List KeptFlit :=
  if fs.any (fun f => f.seq = ack) then (fs.dropWhile (fun f => f.seq ≠ ack)).drop 1 else fs

/-- Discards a flit; the first of a run is answered by a NAK (R410). -/
def State.discardFlit (s : State) (n : Nat) : State :=
  let l := s.link n
  if l.discarding then s
  else { s.setLink n { l with discarding := true } with out := s.out ++ [.nak n l.lastAcc] }

/-- A block that does not decode counts against the lanes whose parity byte failed, or against every live lane (R412): once,
though each of its five flits arrives as one of it (R408). -/
def State.countFrame (s : State) (n : Nat) (f : Flit) : State :=
  let l := s.link n
  let hit := if f.badLanes &&& l.laneOk = 0 then l.laneOk else f.badLanes &&& l.laneOk
  if l.badBlock = some f.block then s
  else ((List.range 4).filter (fun k => hit.getLsbD k)).foldl (fun s k => s.countFault (errLane n k) 1)
    (s.setLink n { l with badBlock := some f.block })

/-- Takes whole packets from the front of a byte stream; `fuel` at most. -/
def takePackets : Nat → List Byte → List Packet × List Byte
  | 0, bs => ([], bs)
  | f + 1, bs =>
    match decodePacket bs with
    | none => ([], bs)
    | some (p, rest) =>
      let (ps, left) := takePackets f rest
      (p :: ps, left)

/-- The bytes received of a partition's unfinished packet. -/
def Link.rxOf (l : Link) (p : Fin 16) : List Byte := ((l.rx.find? (fun x => x.1 = p)).map (·.2)).getD []

/-- What a received flit does to the link; the answer is the packets it completes (R410 to R412, R415, R421). -/
def State.flitArrives (s : State) (n : Nat) (f : Flit) : List Packet × State :=
  let l := s.link n
  let pn := pgLnk n
  if l.st ≠ .up then ([], s)
  else if !f.decoded then ([], (s.countFrame n f).discardFlit n)
  else if !f.tagOk then ([], ((s.bump pn R.LNK_TAG_FAIL 1).statusAll pn 6).discardFlit n)
  else if f.seq ≠ (l.lastAcc + 1) % 4096 then ([], s.discardFlit n)
  else
    let turned := decide (f.key ≠ l.rxPhase)
    let l1 := { l with
      lastAcc := f.seq, discarding := false, replay := ackedBy f.ack l.replay, rxPhase := f.key
      oldKey := l.oldKey && !turned }
    let s1 := s.setLink n l1
    let s2 := if turned then (s1.bump pn R.LNK_REKEYS 1).statusAll pn 7 else s1
    if f.ftype ≠ 1 then ([], s2.takeRoom n)
    else
      let bs := l1.rxOf f.part ++ f.bytes
      let (ps, left) := takePackets bs.length bs
      let rx := l1.rx.filter (fun x => x.1 ≠ f.part)
      let s3 := s2.setLink n { l1 with rx := if left.isEmpty then rx else (f.part, left) :: rx }
      (ps, (s3.bump64 pn R.LNK_RX_LO 1).takeRoom n)

/-- NAK (R411): the flits up to ACK_SEQ are acknowledged, and every other one is resent in order. -/
def State.nakArrives (s : State) (n seq : Nat) : State :=
  let l := s.link n
  if l.st ≠ .up then s
  else
    let kept := ackedBy seq l.replay
    let s1 := s.setLink n { l with replay := kept.map (fun f => { f with tries := f.tries + 1 }) }
    let s2 := s1.bump (pgLnk n) R.LNK_REPLAYS kept.length
    ({ s2 with out := s2.out ++ kept.map (fun f => .flit n f.seq) } : State).takeRoom n

def execNak (n : Fin 64) (seq : Nat) (s : State) : Host.Outcome State Fault Refusal := done s (s.nakArrives n.val seq)

/-- REKEY (R415): the sending direction takes a new key at a flit boundary; in the receiving direction the receiver holds both
keys until a flit of the new phase verifies. -/
def State.rekey (s : State) (n : Nat) (tx : Bool) : State :=
  let l := s.link n
  if l.st ≠ .up then s
  else if tx then
    ((s.setLink n { l with txPhase := !l.txPhase, txFlits := 0 }).bump (pgLnk n) R.LNK_REKEYS 1).statusAll (pgLnk n) 7
  else s.setLink n { l with oldKey := true }

def execRekey (n : Fin 64) (tx : Bool) (s : State) : Host.Outcome State Fault Refusal := done s (s.rekey n.val tx)

/-! ### Leaving over a page's drain (R442) -/

/-- A link sends all that it holds: its replay buffer is acknowledged, as often as the waiting packets need its places. -/
def State.linkSendsAll (n : Nat) : Nat → State → State
  | 0, s => s
  | f + 1, s =>
    let s1 := s.setLink n { s.link n with replay := [] }
    if (s1.link n).waiting.isEmpty then s1 else State.linkSendsAll n f (s1.takeRoom n)

/-- The link's page has ended its drain: with DRAIN 1 it has sent what it held, with DRAIN 0 the router sends it over the next
candidate; then the link is DOWN. -/
def State.linkDrained (s : State) (n : Nat) : State :=
  if (s.page (pgLnk n)).drain then (State.linkSendsAll n ((s.link n).waiting.length + 1) s).linkOff n else s.linkOff n

end Sys2Proof.Machine
end

