-- ==== Sys2Proof/Machine/MemOps.lean ====
section
/-!
DEFINITION. What the memory controllers and port 7 do of their own accord: scrubs (R120, R336), refresh (R326, R327),
accesses at the controller (R331, R342, R345), the end of a spare copy (R337) and of a region overwrite (R343).
-/

namespace Sys2Proof.Machine

open Sys2Proof

/-- SCRATCHPAD_SCRUB: the next row of the next bank is read; a single-bit error is corrected and counted (R118, R120), an
uncorrectable word stays as it is. "Bank-then-row order" is read as bank by bank, each from row 0 to 767 (DEDUCED, assumption
122). A position that bears no name has no page to count on. Nothing is scrubbed while `SPD_SCRUB.ENABLE` is 0. A scrub of a bank whose
turn it is not is ruled out and changes nothing (DESIGN CHOICE, assumption 8). -/
def execScratchpadScrub (p : Fin 72) (bank : Fin 64) (s : State) : Host.Outcome State Fault Refusal :=
  let at' := s.squares.scrubPos.get (fun _ => 0) p.val
  let ws := span ((p.val * spadSize + at' % 768 * 32768 + at' / 768 * 512) / 8) 64
  let moved := { s with squares := { s.squares with
    scrubPos := s.squares.scrubPos.set (fun _ => 0) p.val ((at' + 1) % 49152) } }
  if at' / 768 ≠ bank.val then done s s else
  match s.nameAt p.val with
  | none => done s (ws.foldl (fun s w => if s.spadMark w = 1 then s.setSpadMark w 0 else s) moved)
  | some q =>
    if !(s.reg (pgSpd q) R.SPD_SCRUB).getLsbD 0 then done s s
    else done s (ws.foldl (fun s w => if s.spadMark w = 1 then (s.spadFind q w true).2 else s) moved)

/-- The granule of index q on logical channel c of stack slot j, the inverse of `place` (R322): line u = q × S + r with
r = (j − h) mod S. -/
def granuleOf (S j c q : Nat) : Nat :=
  let r := (j + S * 8 - xorGroups3 (q % 2 ^ 23)) % S
  let u := q * S + r
  u * 128 + (c ^^^ bitsOf u 6 0 ^^^ bitsOf u 13 7 ^^^ bitsOf u 20 14 ^^^ bitsOf u 25 21)

/-- The slot of a stack among those fitted. -/
def State.stackSlot (s : State) (k : Nat) : Nat := (s.sys.variant.stacks.findIdx? (· = k)).getD 0

/-- The marks that a scrub of granule index `i` finds on a physical channel. -/
def State.scrubHits (s : State) (k ch i : Nat) : List Nat :=
  s.mem.mark.keys.filter (fun g => s.granStack g = k && s.granChan g = ch && (place g s.nStacks).2.2 = i)

/-- The patrol scrub reads the next granule of one channel (R336). A channel whose maintenance slot serves a copy waits (R328,
R329), and one that bears no logical name has nothing to read. -/
def State.scrubChan (k : Nat) (s : State) (ch : Nat) : State :=
  if (s.chan k ch).st ≠ .serving then s
  else
    let key := k * 136 + ch
    let i := s.mem.scrubPos.get (fun _ => 0) key
    let s1 := (s.scrubHits k ch i).foldl (fun s g => (s.memFind g).2) s
    { s1 with mem := { s1.mem with scrubPos := s1.mem.scrubPos.set (fun _ => 0) key ((i + 1) % 2 ^ 23) } }

/-- PATROL_SCRUB: one granule of each channel of a stack, in ascending index; errors are found and counted as R333 and R335
do, and no command ends (R336). Scrub runs in every state but OFF (R345); while a region is overwritten, which takes the
maintenance slots of every channel, it waits (R328, R329). -/
def execPatrolScrub (k : Fin 8) (s : State) : Host.Outcome State Fault Refusal :=
  done s (if s.stackFitted k.val && (s.reg (pgMem k.val) R.MEM_SCRUB).getLsbD 16 && s.pstate (pgMem k.val) ≠ .off
      && s.mem.cutOff.isEmpty then
    (List.range 136).foldl (State.scrubChan k.val) s
  else s)

/-- REFRESH: the controller reports the stack's temperature and the share measured, which is free up to its maximum (R326,
R344); above 95 °C the maximum doubles, and as the temperature passes it HOT is set and the event counted (R327). -/
def execRefresh (k : Fin 8) (temp : Nat) (s : State) : Host.Outcome State Fault Refusal :=
  if s.stackFitted k.val && s.pstate (pgMem k.val) ≠ .off then
    let old := s.reg (pgMem k.val) R.MEM_REFRESH
    let t := min temp 255
    let (n, s1) := s.fresh
    let share := Config.freeNat n 0 % (if 95 < t then 157 else 79)
    let s2 := s1.setReg (pgMem k.val) R.MEM_REFRESH (wput (wput old 31 24 t) 7 0 share)
    if 95 < t ∧ wbits old 31 24 ≤ 95 then done s ((s2.statusAll (pgMem k.val) 8).record 8 0 k.val t) else done s s2
  else done s s

/-- Serves one access at the controllers and sends its answer (R331, R334, R335, R342). -/
def State.serveAccess (s : State) (h : HeldAccess) : Bool × State :=
  let answer (s : State) (code : Nat) (bs : List Byte) : State := { s with out := s.out ++ [.memory h.part h.addr code bs] }
  match h.data with
  | none =>
    match s.memRead h.part s.devId.toNat h.addr h.size with
    | (.ok bs, s1) => (true, answer s1 cDone bs)
    | (.fail c, s1) => (true, answer s1 c [])
    | (.wait, s1) => (false, s1)
  | some bs =>
    match s.memWriteCells h.part s.devId.toNat h.addr (bs.map Cell.known) with
    | (.ok _, s1) => (true, answer s1 cDone [])
    | (.fail c, s1) => (true, answer s1 c [])
    | (.wait, s1) => (false, s1)

/-- Serves the held accesses whose stacks are RUNNING (R345), in order. -/
def State.serveHeld (s : State) : State :=
  s.mem.held.foldl (fun s h =>
    let (served, s1) := s.serveAccess h
    if served then s1 else { s1 with mem := { s1.mem with held := s1.mem.held ++ [h] } })
    { s with mem := { s.mem with held := [] } }

/-- The held accesses of a stack are discarded and end ABORTED (R345, `CTRL.DRAIN` = 0). -/
def State.discardHeld (s : State) (k : Nat) : State :=
  let mine (h : HeldAccess) : Bool := (granules h.addr h.size).any (fun g => s.granStack g = k)
  { s with
    mem := { s.mem with held := s.mem.held.filter (fun h => !mine h) }
    out := s.out ++ (s.mem.held.filter mine).map (fun h => .memory h.part h.addr cAborted []) }

/-- MEMORY_ACCESS: a read of `size` bytes, or a write of the bytes given, for a partition; it waits while a stack it needs is
not RUNNING (R345). -/
def execMemoryAccess (part : Fin 16) (addr : BitVec 48) (size : Nat) (write : Option (List Byte)) (s : State) :
    Host.Outcome State Fault Refusal :=
  let h : HeldAccess := ⟨part, addr.toNat, (write.map List.length).getD size, write⟩
  let (served, s1) := s.serveAccess h
  done s (if served then s1 else { s1 with mem := { s1.mem with held := s1.mem.held ++ [h] } })

/-- SPARE_COPY_DONE: the spare holds every granule, corrected where possible; the logical name moves to it, the source is
RETIRED, the phase is ACTIVE and PROMOTION_DONE is set (R337). A stack that is OFF copies nothing (R345). -/
def execSpareCopyDone (k spare : Fin 8) (s : State) : Host.Outcome State Fault Refusal :=
  let x := s.spare k.val spare.val
  if x.phase = 1 ∧ s.pstate (pgMem k.val) ≠ .off then
    let fixed := s.mem.mark.keys.filter (fun g =>
      s.granStack g = k.val && (place g s.nStacks).2.1 = x.logical && s.memMark g ≤ 2)
    let s1 := fixed.foldl (fun s g => s.setMemMark g 0) s
    let s2 := (s1.setChan k.val x.source ⟨.retired, x.logical⟩).setChan k.val (128 + spare.val) ⟨.serving, x.logical⟩
    let s3 := s2.setSpare k.val spare.val { x with phase := 2, progress := 2 ^ 23 - 1 }
    done s ((s3.statusAll (pgMem k.val) 6).statusAll (pgMch k.val (x.source / 8 + 1)) 6)
  else done s s

/-- A region's key is destroyed (R343): its cells read as unlisted under a new era. What the stack stores stays, and with it every
granule that is wrong (R335). -/
def State.cryptoErase (s : State) (x : Nat) : State :=
  { s with mem := { s.mem with
      cells := s.mem.cells.keep (fun a => decide (a / 2 ^ 30 ≠ x))
      regionEra := s.mem.regionEra.set (fun _ => 0) x (s.regionEra x + 1) } }

/-- A region is overwritten (R343): its cells read as unlisted under a new era, and its granules are sound. -/
def State.renewRegion (s : State) (x : Nat) : State :=
  let outside (a : Nat) : Bool := decide (a / 2 ^ 30 ≠ x)
  { s with mem := { s.mem with
      cells := s.mem.cells.keep outside
      mark := s.mem.mark.keep (fun g => outside (g * 64))
      regionEra := s.mem.regionEra.set (fun _ => 0) x (s.regionEra x + 1) } }

/-- REGION_OVERWRITE_DONE: the overwrite of the region now overwritten completes, and the region passes to its new holder
(R343, R477). Every stack takes part in it, so none may be OFF (R345). -/
def execRegionOverwriteDone (region : Fin 512) (s : State) : Host.Outcome State Fault Refusal :=
  match s.mem.cutOff with
  | (x, p) :: rest =>
    if x = region.val ∧ s.sys.variant.stacks.all (fun k => s.pstate (pgMem k) ≠ .off) then
      let s1 := s.renewRegion x
      done s { s1 with mem := { s1.mem with
        cutOff := rest
        regionOwner := s1.mem.regionOwner.set (fun _ => 0) x p } }
    else done s s
  | [] => done s s

end Sys2Proof.Machine
end

