-- ==== Sys2Proof/Machine/Queue.lean ====
section
/-!
DEFINITION. Engines and their queues: which command an engine starts next (R132, R381, R388), and the words of a command.
-/

namespace Sys2Proof.Machine

open Sys2Proof

/-- Word `i` of a command's body, as a number (0 beyond its end). -/
def wd (ws : List DWord) (i : Nat) : Nat := (nth 0#64 ws i).toNat

/-- A command's price (R185, R221, R245, R317, R371): beats, extra nanoseconds, its device-memory runs (how many,
the granules of each, and whether they are written), its link bytes (one entry for a command priced on one link, one a link
for a collective) and the devices it reaches over links. -/
structure Cost where
  beats : Nat
  ns : Nat
  runs : List (Nat × Nat × Bool)
  lbytes : List Nat
  dests : List (BitVec 16)
deriving DecidableEq, Repr

def Cost.ofBeats (b : Nat) : Cost := ⟨b, 0, [], [], []⟩

/-- The margin of 1/128 that every cost formula adds (R185). -/
def withMargin (base : Nat) : Nat := base + ceilDiv base 128

/-- The engine a target, square and unit name (R387), as a number: matrix engines 8q and 8q + 1, vector engines 8q + 2 and
8q + 3, the mover 8q + 4, port 5 at 8q + 5; the update units 512, the collective engine 513, the scheduler 514. -/
def engineNo (target square unit : Nat) : Nat :=
  if target = tMxe then 8 * square + unit
  else if target = tVxe then 8 * square + 2 + unit
  else if target = tMov then 8 * square + 4
  else if target = tSft then 8 * square + 5
  else if target = tUpd then 512
  else if target = tCol then 513
  else 514

/-- The number of an engine operand; a mover's channels are one engine (R388). -/
def engineNum : Engine → Nat
  | .mxe q u => engineNo tMxe q.val u.val
  | .vxe q u => engineNo tVxe q.val u.val
  | .mov q _ => engineNo tMov q.val 0
  | .sft q => engineNo tSft q.val 0
  | .upd => 512
  | .col => 513
  | .sch => 514

def Job.engine (j : Job) : Nat := engineNo j.target j.square j.unit

/-! ### Time controls (R384, R387) -/

/-- A time control at reset (R384): no units. -/
def Tc.reset : Tc := ⟨0, 0, 0, 0, 0, 0, 0, 0, 0, 0, 0⟩

def State.tc (s : State) (n : Nat) : Tc := s.sch.tcs.get (fun _ => Tc.reset) n

def State.setTc (s : State) (n : Nat) (t : Tc) : State :=
  { s with sch := { s.sch with tcs := s.sch.tcs.set (fun _ => Tc.reset) n t } }

/-- Whether a time control holds a square's engines (R384). -/
def Tc.hasSquare (t : Tc) (q : Nat) : Bool := bitOf t.squares.toNat q

/-- Units on a target's engine (R387): none on a square that SQUARES does not name. -/
def Tc.units (t : Tc) (target square : Nat) : Nat :=
  if target = tUpd then t.uUpd
  else if target = tCol then t.uCol
  else if !t.hasSquare square then 0
  else if target = tMxe then t.uMe
  else if target = tVxe then t.uVe
  else if target = tMov then t.uMov
  else if target = tSft then t.uSft
  else 0

/-! ### Entries of a queue (R153, R191, R388) -/

/-- The SEG_REPLAY that a recorded command belongs to. -/
def Job.replayOf (j : Job) : Option Nat :=
  match j.origin with
  | .replay parent => some parent
  | _ => none

/-- The entries that some commands hold: one each, but one together for the recorded commands of one replay (DESIGN CHOICE,
assumption 132). -/
def entryCount (js : List Job) : Nat :=
  (js.filter (fun j => j.replayOf.isNone)).length + ((js.filterMap Job.replayOf).eraseDups).length

/-- Whether a command is an update whose ORTHO products use a matrix engine (R360, R366). -/
def Job.orthoOn (e : Nat) (j : Job) : Bool :=
  j.target = tUpd && bitsOf (wd j.prog 0) 1 0 = 3 && !bitOf (wd j.prog 0) 3 && decide (e % 8 < 2) && bitOf (wd j.prog 13) (e / 8)

/-- Whether a command is a tile of an update's products. -/
def Job.ofUnit (j : Job) : Bool :=
  match j.origin with
  | .unit _ => true
  | _ => false

/-- Entries of a time control's queue on an engine that are taken, each until its command has completed (R388). An ORTHO update holds
one on each of its matrix engines, for its tiles (DESIGN CHOICE, assumption 136). -/
def State.entriesOf (s : State) (tcn e : Nat) : Nat :=
  let mine := s.sch.jobs.filter (fun j => decide (j.tc = tcn))
  entryCount (mine.filter (fun j => decide (j.engine = e) && !j.ofUnit)) + (mine.filter (Job.orthoOn e)).length

/-- Entries of a vector engine's program store that are taken: each until its program has completed (R191). -/
def State.programsOf (s : State) (e : Nat) : Nat := entryCount (s.sch.jobs.filter (fun j => decide (j.engine = e)))

/-- Whether a time control has a free entry for a target's engine: of the program store, or of its own queue. Collectives and
scheduler commands need none; a time control without units is not held, but refused (R191, R388, R462). -/
def State.entryFree (s : State) (tcn target square unit : Nat) : Bool :=
  let e := engineNo target square unit
  let u := (s.tc tcn).units target square
  if target = tCol ∨ target = tSch ∨ u = 0 then true
  else if target = tVxe then decide (s.programsOf e < 16)
  else decide (s.entriesOf tcn e < u)

/-- The page that governs a target's engine. -/
def enginePage (target square unit : Nat) : Nat :=
  if target = tMxe then pgMxe square unit
  else if target = tVxe then pgVxe square unit
  else if target = tMov then pgMov square
  else if target = tSft then pgSft square
  else if target = tCol then pgCol
  else pgSch

/-- Whether a command may start: no earlier accepted command of its context is outstanding (R381); the commands of a
SEG_REPLAY wait only for one another (R399), and an update's tiles for nothing. -/
def State.eligible (s : State) (j : Job) : Bool :=
  j.ofUnit || s.sch.jobs.all (fun k =>
    !(decide (k.id < j.id) && decide (k.ctx = j.ctx) &&
      (match j.origin with
        | .replay parent => decide (k.id ≠ parent)
        | _ => true)))

/-- Commands waiting on an engine that satisfy `p`, in order of admission; an update's tiles, which it has been charged for, stand
first (DESIGN CHOICE, assumption 136). -/
def State.waiting (s : State) (e : Nat) (p : Job → Bool) : List Job :=
  let js := s.sch.jobs.filter (fun j => decide (j.engine = e) && decide (j.phase = .queued) && p j)
  js.filter Job.ofUnit ++ js.filter (fun j => !j.ofUnit)

/-- The head command of each time control that has work waiting on the engine (R132). -/
def headsOf : List Nat → List Job → List Job
  | _, [] => []
  | seen, j :: t => if seen.contains j.tc then headsOf seen t else j :: headsOf (j.tc :: seen) t

/-- The least of some commands by their finish in the fluid schedule; the earlier admitted of equals. -/
def firstFinish : List Job → Option Job
  | [] => none
  | j :: t =>
    match firstFinish t with
    | none => some j
    | some k => if k.ff < j.ff then some k else some j

/-- Units per nanosecond of the fluid schedule: beats / 1.45 × 64 / U is exact in these units for every U up to 64. -/
def fluidScale : Nat := 29 * ((List.range 64).foldl (fun a i => Nat.lcm a (i + 1)) 1)

/-- The time a command of `beats` takes in the fluid schedule of a time control that holds `u` units (R388). -/
def fluidTime (beats u : Nat) : Nat := if u = 0 then 0 else beats * 64 * 20 * (fluidScale / 29) / u

/-- The command an engine starts next (R388): among the eligible heads whose start in the fluid schedule has passed, the
one that would finish first; when no start has passed, among all of them (assumption 32). -/
def State.nextFor (s : State) (e : Nat) (p : Job → Bool) : Option Job :=
  let heads := (headsOf [] (s.waiting e p)).filter s.eligible
  match firstFinish (heads.filter (fun j => decide (j.fs ≤ s.now * fluidScale))) with
  | some j => some j
  | none => firstFinish heads

/-- The fluid schedule's last finish of a time control on an engine (R388). -/
def State.fluidLast (s : State) (tcn e : Nat) : Nat := s.sch.fluid.get (fun _ => 0) (tcn * 4096 + e)

/-- Enters the fluid finish of a time control's newest command on an engine (R388). -/
def State.setFluid (s : State) (tcn e ff : Nat) : State :=
  { s with sch := { s.sch with fluid := s.sch.fluid.set (fun _ => 0) (tcn * 4096 + e) ff } }

/-- The slots that the running SFT_LOAD of square q has written (R246). -/
def State.sftWritten (s : State) (q : Nat) : Nat := s.sft.written.get (fun _ => 0) q

def State.setSftWritten (s : State) (q n : Nat) : State :=
  { s with sft := { s.sft with written := s.sft.written.set (fun _ => 0) q n } }

/-- A command starts, the next in the order of starts. -/
def State.startJob (s : State) (id : Nat) : State :=
  let s1 := s.modJob id (fun j => { j with phase := .running, order := s.sch.nextOrder })
  let s2 := { s1 with sch := { s1.sch with nextOrder := s.sch.nextOrder + 1 } }
  match s.job? id with
  | some j => if j.target = tSft then s2.setSftWritten j.square 0 else s2
  | none => s2

/-- Whether a command has started and not completed (R382). -/
def Job.started (j : Job) : Bool := j.isRunning || decide (0 < j.order)

/-- Whether a command of an engine, one of those that `p` takes, has started and not completed (R192, R312). -/
def State.engineBusy (s : State) (e : Nat) (p : Job → Bool) : Bool :=
  s.sch.jobs.any (fun j => decide (j.engine = e) && j.started && p j)

/-! ### Tags (R395) -/

/-- The tags that a time control's commands hold: one for each transaction without an answer. -/
def State.tagsHeld (s : State) (tcn : Nat) : Nat :=
  (s.fab.txs.filter (fun t => t.got.isNone && t.fail.isNone && (match t.owner with
    | .job id => (s.job? id).any (fun j => decide (j.tc = tcn))
    | _ => false))).length

/-- Whether a command's time control has a tag for another transaction (R395). A transaction of this device's memory is answered
within the step that issues it, so that it leaves its tag at once (assumption 134). -/
def State.tagFree (s : State) (j : Job) : Bool := decide (s.tagsHeld j.tc < (s.tc j.tc).tags)

/-- The power-gating bit of a unit of a square (R166, R223): keyed by 16q + bit. -/
def State.setGated (s : State) (q bit : Nat) (b : Bool) : State :=
  { s with squares := { s.squares with selfGated := s.squares.selfGated.set (fun _ => false) (16 * q + bit) b } }

def State.isGated (s : State) (q bit : Nat) : Bool := s.squares.selfGated.get (fun _ => false) (16 * q + bit)

/-- Runs `f` so that the square's UNIT_FAULT count rises by at most one, and by none when `already` (R169, R173). Answers
whether `f` met a fault. -/
def State.atMostOneFault {α : Type} (s : State) (q : Nat) (already : Bool) (f : State → α × State) : α × Bool × State :=
  let e0 := s.err (errSq q)
  let (a, s1) := f (s.setErr (errSq q) { e0 with limit := 0 })
  let met := decide ((s1.err (errSq q)).buckets ≠ e0.buckets) || decide ((s1.err (errSq q)).total ≠ e0.total)
  let s2 := s1.setErr (errSq q) e0
  (a, met, if met && !already then s2.countFault (errSq q) 1 else s2)

end Sys2Proof.Machine
end

