-- ==== Sys2Proof/Machine/MovCmd.lean ====
section
/-!
DEFINITION. Mover descriptors (10_tensor_movers_and_layouts.md, R284 to R311, R317): their fields, owner tables, addresses,
validation and price.
-/

namespace Sys2Proof.Machine

open Sys2Proof

/-! ### The descriptor -/

/-- One side of a mover descriptor (R286). -/
structure MSide where
  fmt : Nat
  scaled : Bool
  wire : Bool
  ts : Bool
  dist : Bool
  t : Nat
  addr : Nat
  saddr : Nat
  stride : List Nat
  sstride : List Nat
deriving DecidableEq, Repr

/-- A mover descriptor's fields (R286). -/
structure MovCmd where
  op : Nat
  chan : Nat
  wmode : Nat
  imode : Nat
  round : Nat
  sat : Bool
  trap : Bool
  idxDim : Nat
  perm : List Nat
  src : MSide
  dst : MSide
  seed : DWord
  nonce : Nat
  fill : Nat
  keySlot : Nat
  chunk0 : Nat
  ext : List Nat
  limit : Nat
  nchunks : Nat
  idxAddr : Nat
deriving DecidableEq, Repr

def MovCmd.parse (ws : List DWord) : MovCmd :=
  let w (i : Nat) : Nat := wd ws i
  { op := bitsOf (w 0) 7 0, chan := bitsOf (w 0) 9 8, wmode := bitsOf (w 0) 11 10, imode := bitsOf (w 0) 13 12,
    round := bitsOf (w 0) 15 14, sat := bitOf (w 0) 16, trap := bitOf (w 0) 17, idxDim := bitsOf (w 0) 20 18,
    perm := (List.range 5).map (fun d => bitsOf (w 0) (26 + 3 * d) (24 + 3 * d)),
    src := ⟨bitsOf (w 0) 44 40, bitOf (w 0) 45, bitOf (w 0) 46, bitOf (w 0) 47, bitOf (w 0) 48, bitsOf (w 2) 31 0, w 8, w 9,
      (span 10 5).map (fun i => bitsOf (w i) 39 0), (span 15 4).map (fun i => bitsOf (w i) 39 0)⟩,
    dst := ⟨bitsOf (w 0) 53 49, bitOf (w 0) 54, bitOf (w 0) 55, bitOf (w 0) 56, bitOf (w 0) 57, bitsOf (w 2) 63 32, w 19,
      w 20, (span 21 5).map (fun i => bitsOf (w i) 39 0), (span 26 4).map (fun i => bitsOf (w i) 39 0)⟩,
    seed := nth 0#64 ws 1, nonce := w 2, fill := bitsOf (w 3) 31 0, keySlot := bitsOf (w 3) 39 32,
    chunk0 := bitsOf (w 3) 63 40,
    ext := [bitsOf (w 4) 22 0, bitsOf (w 4) 45 23, bitsOf (w 5) 22 0, bitsOf (w 5) 45 23, bitsOf (w 6) 22 0],
    limit := bitsOf (w 6) 45 23, nchunks := bitsOf (w 6) 63 46, idxAddr := w 7 }

/-- Mover opcodes (R286). -/
def mCopy : Nat := 1
def mGather : Nat := 2
def mScatter : Nat := 3
def mFill : Nat := 4
def mDecrypt : Nat := 5
def mPlan : Nat := 6

def MovCmd.indexed (c : MovCmd) : Bool := c.op = mGather || c.op = mScatter

def MSide.format (x : MSide) : Fmt := (Fmt.ofCode x.fmt).getD .fp32

/-- The signed strides of a side. -/
def MSide.strides (x : MSide) : List Int := x.stride.map (signed 40)
def MSide.sstrides (x : MSide) : List Int := x.sstride.map (signed 40)
/-- The origin of a distributed side (R306). -/
def MSide.origin (x : MSide) : List Nat := x.stride.map (· % 2 ^ 23)

def prodNat (l : List Nat) : Nat := l.foldl (· * ·) 1

/-- Destination extents (R287). -/
def MovCmd.dext (c : MovCmd) : List Nat := c.perm.map (fun p => nth 1 c.ext p)

/-- The extents of each side as addresses see them: LIMIT for the indexed dimension (R295). -/
def MovCmd.srcExt (c : MovCmd) : List Nat := if c.op = mGather then setNth c.ext c.idxDim c.limit else c.ext
def MovCmd.dstExt (c : MovCmd) : List Nat := if c.op = mScatter then setNth c.dext c.idxDim c.limit else c.dext

/-- Elements of the command. -/
def MovCmd.elems (c : MovCmd) : Nat := prodNat c.ext

/-- The tuple of linear position `k` under extents, dimension 0 innermost (R289). -/
def tupleOf : List Nat → Nat → List Nat
  | [], _ => []
  | [_], k => [k]
  | e :: t, k => k % e :: tupleOf t (k / e)

/-- The linear position of a tuple. -/
def linearOf : List Nat → List Nat → Nat
  | e :: t, x :: u => x + e * linearOf t u
  | _, _ => 0

/-- The source tuple of a destination tuple (R287). -/
def MovCmd.srcTuple (c : MovCmd) (j : List Nat) : List Nat :=
  (List.range 5).map (fun e =>
    match findIdxFrom (· = e) 0 c.perm with
    | some d => nth 0 j d
    | none => 0)

/-- Entries of the index stream (R295). -/
def MovCmd.idxCount (c : MovCmd) : Nat := nth 0 (if c.op = mGather then c.ext else c.dext) c.idxDim

/-- The mapped index of a stream value (R296): a position, a dropped slice, or out of range. -/
inductive Mapped where
  | at (x : Nat)
  | fill
  | out
deriving DecidableEq, Repr

def MovCmd.mapIndex (c : MovCmd) (v : Int) : Mapped :=
  let inside (x : Int) : Bool := decide (0 ≤ x) && decide (x < c.limit)
  match c.imode with
  | 1 => let x := if v < 0 then v + c.limit else v; if inside x then .at x.toNat else .out
  | 2 => .at (clampInt 0 (c.limit - 1 : Int) v).toNat
  | 3 => if inside v then .at v.toNat else .fill
  | _ => if inside v then .at v.toNat else .out

/-- A plain copy (R292). A GATHER that indexes dimension 0 of a scaled source decodes each element and forms its blocks afresh
(R295), so it is none. -/
def MovCmd.plain (c : MovCmd) : Bool :=
  c.op ≠ mFill && c.src.fmt = c.dst.fmt && c.src.scaled == c.dst.scaled && c.src.wire == c.dst.wire
  && !c.src.ts && !c.dst.ts && (!c.src.scaled || (nth 0 c.perm 0 = 0 && !(c.op = mGather && c.idxDim = 0)))

/-- Whether E8M0 is accepted: in a copy that converts nothing, not even a fill value (R292, R608). -/
def MovCmd.copiesOnly (c : MovCmd) : Bool := c.plain && !(c.op = mGather && c.imode = 3)

/-! ### Global addresses -/

/-- The device field that means this device (R284). -/
def hereDev : Nat := 0x8000

/-- A global address with this device's own ID folded into 0x8000. -/
def State.canonAddr (s : State) (g : Nat) : Nat :=
  if s.devIdValid && bitsOf g 63 48 = s.devId.toNat then hereDev * 2 ^ 48 + g % 2 ^ 48 else g

def isHere (g : Nat) : Bool := g / 2 ^ 48 = hereDev
def localOf (g : Nat) : Nat := g % 2 ^ 48

/-- Whether the device field is 0x8000 or can be a device ID, and the local address lies in the largest device memory or in
a mapped scratchpad window (R57, R284). -/
def mapped (g : Nat) : Bool :=
  let a := localOf g
  (isHere g || decide (g / 2 ^ 48 < 2 ^ 14))
  && (decide (a < 2 ^ 39) || (decide (spadBase ≤ a) && decide (a < spadBase + 64 * 0x2000000)
      && decide ((a - spadBase) % 0x2000000 < spadSize)))

/-- Whether the byte range [lo, hi) of local addresses lies in device memory or in one scratchpad window. -/
def State.rangeInside (s : State) (lo hi : Int) : Bool :=
  decide (0 ≤ lo) && decide (lo ≤ hi) &&
  (match s.placeOf lo.toNat (hi - lo).toNat with
    | .mem _ | .spad .. => true
    | _ => false)

/-! ### Owner tables (R304 to R307) -/

/-- An owner table's header. -/
structure OwnerTable where
  fmt : Nat
  scaled : Bool
  disjoint : Bool
  bext : List Nat
  nb : List Nat
  vstr : List Int
  sstr : List Int
  resOk : Bool
deriving DecidableEq, Repr

def OwnerTable.parse (ws : List DWord) : OwnerTable :=
  let w (i : Nat) : Nat := wd ws i
  { fmt := bitsOf (w 0) 4 0, scaled := bitOf (w 0) 5, disjoint := bitOf (w 0) 6,
    bext := (span 1 5).map (fun i => bitsOf (w i) 22 0), nb := (span 1 5).map (fun i => bitsOf (w i) 45 23),
    vstr := (span 6 5).map (fun i => signed 40 (w i)), sstr := (span 11 4).map (fun i => signed 40 (w i)),
    resOk := bitsOf (w 0) 63 7 = 0 && (span 1 5).all (fun i => bitsOf (w i) 63 46 = 0)
      && (span 6 9).all (fun i => bitsOf (w i) 63 40 = 0) && w 15 = 0 }

/-- The header's own limits (R304). -/
def OwnerTable.sound (t : OwnerTable) : Bool :=
  t.resOk && (Fmt.ofCode t.fmt).isSome && decide (prodNat t.nb ≤ 65536) && decide (1 ≤ prodNat t.nb)
  && (t.bext.zip t.nb).all (fun (b, n) => decide (1 ≤ b) && decide (b * n ≤ 4194304))

/-- Whether a side and its box fit a table (R306); rows of sub-byte elements start on packing groups (R49). -/
def OwnerTable.fits (t : OwnerTable) (x : MSide) (ext : List Nat) : Bool :=
  let g := x.format.groupElems
  let b0 := nth 1 t.bext 0
  let o0 := nth 0 x.origin 0
  let e0 := nth 1 ext 0
  t.sound && t.fmt = x.fmt && t.scaled == x.scaled
  && ((x.origin.zip ext).zip (t.bext.zip t.nb)).all (fun ((o, e), (b, n)) => decide (o + e ≤ b * n))
  && (!x.scaled || (b0 % 32 = 0 && o0 % 32 = 0 && e0 % 32 = 0))
  && (!x.format.subByte || (b0 % g = 0 && o0 % g = 0 && e0 % g = 0 && nth 1 t.vstr 0 = 1
      && ((t.vstr.drop 1).zip (t.bext.drop 1)).all (fun (v, b) => decide (b ≤ 1) || v % (g : Int) = 0)))

/-- The block of a logical coordinate, its number, and the offset within it (R305). -/
def OwnerTable.locate (t : OwnerTable) (c : List Nat) : Nat × List Nat :=
  (linearOf t.nb ((c.zip t.bext).map (fun (x, b) => x / b)), (c.zip t.bext).map (fun (x, b) => x % b))

/-! ### Element addresses -/

def dot (a : List Nat) (b : List Int) : Int := ((a.zip b).map (fun (x, y) => (x : Int) * y)).sum

/-- The global bit address of the element at tuple `t`, and the global byte address of its scale (R288, R294, R305);
`entry` gives the table's entry of a block. -/
def MSide.locate (x : MSide) (ext t : List Nat) (table : Option OwnerTable) (entry : Nat → Nat × Nat) : Nat × Nat :=
  let w := x.format.width
  if x.wire then
    let k := linearOf ext t
    let b := k / 32
    let u := x.addr + b / 8 * (8 + 32 * w)
    ((u + 8 + b % 8 * (4 * w)) * 8 + k % 32 * w, u + b % 8)
  else
    match table with
    | some tb =>
      let (e, o) := tb.locate ((x.origin.zip t).map (fun (a, b) => a + b))
      let (v, sc) := entry e
      (((v : Int) * 8 + w * dot o tb.vstr).toNat, ((sc : Int) + (nth 0 o 0 / 32 : Nat) + dot (o.drop 1) tb.sstr).toNat)
    | none =>
      (((x.addr : Int) * 8 + w * dot t x.strides).toNat,
        ((x.saddr : Int) + (nth 0 t 0 / 32 : Nat) + dot (t.drop 1) x.sstrides).toNat)

/-- Bytes of a whole wire stream (R50). -/
def MSide.wireLen (x : MSide) (ext : List Nat) : Nat := wireBytes x.format (prodNat ext / 32)

/-- The byte ranges of a side that is not distributed, as global address and local bounds: values, then scales. -/
def MSide.ranges (x : MSide) (ext : List Nat) : List (Nat × Int × Int) :=
  let w := x.format.width
  let reach (es : List Nat) (st : List Int) : Int × Int :=
    (es.zip st).foldl (fun (lo, hi) (e, v) =>
      let r := ((e : Int) - 1) * v
      (lo + min r 0, hi + max r 0)) (0, 0)
  let a : Int := localOf x.addr
  if x.wire then [(x.addr, a, a + x.wireLen ext)]
  else
    let (lo, hi) := reach ext x.strides
    let values := (x.addr, Int.fdiv (a * 8 + w * lo) 8, Int.fdiv (a * 8 + w * hi + w - 1) 8 + 1)
    if x.scaled then
      let (slo, shi) := reach (ext.drop 1) x.sstrides
      let b : Int := localOf x.saddr
      [values, (x.saddr, b + slo, b + shi + (nth 0 ext 0 / 32 : Nat))]
    else [values]

/-! ### Sharding specifications (R308 to R310) -/

/-- A sharding specification. -/
structure ShardSpec where
  fmt : Nat
  scaled : Bool
  dims : Nat
  axes : Nat
  g : List Nat
  a : List Nat
  mode : List Nat
  axis : List Nat
  cyc : List Nat
  base : Nat
  sbase : Nat
  resOk : Bool
deriving DecidableEq, Repr

def ShardSpec.parse (ws : List DWord) : ShardSpec :=
  let w (i : Nat) : Nat := wd ws i
  let spec (d : Nat) : Nat := bitsOf (w (5 + d / 2)) (32 * (d % 2) + 31) (32 * (d % 2))
  { fmt := bitsOf (w 0) 4 0, scaled := bitOf (w 0) 5, dims := bitsOf (w 0) 8 6, axes := bitsOf (w 0) 11 9,
    g := [bitsOf (w 1) 22 0, bitsOf (w 1) 45 23, bitsOf (w 2) 22 0, bitsOf (w 2) 45 23, bitsOf (w 3) 22 0],
    a := (List.range 4).map (fun i => bitsOf (w 4) (16 * i + 15) (16 * i)),
    mode := (List.range 5).map (fun d => bitsOf (spec d) 1 0), axis := (List.range 5).map (fun d => bitsOf (spec d) 3 2),
    cyc := (List.range 5).map (fun d => bitsOf (spec d) 26 4), base := bitsOf (w 8) 47 0, sbase := bitsOf (w 9) 47 0,
    resOk := bitsOf (w 0) 63 12 = 0 && bitsOf (w 1) 63 46 = 0 && bitsOf (w 2) 63 46 = 0 && bitsOf (w 3) 63 23 = 0
      && (List.range 6).all (fun d => bitsOf (spec d) 31 27 = 0 && (decide (d < 5) || spec d = 0))
      && bitsOf (w 8) 63 48 = 0 && bitsOf (w 9) 63 48 = 0 && (span 10 6).all (fun i => w i = 0) }

def ShardSpec.axisSize (x : ShardSpec) (d : Nat) : Nat := nth 0 x.a (nth 0 x.axis d)

/-- Devices of the list. -/
def ShardSpec.devices (x : ShardSpec) : Nat := prodNat (x.a.take x.axes)

/-- Shard shape, block extents and block counts of dimension d (R310). -/
def ShardSpec.shape (x : ShardSpec) (d : Nat) : Nat × Nat × Nat :=
  let g := nth 1 x.g d
  let a := x.axisSize d
  match nth 0 x.mode d with
  | 1 => (g / a, g / a, a)
  | 2 => (g / a, nth 1 x.cyc d, g / nth 1 x.cyc d)
  | _ => (g, g, 1)

def ShardSpec.shard (x : ShardSpec) : List Nat := (List.range 5).map (fun d => (x.shape d).1)
def ShardSpec.bext (x : ShardSpec) : List Nat := (List.range 5).map (fun d => (x.shape d).2.1)
def ShardSpec.nb (x : ShardSpec) : List Nat := (List.range 5).map (fun d => (x.shape d).2.2)

/-- Dense strides of a shape, dimension 0 innermost. -/
def denseStrides (n : Nat) : List Nat → List Nat
  | [] => []
  | e :: t => n :: denseStrides (n * e) t

/-- Acceptance (R309), the device list apart. -/
def ShardSpec.accepted (x : ShardSpec) : Bool :=
  let used := (List.range 5).filter (fun d => nth 0 x.mode d ≠ 0)
  x.resOk && (match Fmt.ofCode x.fmt with
    | some f => f.scaleOk x.scaled
    | none => false)
  && decide (1 ≤ x.dims) && decide (x.dims ≤ 5) && decide (1 ≤ x.axes) && decide (x.axes ≤ 4)
  && (List.range 4).all (fun i => if i < x.axes then decide (1 ≤ nth 0 x.a i) else nth 0 x.a i = 0)
  && (List.range 5).all (fun d =>
    nth 3 x.mode d ≠ 3 && decide (1 ≤ nth 0 x.g d) && decide (nth 0 x.g d ≤ 4194304)
    && (decide (d < x.dims) || (nth 0 x.g d = 1 && nth 0 x.mode d = 0))
    && (nth 0 x.mode d = 0 || decide (nth 0 x.axis d < x.axes))
    && (match nth 0 x.mode d with
      | 1 => nth 0 x.g d % x.axisSize d = 0
      | 2 => decide (1 ≤ nth 0 x.cyc d) && nth 0 x.g d % (nth 0 x.cyc d * x.axisSize d) = 0
      | _ => true))
  && decide (((used.map (fun d => nth 0 x.axis d)).eraseDups).length = used.length)
  && decide (x.devices ≤ 16384) && decide (prodNat x.nb ≤ 65536)
  && (!x.scaled || nth 0 x.bext 0 % 32 = 0)

/-- The coordinate of a list position on axis i (axis 0 fastest). -/
def ShardSpec.coord (x : ShardSpec) (pos i : Nat) : Nat := pos / prodNat (x.a.take i) % max 1 (nth 1 x.a i)

/-- The table's header words (R310). -/
def ShardSpec.header (x : ShardSpec) : List Nat :=
  let vs := denseStrides 1 x.shard
  let ss := denseStrides (nth 1 x.shard 0 / 32) (x.shard.drop 1)
  [x.fmt + b01 x.scaled * 32 + 64]
  ++ (List.range 5).map (fun d => nth 0 x.bext d + nth 0 x.nb d * 2 ^ 23)
  ++ vs ++ ss ++ [0]

/-- The entry of block `e` for a requester at list position `me` (R310). -/
def ShardSpec.entry (x : ShardSpec) (devs : List Nat) (me : Option Nat) (e : Nat) : Nat × Nat :=
  let b := tupleOf x.nb e
  let vs := denseStrides 1 x.shard
  let ss := denseStrides (nth 1 x.shard 0 / 32) (x.shard.drop 1)
  let o := (List.range 5).map (fun d => if nth 0 x.mode d = 2 then nth 0 b d / x.axisSize d * nth 0 x.cyc d else 0)
  let axisCoord (i : Nat) : Nat :=
    match (List.range 5).find? (fun d => nth 0 x.mode d ≠ 0 && nth 0 x.axis d = i) with
    | some d => if nth 0 x.mode d = 1 then nth 0 b d else nth 0 b d % nth 1 x.a i
    | none => match me with
      | some pos => x.coord pos i
      | none => 0
  let pos := linearOf (x.a.take x.axes) ((List.range x.axes).map axisCoord)
  let dev := nth 0 devs pos * 2 ^ 48
  let f := (Fmt.ofCode x.fmt).getD .fp32
  let v := x.base + ((o.zip vs).map (fun (a, b) => a * b)).sum * f.width / 8
  let sc := x.sbase + nth 0 o 0 / 32 + (((o.drop 1).zip ss).map (fun (a, b) => a * b)).sum
  (dev + v % 2 ^ 48, if x.scaled then dev + sc % 2 ^ 48 else 0)

/-! ### Validation (R311) -/

/-- Line 1: reserved bits and encodings, unused fields, PERM. -/
def MovCmd.encodingOk (ws : List DWord) (c : MovCmd) : Bool :=
  let w (i : Nat) : Nat := wd ws i
  let data := c.op = mCopy || c.op = mGather || c.op = mScatter || c.op = mFill
  let zero (l : List Nat) : Bool := l.all (· = 0)
  let sideZero (x : MSide) : Bool :=
    x.fmt = 0 && !x.scaled && !x.wire && !x.ts && !x.dist
  bitsOf (w 0) 23 21 = 0 && !(bitOf (w 0) 39) && bitsOf (w 0) 63 58 = 0 && bitsOf (w 4) 63 46 = 0
  && bitsOf (w 5) 63 46 = 0
  && (span 10 9 ++ span 21 9).all (fun i => bitsOf (w i) 63 40 = 0)
  && (!c.src.dist || c.src.stride.all (fun v => decide (v < 2 ^ 23)))
  && (!c.dst.dist || c.dst.stride.all (fun v => decide (v < 2 ^ 23)))
  && decide (1 ≤ c.op) && decide (c.op ≤ 6) && c.wmode ≠ 3 && c.round ≠ 3
  && (if c.op = mPlan then zero c.perm else (List.range 5).all (fun e => c.perm.any (· = e)))
  && (c.indexed || (c.idxDim = 0 && c.limit = 0 && c.imode = 0 && c.idxAddr = 0))
  && (!c.indexed || decide (c.idxDim ≤ 4))
  && (data || (c.round = 0 && !c.sat && !c.trap && c.seed = 0 && c.wmode = 0))
  && (c.fill = 0 || c.op = mFill || (c.op = mGather && c.imode = 3))
  && (c.op = mDecrypt || (c.keySlot = 0 && c.chunk0 = 0 && c.nchunks = 0 && (c.src.ts || c.src.t = 0)
      && (c.dst.ts || c.dst.t = 0)))
  && (c.op ≠ mFill || (sideZero c.src && c.src.addr = 0 && c.src.saddr = 0 && zero c.src.stride && zero c.src.sstride))
  && (c.op ≠ mPlan || (sideZero c.src && sideZero c.dst && zero c.ext && zero c.src.stride && zero c.dst.stride
      && zero c.src.sstride && zero c.dst.sstride && c.src.saddr = 0 && c.dst.saddr = 0))
  && (c.op ≠ mDecrypt || zero c.src.sstride)
  && ((c.src.scaled && !c.src.wire && !c.src.dist) || (zero c.src.sstride && (c.op = mDecrypt || c.src.saddr = 0)))
  && ((c.dst.scaled && !c.dst.wire && !c.dst.dist) || (zero c.dst.sstride && c.dst.saddr = 0))

/-- Line 2: extents and LIMIT. -/
def MovCmd.extentsOk (c : MovCmd) : Bool :=
  c.op = mPlan || ((c.ext ++ (if c.indexed then [c.limit] else [])).all (fun e => decide (1 ≤ e) && decide (e ≤ 4194304)))

/-- Line 3 for one side. -/
def MSide.formatOk (x : MSide) (ext : List Nat) (copies : Bool) : Bool :=
  match Fmt.ofCode x.fmt with
  | none => false
  | some f =>
    let g := f.groupElems
    f.scaleOk x.scaled && (f ≠ .e8m0 || copies) && (!x.ts || (x.scaled && tensorScaleOk x.t))
    && (!x.scaled || nth 0 ext 0 % 32 = 0)
    && (!x.wire || (x.scaled && !x.dist && x.stride.all (· = 0)))
    && (!f.subByte || x.wire || x.dist || (nth 0 x.strides 0 = 1 && nth 0 ext 0 % g = 0
        && ((x.strides.drop 1).zip (ext.drop 1)).all (fun (v, e) => e ≤ 1 || v % (g : Int) = 0)))

/-- Line 4: addresses (R284), and what must lie on this device. -/
def State.movAddrsOk (s : State) (c : MovCmd) : Bool :=
  let used (x : MSide) : List Nat := x.addr :: (if x.scaled && !x.wire && !x.dist then [x.saddr] else [])
  let here (g : Nat) : Bool := isHere (s.canonAddr g)
  (((if c.op = mFill then [] else used c.src) ++ used c.dst ++ (if c.indexed then [c.idxAddr] else [])
    ++ (if c.op = mDecrypt then [c.src.saddr] else [])).all mapped)
  && (!c.indexed || here c.idxAddr) && (!c.src.dist || here c.src.addr) && (!c.dst.dist || here c.dst.addr)
  && (c.op ≠ mDecrypt || here c.dst.addr) && (c.op ≠ mPlan || (here c.src.addr && here c.dst.addr))

/-- Tags of a DECRYPT's chunks. -/
def MovCmd.chunks (c : MovCmd) : Nat := ceilDiv (nth 0 c.ext 0) 65536

/-- The byte ranges that a command reads and the ones that it writes, distributed sides apart. -/
def MovCmd.reads (c : MovCmd) : List (Nat × Int × Int) :=
  let idx : List (Nat × Int × Int) :=
    if c.indexed then [(c.idxAddr, (localOf c.idxAddr : Int), (localOf c.idxAddr : Int) + 4 * c.idxCount)] else []
  let src := if c.op = mFill ∨ c.src.dist then [] else c.src.ranges c.srcExt
  let tag : List (Nat × Int × Int) :=
    if c.op = mDecrypt then [(c.src.saddr, (localOf c.src.saddr : Int), (localOf c.src.saddr : Int) + 16 * c.chunks)] else []
  if c.op = mPlan then [(c.src.addr, (localOf c.src.addr : Int), (localOf c.src.addr : Int) + 128)] else src ++ idx ++ tag

def MovCmd.writes (c : MovCmd) : List (Nat × Int × Int) :=
  if c.dst.dist then [] else if c.op = mPlan then [(c.dst.addr, (localOf c.dst.addr : Int), (localOf c.dst.addr : Int) + 128)]
  else c.dst.ranges c.dstExt

/-- Reads the sixteen header words of an owner table or a specification. -/
def State.headAt (s : State) (p : Fin 16) (home g : Nat) : Got (List DWord) × State :=
  match s.localRead p (some home) home (localOf g) 128 with
  | (.ok bs, s1) => (.ok ((chunks 8 bs).map (fun b => BitVec.ofNat 64 (leNat b))), s1)
  | (.fail c, s1) => (.fail c, s1)
  | (.wait, s1) => (.wait, s1)

/-- Reads an owner table's header at submission (R306). -/
def State.tableAt (s : State) (p : Fin 16) (home g : Nat) : Got OwnerTable × State :=
  match s.headAt p home g with
  | (.ok ws, s1) => (.ok (OwnerTable.parse ws), s1)
  | (.fail c, s1) => (.fail c, s1)
  | (.wait, s1) => (.wait, s1)

/-- A side's table, when it has one. -/
def State.sideTable (s : State) (p : Fin 16) (home : Nat) (x : MSide) : Option OwnerTable :=
  if x.dist then
    match (s.tableAt p home x.addr).1 with
    | .ok t => some t
    | _ => none
  else none

/-- Reads a specification's header (R308). -/
def State.specAt (s : State) (p : Fin 16) (q g : Nat) : ShardSpec :=
  match (s.headAt p q g).1 with
  | .ok ws => ShardSpec.parse ws
  | _ => ShardSpec.parse []

/-- Whether the table that PLAN writes overlaps the specification that it reads, device list included (R291). -/
def State.planOverlaps (s : State) (c : MovCmd) (x : ShardSpec) : Bool :=
  let a := s.canonAddr c.src.addr
  let b := s.canonAddr c.dst.addr
  x.accepted && decide (a < b + 128 + 16 * prodNat x.nb) && decide (b < a + 128 + 2 * x.devices)

/-- DECRYPT's own conditions (R301). -/
def MovCmd.decryptOk (c : MovCmd) : Bool :=
  let one (x : MSide) : Bool := x.fmt = 12 && !x.scaled && !x.wire && !x.ts && !x.dist && x.strides = [1, 0, 0, 0, 0]
  let e0 := nth 0 c.ext 0
  one c.src && one c.dst && (c.ext.drop 1).all (· = 1) && decide (c.chunk0 + c.chunks ≤ c.nchunks)
  && (e0 % 65536 = 0 || c.chunk0 + c.chunks = c.nchunks)

/-- Whether the boxes of a command's distributed sides fit their tables. A table in a region or square that the partition does
not hold cannot be read, and line 8 answers for it. -/
def State.movTablesFit (s : State) (p : Fin 16) (home : Nat) (c : MovCmd) : Bool :=
  let fits (x : MSide) (ext : List Nat) : Bool :=
    !x.dist || !s.localAllowed p (localOf x.addr) 128 || (match s.sideTable p home x with
      | some t => t.fits x ext
      | none => false)
  c.op = mPlan || (fits c.src c.srcExt && fits c.dst c.dstExt)

/-- Lines 6 and 7: write modes, tables, boxes and overlaps. -/
def State.movModesOk (s : State) (p : Fin 16) (home : Nat) (c : MovCmd) : Bool :=
  let meets (a b : Nat × Int × Int) : Bool :=
    (s.canonAddr a.1) / 2 ^ 48 = (s.canonAddr b.1) / 2 ^ 48 && decide (a.2.1 < b.2.2) && decide (b.2.1 < a.2.2)
  s.movTablesFit p home c
  && (c.op ≠ mDecrypt || c.decryptOk)
  && !(c.op = mPlan && s.localAllowed p (localOf c.src.addr) 128 && s.planOverlaps c (s.specAt p home c.src.addr))
  && (c.wmode = 0 || !(c.dst.scaled || c.dst.wire || c.op = mDecrypt))
  && !(c.op = mScatter && c.wmode = 0 && decide (262144 < c.limit))
  && !(c.op = mScatter && (c.dst.scaled || c.dst.wire) && c.idxDim = 0)
  && c.writes.all (fun a => c.reads.all (fun b => !meets a b))
  && (match c.writes with
    | [a, b] => !meets a b
    | _ => true)

/-- The addresses of the owner tables that a command names. -/
def MovCmd.tables (c : MovCmd) : List Nat :=
  (if c.src.dist then [c.src.addr] else []) ++ (if c.dst.dist then [c.dst.addr] else [])

/-- Line 8: local footprints in regions and squares that the partition holds (R285). -/
def State.movRightsOk (s : State) (p : Fin 16) (c : MovCmd) : Bool :=
  ((c.reads ++ c.writes).all (fun r => !isHere (s.canonAddr r.1) || s.localAllowed p r.2.1.toNat (r.2.2 - r.2.1).toNat))
  && c.tables.all (fun g => s.localAllowed p (localOf g) 128)

/-- Line 5: local footprints inside device memory or a window. -/
def State.movInside (s : State) (c : MovCmd) : Bool :=
  (c.reads ++ c.writes).all (fun r => !isHere (s.canonAddr r.1) || s.rangeInside r.2.1 r.2.2)
  && c.tables.all (fun g => s.rangeInside (localOf g : Int) ((localOf g : Int) + 128))

def State.keySlot (s : State) (n : Nat) : Option WeightKey := s.pt.keys.get (fun _ => none) n

/-- A weight key bound to the partition stands in the slot (R302). -/
def State.keyFor (s : State) (p : Fin 16) (n : Nat) : Option WeightKey := (s.keySlot n).filter (fun k => k.part = p)

/-- R214's test over five dimensions. -/
def injective5 (ext : List Nat) (st : List Int) : Bool :=
  let dims := ((ext.zip st).filter (fun x => x.1 ≠ 1)).map (fun (e, v) => (v.natAbs, e))
  ((dims.foldr insertDim []).foldl (fun (ok, r) (v, e) => (ok && decide (v ≠ 0) && decide (1 + r ≤ v), r + (e - 1) * v))
    (true, 0)).1

/-- Line 10: an EXCLUSIVE destination that is not injective, or a table whose DISJOINT is 0 (R290, R307). -/
def State.movAliases (s : State) (p : Fin 16) (home : Nat) (c : MovCmd) : Bool :=
  if c.op = mPlan ∨ c.wmode ≠ 0 ∨ c.dst.wire then false
  else if c.dst.dist then
    match s.sideTable p home c.dst with
    | some t => !t.disjoint
    | none => false
  else !injective5 c.dstExt c.dst.strides

/-- Lines 1 to 5 of R311: the encoding, the extents, the formats and the addresses. -/
def State.movEarlyOk (s : State) (c : MovCmd) (ws : List DWord) : Bool :=
  ws.length = 30 && c.encodingOk ws && c.extentsOk
  && (c.op = mPlan || ((c.op = mFill || c.src.formatOk c.srcExt c.copiesOnly) && c.dst.formatOk c.dstExt c.copiesOnly))
  && s.movAddrsOk c && s.movInside c

/-- The headers that a command reads at submission (R306, R310): whether their places are ready, and the state after the
reads of owner tables. -/
def State.movHeaders (s : State) (p : Fin 16) (q : Nat) (ws : List DWord) : Bool × State :=
  let c := MovCmd.parse ws
  let waits (s : State) (g : Nat) : Bool := s.localAllowed p (localOf g) 128 &&
    (match (s.tableAt p q g).1 with
      | .wait => true
      | _ => false)
  if !s.movEarlyOk c ws then (true, s)
  else if (if c.op = mPlan then [c.src.addr] else c.tables).any (waits s) then (false, s)
  else
    (true, (s.atMostOneFault q false (fun s =>
      ((), c.tables.foldl (fun s g => if s.localAllowed p (localOf g) 128 then (s.tableAt p q g).2 else s) s))).2.2)

/-- The header words that a command keeps from its submission (R306): its source's table, then its destination's. -/
def State.movHeads (s : State) (p : Fin 16) (q : Nat) (c : MovCmd) : List DWord :=
  c.tables.flatMap (fun g => match (s.headAt p q g).1 with
    | .ok ws => ws
    | _ => [])

/-- A side's table among the kept headers. -/
def MovCmd.keptTable (c : MovCmd) (heads : List DWord) (dst : Bool) : Option OwnerTable :=
  if (if dst then c.dst.dist else c.src.dist) then
    some (OwnerTable.parse ((heads.drop (if dst && c.src.dist then 16 else 0)).take 16))
  else none

/-- A table whose header is lost (R119, R334). -/
def State.movTableLost (s : State) (p : Fin 16) (q : Nat) (c : MovCmd) : Bool :=
  c.tables.any (fun g => s.localAllowed p (localOf g) 128 &&
    (match (s.tableAt p q g).1 with
      | .fail _ => true
      | _ => false))

/-- Validation at submission (R311): the code of the first failing line. -/
def State.movValidate (s : State) (p : Fin 16) (q : Nat) (ws : List DWord) : Option Nat :=
  let c := MovCmd.parse ws
  if !s.movEarlyOk c ws then some cBadDescriptor
  else if s.movTableLost p q c then some cDataLost
  else if !s.movModesOk p q c then some cBadDescriptor
  else if !s.movRightsOk p c then some cPartitionFault
  else if c.op = mDecrypt ∧ (s.keyFor p c.keySlot).isNone then some cKeyAbsent
  else if s.movAliases p q c then some cAliasWrite
  else none

/-- Sides of `MOV_LAST_FAULT` (R318). -/
def sideSrc : Nat := 0
def sideDst : Nat := 1
def sideIdx : Nat := 2
def sideTab : Nat := 3
def sideKey : Nat := 4
def sideNone : Nat := 7

/-- The side that a failed validation concerns (R318): of a footprint in no region or square of the partition, the first in the
order source, index stream, tags, destination. -/
def State.movSide (s : State) (p : Fin 16) (q : Nat) (ws : List DWord) (code : Nat) : Nat :=
  let c := MovCmd.parse ws
  let foreign (r : Nat × Int × Int) : Bool := isHere (s.canonAddr r.1) && !s.localAllowed p r.2.1.toNat (r.2.2 - r.2.1).toNat
  if code = cAliasWrite then sideDst
  else if code = cKeyAbsent then sideKey
  else if code = cDataLost then sideTab
  else if code = cPartitionFault then
    if c.tables.any (fun g => !s.localAllowed p (localOf g) 128) then sideTab
    else if !(c.reads.any foreign) then sideDst
    else if c.op ≠ mFill ∧ ¬ c.src.dist ∧ (c.src.ranges c.srcExt).any foreign then sideSrc
    else if c.indexed then sideIdx
    else if c.op = mDecrypt then sideKey
    else sideSrc
  else if s.movEarlyOk c ws ∧ ¬ s.movTablesFit p q c then sideTab
  else sideNone

/-! ### The price (R317) -/

/-- Where a side lies, for the price. -/
inductive Where where
  | own | mesh | mem | remote (dev : BitVec 16)
deriving DecidableEq, Repr

def State.whereIs (s : State) (q g0 : Nat) : Where :=
  let g := s.canonAddr g0
  if !isHere g then .remote (BitVec.ofNat 16 (g / 2 ^ 48))
  else
    match s.placeOf (localOf g) 1 with
    | .mem _ => .mem
    | .spad r _ => if r = q then .own else .mesh
    | _ => .mesh

/-- A part of a side, in one place: an address of it, its runs, the bytes of a run, and its elements. -/
structure PricePart where
  addr : Nat
  runs : Nat
  bytes : Nat
  elems : Nat
deriving DecidableEq, Repr

/-- One side of the price: its parts, whether it is written, whether it is strided. -/
structure PriceSide where
  parts : List PricePart
  written : Bool
  strided : Bool
deriving DecidableEq, Repr

/-- How many of the coordinates `o + (i mod m)`, for i below `e`, lie in [lo, hi). -/
def inBlock (o e m lo hi : Nat) : Nat :=
  let ov (n : Nat) : Nat := min (o + n) hi - max o lo
  if m = 0 then 0 else e / m * ov m + ov (e % m)

/-- An entry of an owner table, as admission reads it. -/
def State.priceEntry (s : State) (p : Fin 16) (q g e : Nat) : Nat × Nat :=
  match (s.localRead p (some q) q (localOf g + 128 + 16 * e) 16).1 with
  | .ok bs => (leNat (bs.take 8), leNat (bs.drop 8))
  | _ => (g, g)

/-- The blocks that a distributed side reaches: each block's entry, how many of the box's coordinates it takes on each dimension.
The indexed dimension of `ext`, of LIMIT `lim`, is priced as if its indices ran 0, 1, 2, … and began again at LIMIT (DESIGN CHOICE,
assumption 85). -/
def OwnerTable.pieces (t : OwnerTable) (x : MSide) (ext lim : List Nat) : List (Nat × List Nat) :=
  ((List.range (prodNat t.nb)).map (fun e =>
    (e, (List.range 5).map (fun d =>
      let b := nth 1 t.bext d
      let i := nth 0 (tupleOf t.nb e) d
      inBlock (nth 0 x.origin d) (nth 1 ext d) (nth 1 lim d) (i * b) (i * b + b))))).filter (fun y => y.2.all (fun n => decide (0 < n)))

/-- The sides of a data command. -/
def State.priceSides (s : State) (p : Fin 16) (q : Nat) (c : MovCmd) : List PriceSide :=
  let side (x : MSide) (ext lim : List Nat) (w : Bool) : List PriceSide :=
    if x.wire then [⟨[⟨x.addr, 1, x.wireLen ext, c.elems⟩], w, false⟩]
    else
      let e0 := nth 1 ext 0
      let runs := prodNat (ext.drop 1)
      match s.sideTable p q x with
      | some t =>
        let ps := (t.pieces x ext lim).map (fun (e, ns) => (s.priceEntry p q x.addr e, nth 0 ns 0, prodNat (ns.drop 1)))
        ⟨ps.map (fun (a, n0, n) => ⟨a.1, n, ceilDiv (n0 * x.format.width) 8, n0 * n⟩), w, decide (1 < (nth 1 t.vstr 0).natAbs)⟩ ::
          (if x.scaled then [⟨ps.map (fun (a, n0, n) => ⟨a.2, n, ceilDiv n0 32, n0 * n⟩), w, false⟩] else [])
      | none =>
        ⟨[⟨x.addr, runs, ceilDiv (e0 * x.format.width) 8, c.elems⟩], w, decide (1 < (nth 1 x.strides 0).natAbs)⟩ ::
          (if x.scaled then [⟨[⟨x.saddr, runs, e0 / 32, c.elems⟩], w, false⟩] else [])
  (if c.op = mFill then [] else side c.src c.ext c.srcExt false) ++ side c.dst c.dext c.dstExt true
  ++ (if c.indexed then [⟨[⟨c.idxAddr, 1, 4 * c.idxCount, c.elems⟩], false, false⟩] else [])

/-- What the sides add up to: pieces read and written, mesh bytes, nanoseconds, memory runs, link bytes, devices. -/
structure PriceSum where
  rd : Nat
  wr : Nat
  mesh : Nat
  ns : Nat
  runs : List (Nat × Nat × Bool)
  link : Nat
  dests : List (BitVec 16)
deriving DecidableEq, Repr

/-- Adds one part of a side. -/
def State.addPart (s : State) (q : Nat) (c : MovCmd) (y : PriceSide) (a : PriceSum) (x : PricePart) : PriceSum :=
  let cut := if nth 0 c.perm 0 ≠ 0 then 256 else 512
  let pieces := if y.strided then x.elems else x.runs * (ceilDiv x.bytes cut + 1)
  let per := if y.strided then 1 else ceilDiv x.bytes 64 + 1
  let count := if y.strided then x.elems else x.runs
  let bytes := 64 * (count * per)
  match s.whereIs q x.addr with
  | .own =>
    if y.written then { a with wr := a.wr + pieces, rd := a.rd + (if c.wmode = 1 then pieces else 0) }
    else { a with rd := a.rd + pieces }
  | .mesh => { a with mesh := a.mesh + bytes }
  | .mem => { a with mesh := a.mesh + bytes, runs := a.runs ++ [(count, per, y.written)] }
  | .remote d => { a with mesh := a.mesh + bytes, link := a.link + bytes, dests := a.dests ++ [d] }

/-- Adds a side: its parts, and the crossings that its data passes, one to device memory and one to a link (R105). -/
def State.addSide (s : State) (q : Nat) (c : MovCmd) (a : PriceSum) (y : PriceSide) : PriceSum :=
  let b := y.parts.foldl (s.addPart q c y) a
  let far := y.parts.any (fun x => !isHere (s.canonAddr x.addr))
  { b with ns := b.ns + (if a.runs.length < b.runs.length then 10 else 0) + (if far then 7 else 0) }

/-- R317's `mov_cost`. -/
def State.movCost (s : State) (p : Fin 16) (q : Nat) (ws : List DWord) : Cost :=
  let c := MovCmd.parse ws
  let a := if c.op = mPlan then ⟨0, 0, 0, 0, [], 0, []⟩
    else (s.priceSides p q c).foldl (s.addSide q c) ⟨0, 0, 0, 0, [], 0, []⟩
  let conv :=
    if c.op = mPlan ∨ c.op = mDecrypt ∨ c.plain then 0
    else ceilDiv (c.elems * (if c.op = mFill then c.dst.format.width else max c.src.format.width c.dst.format.width)) 8192
  let crypt :=
    if c.op = mDecrypt then ceilDiv (nth 0 c.ext 0) 512 + 64 * ceilDiv (nth 0 c.ext 0) 65536
    else if c.op = mPlan then
      let x := s.specAt p q c.src.addr
      1024 + 32 * prodNat x.nb + x.devices / 8
    else 0
  let port := max (ceilDiv a.rd 8) (ceilDiv a.wr 8)
  let body := max (max port (ceilDiv a.mesh (64 * max 1 (s.meshSlots p)))) (max conv crypt)
  let base := 128 + 32 + body + (if 0 < a.mesh then 48 else 0) + 7 * ceilDiv (a.rd + a.wr) 64
  ⟨withMargin base, a.ns, a.runs, [a.link], a.dests⟩

end Sys2Proof.Machine
end

