-- ==== Sys2Proof/Machine/Mover.lean ====
section
/-!
DEFINITION. The tensor movers (10_tensor_movers_and_layouts.md, R287 to R316, R318, R319): a command moves window by window;
accesses to other devices go out as READ and WRITE packets, and the command stays where it is until they are answered.
-/

namespace Sys2Proof.Machine

open Sys2Proof

/-! ### Reaching bytes -/

/-- The outcome of a part of a window: a result; an end with a code, the side concerned (R318) and the failing address or, of a
whole window, the failing position; or a wait. -/
inductive MStep (α : Type) where
  | ok (a : α)
  | fail (code side pos : Nat)
  | wait
deriving DecidableEq, Repr

/-- Bytes that were read, by global address: runs of a start and contents. -/
abbrev Fetched := List (Nat × List Byte)

/-- The byte at a global address among what was read. -/
def Fetched.byte (f : Fetched) (g : Nat) : Byte :=
  match f.find? (fun r => decide (r.1 ≤ g) && decide (g < r.1 + r.2.length)) with
  | some r => nth 0#8 r.2 (g - r.1)
  | none => 0

/-- The code of `w` bits at a global bit address. -/
def Fetched.code (f : Fetched) (ba w : Nat) : Nat :=
  let a := ba / 8
  let n := (ba + w - 1) / 8 + 1 - a
  leNat ((span a n).map f.byte) >>> (ba % 8) % 2 ^ w

/-- Enters a run into a list sorted by start. -/
def insertRun (x : Nat × Nat) : List (Nat × Nat) → List (Nat × Nat)
  | [] => [x]
  | y :: t => if x.1 ≤ y.1 then x :: y :: t else y :: insertRun x t

/-- Joins runs that meet or touch, in one chunk of 2,048 bytes. -/
def joinRuns : List (Nat × Nat) → List (Nat × Nat)
  | [] => []
  | [x] => [x]
  | x :: t =>
    match joinRuns t with
    | y :: u =>
      if y.1 ≤ x.1 + x.2 ∧ x.1 / 2048 = (max (x.1 + x.2) (y.1 + y.2) - 1) / 2048 then
        (x.1, max (x.1 + x.2) (y.1 + y.2) - x.1) :: u
      else x :: y :: u
    | [] => [x]

/-- Distinct runs of bytes, sorted and joined: each byte of a window is read once (R298). -/
def tidyRuns (rs : List (Nat × Nat)) : List (Nat × Nat) := joinRuns ((rs.eraseDups).foldr insertRun [])

/-! ### A command and its channel -/

def MovChan.reset : MovChan := ⟨none, 0, false, [], [], [], [], none, false⟩

def State.movChan (s : State) (q ch : Nat) : MovChan := s.mov.get (fun _ => MovChan.reset) (4 * q + ch)

def State.setMovChan (s : State) (q ch : Nat) (c : MovChan) : State :=
  { s with mov := s.mov.set (fun _ => MovChan.reset) (4 * q + ch) c }

def Job.movCmd (j : Job) : MovCmd := MovCmd.parse j.body

/-- A command's place in its channel: its own progress, or none yet (R316). -/
def State.movProgress (s : State) (j : Job) : MovChan :=
  let ch := s.movChan j.square j.movCmd.chan
  if ch.job = some j.id then ch else { MovChan.reset with job := some j.id }

/-- Changes a command's progress. -/
def State.modMov (s : State) (j : Job) (f : MovChan → MovChan) : State :=
  s.setMovChan j.square j.movCmd.chan (f (s.movProgress j))

/-- The present window or chunk is done, and its buffers are free (R289, R303). -/
def MovChan.next (ch : MovChan) : MovChan := { ch with window := ch.window + 1, writing := false, buf := [], key := none }

/-! ### Reading and writing -/

/-- The transaction by which a command reads or writes a run on another device. -/
def State.txFor (s : State) (id : Nat) (write : Bool) (g n : Nat) : Option Tx :=
  s.fab.txs.find? (fun t => t.owner = .job id && t.isWrite == write && t.dev = BitVec.ofNat 16 (g / 2 ^ 48)
    && t.addr = localOf g && t.len = n)

/-- A command's transactions. -/
def State.movTxs (s : State) (id : Nat) : List Tx := s.fab.txs.filter (fun t => t.owner = .job id)

/-- A command's transactions are over; the answers that came for them entered the square (R148). -/
def State.dropTxs (s : State) (j : Job) : State :=
  ({ s with fab := { s.fab with txs := s.fab.txs.filter (fun t => t.owner ≠ TxOwner.job j.id) } }).meshTrip (some j.square) none 0
    ((s.movTxs j.id).filter (fun (t : Tx) => t.got.isSome || t.fail.isSome)).length

/-- Whether the units that a run of local addresses needs are RUNNING (R108, R345). -/
def State.localReady (s : State) (p : Fin 16) (home a n : Nat) : Bool :=
  match s.placeOf a n with
  | .mem a => s.injects (some home) && s.memReady p a n
  | .spad q _ => q = home || (s.injects (some home) && s.running (pgMesh q))
  | _ => true

/-- Whether a run lies in a device's DRS, which a mover never addresses (R284): a table's entry or a stride that leads there ends
the command PARTITION_FAULT, as on this device (assumption 31). -/
def inDrs (g n : Nat) : Bool := decide (drsBase < localOf g + n)

/-- A command sends a request to another device over the mesh (R148), unless its square's MESH page holds it back. -/
def State.movRequest (s : State) (j : Job) (g n : Nat) (write : Option (List Byte)) : State :=
  (s.request j.part (.job j.id) (BitVec.ofNat 16 (g / 2 ^ 48)) (localOf g) n write j.ctx (some j.promise)).meshTrip
    (some j.square) none (if write.isSome then meshFlits n else 1) 0

/-- What the command's buffers take of a run: each run is read once a window (R298). -/
def State.keepRun (s : State) (j : Job) (g : Nat) (bs : List Byte) : State :=
  s.modMov j (fun ch => { ch with buf := ch.buf ++ [(g, bs)] })

/-- Reads one run for a command: from its buffers, from this device at once, or from another once its READ is answered. -/
def State.fetchRun (s : State) (j : Job) (side g n : Nat) : MStep (List Byte) × State :=
  match (s.movProgress j).buf.find? (fun x => x.1 = g && x.2.length = n) with
  | some x => (.ok x.2, s)
  | none =>
    if isHere g then
      match s.localRead j.part (some j.square) j.square (localOf g) n with
      | (.ok bs, s1) => (.ok bs, s1.keepRun j g bs)
      | (.fail c, s1) => (.fail c side g, s1)
      | (.wait, s1) => (.wait, s1)
    else if inDrs g n then (.fail cPartitionFault side g, s)
    else
      match s.txFor j.id false g n with
      | some t =>
        (match t.fail, t.got with
          | some c, _ => (.fail c side g, s)
          | none, some bs => (.ok bs, ((s.closeTx t.tag).meshTrip (some j.square) none 0 (meshFlits n)).keepRun j g bs)
          | none, none => (.wait, s))
      | none =>
        if !s.injects (some j.square) || !s.tagFree j then (.wait, s)
        else
          let s1 := s.movRequest j g n none
          (match (s1.txFor j.id false g n).bind (·.fail) with
            | some c => (.fail c side g, s1)
            | none => (.wait, s1))

/-- Reads runs for a command: every request goes out before any answer is waited for. A failure carries the failing run's
address. -/
def State.fetch (s : State) (j : Job) (rs : List (Nat × Nat)) (side : Nat) : MStep Fetched × State :=
  (tidyRuns (rs.map (fun r => (s.canonAddr r.1, r.2)))).foldl (fun (acc, s) r =>
    match acc with
    | .fail .. => (acc, s)
    | _ =>
      match s.fetchRun j side r.1 r.2, acc with
      | (.ok bs, s1), .ok l => (.ok (l ++ [(r.1, bs)]), s1)
      | (.fail a b c, s1), _ => (.fail a b c, s1)
      | (_, s1), _ => (.wait, s1)) (.ok [], s)

/-- Whether a run cannot be read, or a request for a part of it has failed. -/
def State.lost (s : State) (j : Job) (r : Nat × Nat) : Bool :=
  let g := s.canonAddr r.1
  if isHere g then
    match (s.localRead j.part (some j.square) j.square (localOf g) r.2).1 with
    | .fail _ => true
    | _ => false
  else inDrs g r.2 || (s.movTxs j.id).any (fun t => t.fail.isSome && t.dev = BitVec.ofNat 16 (g / 2 ^ 48)
    && decide (t.addr < localOf g + r.2) && decide (localOf g < t.addr + t.len))

/-- The position of a failure: the first of some items with a run that is lost; where none is, `first`. -/
def State.lostAt {α : Type} (s : State) (j : Job) (xs : List (Nat × α)) (runs : α → List (Nat × Nat)) (first : Nat) : Nat :=
  ((xs.find? (fun x => (runs x.2).any (s.lost j))).map (·.1)).getD first

/-- Puts a position in place of the failing address. -/
def MStep.placed {α : Type} (x : MStep α) (pos : Nat) : MStep α :=
  match x with
  | .fail a b _ => .fail a b pos
  | y => y

/-- What a window writes: bytes by global address. -/
abbrev OutBytes := FMap (Option Byte)

def noOut (_ : Nat) : Option Byte := none

/-- Puts a code of `w` bits at a global bit address; bits of a byte that no code covers come from `old`. -/
def putOut (old : Fetched) (m : OutBytes) (ba w code : Nat) : OutBytes :=
  let a := ba / 8
  let n := (ba + w - 1) / 8 + 1 - a
  let v := putBits (leNat ((span a n).map (fun g => (m.get noOut g).getD (old.byte g)))) (ba % 8 + w - 1) (ba % 8) code
  ((leBytes n v).zipIdx).foldl (fun m (b, i) => m.set noOut (a + i) (some b)) m

/-- The runs of what a window writes, with their bytes. -/
def outRuns (m : OutBytes) : List (Nat × List Byte) :=
  (tidyRuns (m.keys.map (fun g => (g, 1)))).map (fun r => (r.1, (span r.1 r.2).map (fun g => (m.get noOut g).getD 0)))

/-! ### A window's elements -/

/-- One destination element of a window: its position, where it goes, and what it takes: a value from the source tuple, the
fill value, or nothing. -/
inductive MFrom where
  | src (t : List Nat)
  | fill
  | drop
deriving DecidableEq, Repr

structure MItem where
  k : Nat
  dst : List Nat
  src : MFrom
deriving DecidableEq, Repr

/-- Elements of one window (R289). -/
def winSize : Nat := 4096

def MovCmd.windowKs (c : MovCmd) (w : Nat) : List Nat := (span (w * winSize) winSize).filter (fun k => decide (k < c.elems))

/-- The index positions of a window, ascending. -/
def MovCmd.windowPos (c : MovCmd) (w : Nat) : List Nat :=
  (((c.windowKs w).map (fun k =>
    let j := tupleOf c.dext k
    nth 0 (if c.op = mGather then c.srcTuple j else j) c.idxDim)).eraseDups.map (fun p => (p, 0))).foldr insertRun [] |>.map
      (·.1)

/-- Maps a window's indices (R296, R297, R299): each position with its mapped index, and the presence map as the window leaves it.
A position that a later window takes up again is no repeat. -/
def State.mapWindow (s : State) (j : Job) (c : MovCmd) (ch : MovChan) (w : Nat) :
    MStep (List (Nat × Mapped) × List Nat) × State :=
  let ps := c.windowPos w
  match s.fetch j (ps.map (fun p => (c.idxAddr + 4 * p, 4))) sideIdx with
  | (.fail a b _, s1) =>
    (.fail a b (s1.lostAt j (ps.map (fun p => (p, p))) (fun p => [(c.idxAddr + 4 * p, 4)]) (ps.headD 0)), s1)
  | (.wait, s1) => (.wait, s1)
  | (.ok f, s1) =>
    let r := ps.foldl (fun (acc : MStep (List (Nat × Mapped) × List Nat)) p =>
      match acc with
      | .ok (l, seen) =>
        let x := c.mapIndex (signed 32 (f.code (s1.canonAddr (c.idxAddr + 4 * p) * 8) 32))
        (match x with
          | .out => .fail cIndexRange sideIdx p
          | .at v =>
            let key := p * 2 ^ 23 + v
            if c.op = mScatter ∧ c.wmode = 0 ∧ seen.any (fun y => decide (y % 2 ^ 23 = v) && decide (y ≠ key)) then
              .fail cAliasWrite sideDst p
            else .ok (l ++ [(p, x)], if seen.any (fun y => y = key) then seen else key :: seen)
          | .fill => .ok (l ++ [(p, x)], seen))
      | a => a) (.ok ([], ch.present))
    (r, s1)

/-- The items of a window. -/
def MovCmd.items (c : MovCmd) (w : Nat) (idx : List (Nat × Mapped)) : List MItem :=
  let look (p : Nat) : Mapped := ((idx.find? (fun x => x.1 = p)).map (·.2)).getD .fill
  (c.windowKs w).map (fun k =>
    let j := tupleOf c.dext k
    let i := c.srcTuple j
    if c.op = mFill then ⟨k, j, .fill⟩
    else if c.op = mGather then
      match look (nth 0 i c.idxDim) with
      | .at x => ⟨k, j, .src (setNth i c.idxDim x)⟩
      | _ => ⟨k, j, .fill⟩
    else if c.op = mScatter then
      match look (nth 0 j c.idxDim) with
      | .at x => ⟨k, setNth j c.idxDim x, .src i⟩
      | _ => ⟨k, j, .drop⟩
    else ⟨k, j, .src i⟩)

/-- Reads in `MOV_COALESCED`: index positions of a window of a GATHER, or of a SCATTER under ACCUMULATE, that a former
access serves (R298). -/
def coalesced (idx : List (Nat × Mapped)) : Nat :=
  let xs := idx.filterMap (fun x => match x.2 with
    | .at v => some v
    | _ => none)
  xs.length - xs.eraseDups.length

/-- A side's owner table as its submission kept it, and the entries that some items need, each read when the command first uses it
(R306). -/
def State.sideEntries (s : State) (j : Job) (dst : Bool) (ts : List (Nat × List Nat)) (first : Nat) :
    MStep (Option OwnerTable × List (Nat × Nat × Nat)) × State :=
  let c := j.movCmd
  let x := if dst then c.dst else c.src
  match c.keptTable j.prog dst with
  | none => (.ok (none, []), s)
  | some t =>
    let blockOf (tu : List Nat) : Nat := (t.locate ((x.origin.zip tu).map (fun (a, b) => a + b))).1
    let used (s : State) : List (Nat × Nat × Nat) :=
      ((s.movProgress j).entries.filter (fun e => decide (e.1 = b01 dst))).map (·.2)
    let need := ((ts.map (fun y => blockOf y.2)).eraseDups).filter (fun e => !((used s).any (fun y => y.1 = e)))
    let run (e : Nat) : Nat × Nat := (x.addr + 128 + 16 * e, 16)
    match s.fetch j (need.map run) sideTab with
    | (.fail a b _, s1) => (.fail a b (s1.lostAt j ts (fun tu => [run (blockOf tu)]) first), s1)
    | (.wait, s1) => (.wait, s1)
    | (.ok f, s1) =>
      let at_ (g : Nat) : Nat := f.code (s1.canonAddr g * 8) 64
      let new := need.map (fun e => (b01 dst, e, at_ (x.addr + 128 + 16 * e), at_ (x.addr + 136 + 16 * e)))
      let s2 := s1.modMov j (fun ch => { ch with entries := ch.entries ++ new })
      (.ok (some t, used s2), s2)

def entryOf (es : List (Nat × Nat × Nat)) (e : Nat) : Nat × Nat :=
  match es.find? (fun x => x.1 = e) with
  | some (_, v, sc) => (v, sc)
  | none => (0, 0)

/-- A side's place function for one window. -/
structure Placer where
  side : MSide
  ext : List Nat
  table : Option OwnerTable
  entries : List (Nat × Nat × Nat)
deriving DecidableEq, Repr

def Placer.at (p : Placer) (t : List Nat) : Nat × Nat := p.side.locate p.ext t p.table (entryOf p.entries)

/-- The byte runs of an element, its scale included. -/
def Placer.runs (p : Placer) (t : List Nat) : List (Nat × Nat) :=
  let (ba, sc) := p.at t
  (ba / 8, (ba + p.side.format.width - 1) / 8 + 1 - ba / 8) :: (if p.side.scaled then [(sc, 1)] else [])

/-- The value of a source element, decoded to FP32 (R293): under its block's scale and SRC_T. A finite value beyond FP32's range is
rounded to an infinity, which meets OVERFLOW (R40; DESIGN CHOICE, assumption 127). -/
def Placer.value (p : Placer) (f : Fetched) (t : List Nat) : Val × Traps :=
  let (ba, sc) := p.at t
  let c := f.code ba p.side.format.width
  let exact :=
    if p.side.scaled then
      let v := scaledVal p.side.format (f.code (sc * 8) 8) c
      if p.side.ts then v.mul (of32 p.side.t) else v
    else p.side.format.decode c
  let v := rnd32 exact
  (v, if exact.isFin && v.isInf then Traps.ovf else Traps.none)

/-- The fill value: FP32 for a float destination, INT32 for an integer one. -/
def MovCmd.fillVal (c : MovCmd) : Val :=
  if c.dst.format.isInt && !c.dst.scaled then Val.ofInt (signed 32 c.fill) else of32 c.fill

def MovCmd.rnd (c : MovCmd) : Rnd := (Rnd.ofCode c.round).getD .nearestEven

def MovCmd.rand (c : MovCmd) (k : Nat) : Nat := if c.rnd = .stochastic then srBits c.seed k else 0

/-- What a window makes: the bytes it writes, and the first position that meets a trap condition. -/
structure MOut where
  bytes : OutBytes
  trap : Option Nat
deriving DecidableEq, Repr

def MOut.add (o : MOut) (old : Fetched) (ba w code : Nat) (k : Nat) (t : Traps) : MOut :=
  ⟨putOut old o.bytes ba w code, match o.trap with
    | some x => some x
    | none => if t.any then some k else none⟩

/-- The value an item brings (R293). -/
def MovCmd.itemVal (c : MovCmd) (src : Placer) (f : Fetched) (i : MItem) : Val × Traps :=
  match i.src with
  | .src t => src.value f t
  | _ => (c.fillVal, Traps.none)

/-- Whether an item is written. -/
def MItem.kept (i : MItem) : Bool := i.src ≠ .drop

/-- The code of a source element, unconverted. -/
def Placer.rawCode (p : Placer) (f : Fetched) (t : List Nat) : Nat × Nat :=
  let (ba, sc) := p.at t
  (f.code ba p.side.format.width, if p.side.scaled then f.code (sc * 8) 8 else 0)

/-- Writes one block of 32 destination elements (R292, R293): codes and scale copied, or formed afresh. -/
def MovCmd.putBlock (c : MovCmd) (src dst : Placer) (f : Fetched) (o : MOut) (blk : List MItem) : MOut :=
  match blk with
  | [] => o
  | i0 :: _ =>
    if !i0.kept then o
    else
      let w := dst.side.format.width
      let raw := blk.map (fun i => match i.src with
        | .src t => some (src.rawCode f t)
        | _ => none)
      let sc0 := match raw.headD none with
        | some r => r.2
        | none => 0
      let (sc, codes, tr) :=
        if c.plain && raw.all (fun r => match r with
          | some x => x.2 = sc0
          | none => false) then
          (sc0, raw.map (fun r => (r.getD (0, 0)).1), Traps.none)
        else
          let vs := blk.map (c.itemVal src f)
          let (sc, codes, tr) := formBlock dst.side.format c.rnd c.sat c.seed i0.k
            (vs.map (fun v => if dst.side.ts then fdiv v.1 (of32 dst.side.t) else v.1))
          (sc, codes, vs.foldl (fun t v => t.or v.2) tr)
      let bad := ((blk.find? (fun i => !(c.itemVal src f i).1.isFin)).map (·.k)).getD i0.k
      let o1 := o.add [] ((dst.at i0.dst).2 * 8) 8 sc bad tr
      (blk.zip codes).foldl (fun o (i, code) => o.add [] (dst.at i.dst).1 w code i.k Traps.none) o1

/-- Converts one unscaled element (R292, R293). -/
def MovCmd.convertItem (c : MovCmd) (src : Placer) (f : Fetched) (i : MItem) : Nat × Traps :=
  match c.plain, i.src with
  | true, .src t => ((src.rawCode f t).1, Traps.none)
  | _, _ =>
    let (v, t) := c.itemVal src f i
    let (code, t1) := c.dst.format.convert c.rnd c.sat (c.rand i.k) v
    (code, t.or t1)

/-- The contribution that an item brings to a sum: a plain copy's element as it is, any other decoded to FP32 (R292, R293). -/
def MovCmd.contribution (c : MovCmd) (src : Placer) (f : Fetched) (i : MItem) : Val × Traps :=
  match c.plain, i.src with
  | true, .src t => (c.src.format.decode (src.rawCode f t).1, Traps.none)
  | _, _ => c.itemVal src f i

/-- The sum that an element of an ACCUMULATE destination receives in one window: its present value, then the contributions
in ascending k, in FP32 or INT32, converted once (R290). DESIGN CHOICE: under STOCHASTIC the conversion of the sum takes the random
value of its last contribution's k, since R36 counts destination elements and the colliding contributions have several
(assumption 128). -/
def MovCmd.accumulateItems (c : MovCmd) (src : Placer) (f old : Fetched) (ba : Nat) (is : List MItem) : Nat × Traps :=
  let g := c.dst.format
  let v0 := g.decode (old.code ba g.width)
  let (v, t) := is.foldl (fun (acc, t) i =>
    let (x, t0) := c.contribution src f i
    if g.isInt then
      let (code, t1) := Fmt.i32.convert c.rnd c.sat (c.rand i.k) x
      (acc.add (Fmt.i32.decode code), (t.or t0).or t1)
    else
      let y := fadd acc x
      (y, (t.or t0).or (opTraps [acc, x] (acc.add x) y))) (v0, Traps.none)
  let (code, t2) := g.convert c.rnd c.sat (c.rand ((is.getLast?.map (·.k)).getD 0)) v
  (code, t.or t2)

/-- Everything a window writes. `occ` numbers the free choices of ANY. -/
def MovCmd.make (c : MovCmd) (src dst : Placer) (f old : Fetched) (occ : Nat) (is : List MItem) : MOut :=
  let w := c.dst.format.width
  if c.dst.scaled then
    (Sys2Proof.Machine.chunks 32 is).foldl (c.putBlock src dst f) ⟨emptyMap, none⟩
  else
    let kept := (is.filter MItem.kept).map (fun i => ((dst.at i.dst).1, i))
    if c.wmode = 1 then
      ((kept.map (·.1)).eraseDups).foldl (fun o ba =>
        let mine := (kept.filter (fun x => x.1 = ba)).map (·.2)
        let (code, t) := c.accumulateItems src f old ba mine
        o.add old ba w code ((mine.map (·.k)).headD 0) t) ⟨emptyMap, none⟩
    else
      kept.foldl (fun o (ba, i) =>
        let (code, t) := c.convertItem src f i
        let win :=
          if c.wmode ≠ 2 then code
          else
            let mates := kept.filter (fun x => x.1 = ba)
            match mates[Config.freeNat occ ba % mates.length]? with
            | some (_, m) => (c.convertItem src f m).1
            | none => code
        o.add old ba w win i.k t) ⟨emptyMap, none⟩

/-- The padding blocks of a wire-form destination follow its last block, with LIMIT for a scattered dimension (R51, R294,
R295). -/
def MovCmd.padding (c : MovCmd) (last : Bool) (m : OutBytes) : OutBytes :=
  if !c.dst.wire || !last then m
  else
    let w := c.dst.format.width
    let blocks := prodNat c.dstExt / 32
    (span blocks (roundUp blocks 8 - blocks)).foldl (fun m b =>
      let u := c.dst.addr + b / 8 * (8 + 32 * w)
      let m1 := m.set noOut (u + b % 8) (some 0)
      (List.range (4 * w)).foldl (fun m i => m.set noOut (u + 8 + b % 8 * (4 * w) + i) (some 0)) m1) m

/-- The padding blocks of a wire-form source, which the last window reads and discards (R294). -/
def MovCmd.sourcePadding (c : MovCmd) (last : Bool) : List (Nat × Nat) :=
  if !c.src.wire || !last then []
  else
    let w := c.src.format.width
    let blocks := prodNat c.srcExt / 32
    (span blocks (roundUp blocks 8 - blocks)).flatMap (fun b =>
      let u := c.src.addr + b / 8 * (8 + 32 * w)
      [(u + b % 8, 1), (u + 8 + b % 8 * (4 * w), 4 * w)])

/-! ### Running a command -/

/-- A running mover command ends (R314, R316, R318, R319): `MOV_LAST_FAULT`, the status bit of its ending, and cleared
buffers. -/
def State.movEnd (s : State) (j : Job) (code side pos : Nat) : State :=
  let c := j.movCmd
  let pn := pgMov j.square
  let s1 := ((s.endJob j.id code).dropTxs j).setMovChan j.square c.chan MovChan.reset
  if code = cDone then s1
  else
    let s2 := s1.setReg pn R.MOV_LAST_FAULT (word (code * 2 ^ 24 + c.chan * 2 ^ 22 + c.op * 2 ^ 8 + side))
    let s3 := (s2.setReg pn R.MOV_FAULT_POS_LO (word pos)).setReg pn R.MOV_FAULT_POS_HI (word (pos / 2 ^ 32))
    if code = cAborted then s3
    else s3.statusAll pn (if code = cTagMismatch then 4 else if code = cIndexRange then 5 else if code = cAliasWrite then 6 else 7)

/-- Cells of this device without a stated value. -/
def State.openLocal (s : State) (n : Nat) (a len : Nat) : State :=
  match s.placeOf a len with
  | .mem a => (span a len).foldl (fun s x => s.setMemCell x (.unstated n)) s
  | .spad q o => (span o len).foldl (fun s x => s.setSpadCell (s.spadKey q x) (.unstated n)) s
  | _ => s

/-- The destination elements of some positions become unspecified, as far as they lie on this device and are not dropped
(R314, R41). -/
def State.movOpen (s : State) (j : Job) (dst : Placer) (is : List MItem) : State :=
  let (n, s1) := s.fresh
  ((is.filter MItem.kept).flatMap (fun i => dst.runs i.dst)).foldl (fun s r =>
    let g := s.canonAddr r.1
    if isHere g ∧ s.localAllowed j.part (localOf g) r.2 then s.openLocal n (localOf g) r.2 else s) s1

/-- The items of a window as their destinations alone ask: a SCATTER's by the indices that can be read. -/
def State.windowItems (s : State) (j : Job) (c : MovCmd) (w : Nat) : List MItem :=
  if c.op ≠ mScatter then c.items w []
  else
    c.items w ((c.windowPos w).map (fun p =>
      (p, match (s.localRead j.part (some j.square) j.square (localOf (s.canonAddr (c.idxAddr + 4 * p))) 4).1 with
        | .ok bs => (match c.mapIndex (signed 32 (leNat bs)) with
          | .at v => Mapped.at v
          | _ => .fill)
        | _ => .fill)))

/-- Some items' elements become unspecified. -/
def State.movOpenItems (s : State) (j : Job) (is : List MItem) : State :=
  let c := j.movCmd
  match s.sideEntries j true (is.map (fun i => (i.k, i.dst))) 0 with
  | (.ok (t, es), s1) => s1.movOpen j ⟨c.dst, c.dstExt, t, es⟩ is
  | (_, s1) => s1

/-- The window or chunk in which a command fails becomes unspecified (R314); PLAN's table does not. -/
def State.movOpenWindow (s : State) (j : Job) : State :=
  let c := j.movCmd
  let w := (s.movProgress j).window
  if c.op = mPlan then s
  else if c.op = mDecrypt then
    let (n, s1) := s.fresh
    s1.openLocal n (localOf c.dst.addr + 65536 * w) (min 65536 (nth 0 c.ext 0 - 65536 * w))
  else s.movOpenItems j (s.windowItems j c w)

/-- The position that stands for a whole window (R318): its first k; of DECRYPT, its chunk. -/
def State.movAt (s : State) (j : Job) : Nat :=
  let c := j.movCmd
  let w := (s.movProgress j).window
  if c.op = mDecrypt then c.chunk0 + w else if c.op = mPlan then 0 else w * winSize

/-- A command fails in its present window, whose destination becomes unspecified (R314). -/
def State.movBreak (s : State) (j : Job) (code side pos : Nat) : State := (s.movOpenWindow j).movEnd j code side pos

/-- Puts one run: here at once, elsewhere as a WRITE packet (R313). Answers the code of its failure, if it fails at once. -/
def State.putRun (s : State) (j : Job) (r : Nat × List Byte) : Option Nat × State :=
  if isHere r.1 then
    match s.localWrite j.part (some j.square) j.square (localOf r.1) r.2 with
    | (.fail c, s1) => (some c, s1)
    | (_, s1) => (none, s1)
  else if inDrs r.1 r.2.length then (some cPartitionFault, s)
  else
    let s1 := s.movRequest j r.1 r.2.length (some r.2)
    ((s1.txFor j.id true r.1 r.2.length).bind (·.fail), s1)

/-- Whether a run can be written, or sent on its way, now: a WRITE needs a tag (R395). -/
def State.runReady (s : State) (j : Job) (r : Nat × List Byte) : Bool :=
  if isHere r.1 then s.localReady j.part j.square (localOf r.1) r.2.length
  else inDrs r.1 r.2.length || (s.injects (some j.square) && s.tagFree j)

/-- Puts runs in order, up to the first that must wait. Answers the code of a run that failed at once, and the runs that are
left. -/
def State.putRuns (j : Job) : List (Nat × List Byte) → State → Option Nat × List (Nat × List Byte) × State
  | [], s => (none, [], s)
  | r :: t, s =>
    if !s.runReady j r then (none, r :: t, s)
    else
      match s.putRun j r with
      | (some c, s1) => (some c, [], s1)
      | (none, s1) => State.putRuns j t s1

/-- Whether a command's writes on other devices are all answered, or the code of one that failed. -/
def State.writesDone (s : State) (id : Nat) : MStep Unit :=
  let ts := (s.movTxs id).filter (·.isWrite)
  match ts.findSome? (·.fail) with
  | some c => .fail c sideDst 0
  | none => if ts.all (fun t => t.got.isSome) then .ok () else .wait

/-- The first k of some items with a lost run. -/
def State.lostItem (s : State) (j : Job) (is : List MItem) (runs : MItem → List (Nat × Nat)) (first : Nat) : Nat :=
  s.lostAt j (is.map (fun i => (i.k, i))) runs first

/-- The source tuple of an item, if it takes one. -/
def MItem.tuple? (i : MItem) : Option (List Nat) :=
  match i.src with
  | .src t => some t
  | _ => none

/-- A window's sides, its addresses folded: the placers of source and destination, and the state after the reads of entries. -/
def State.movSides (s : State) (j : Job) (c : MovCmd) (is : List MItem) (k0 : Nat) : MStep (Placer × Placer) × State :=
  let srcs := is.filterMap (fun i => i.tuple?.map (fun t => (i.k, t)))
  match s.sideEntries j false srcs k0 with
  | (.fail a b d, s1) => (.fail a b d, s1)
  | (.wait, s1) => (.wait, s1)
  | (.ok (ts, es), s1) =>
    match s1.sideEntries j true ((is.filter MItem.kept).map (fun i => (i.k, i.dst))) k0 with
    | (.fail a b d, s2) => (.fail a b d, s2)
    | (.wait, s2) => (.wait, s2)
    | (.ok (td, ed), s2) =>
      let fold (p : Placer) : Placer := { p with
        side := { p.side with addr := s2.canonAddr p.side.addr, saddr := s2.canonAddr p.side.saddr }
        entries := p.entries.map (fun e => (e.1, s2.canonAddr e.2.1, s2.canonAddr e.2.2)) }
      (.ok (fold ⟨c.src, c.srcExt, ts, es⟩, fold ⟨c.dst, c.dstExt, td, ed⟩), s2)

/-- One window of a data command (R287 to R299): what it reads and makes, then its writes. Answers the presence map that it leaves
and the reads that the coalescing buffer saved. -/
def State.movWindow (s : State) (j : Job) (c : MovCmd) (ch : MovChan) : MStep (MOut × List Nat × Nat) × State :=
  let w := ch.window
  let k0 := w * winSize
  let last := decide (c.elems ≤ k0 + winSize)
  match (if c.indexed then s.mapWindow j c ch w else (.ok ([], ch.present), s)) with
  | (.fail a b d, s1) => (.fail a b d, s1)
  | (.wait, s1) => (.wait, s1)
  | (.ok (idx, seen), s1) =>
    let is := c.items w idx
    match s1.movSides j c is k0 with
    | (.fail a b d, s2) => (.fail a b d, s2)
    | (.wait, s2) => (.wait, s2)
    | (.ok (src, dst), s2) =>
      let srcRuns (i : MItem) : List (Nat × Nat) := (i.tuple?.map src.runs).getD []
      match s2.fetch j (is.flatMap srcRuns ++ c.sourcePadding last) sideSrc with
      | (.fail a b _, s3) => (.fail a b (s3.lostItem j is srcRuns k0), s3)
      | (.wait, s3) => (.wait, s3)
      | (.ok f, s3) =>
        let dstRuns (i : MItem) : List (Nat × Nat) :=
          if i.kept && !c.dst.scaled && (c.wmode = 1 || c.dst.format.subByte) then dst.runs i.dst else []
        match s3.fetch j (is.flatMap dstRuns) sideDst with
        | (.fail a b _, s4) => (.fail a b (s4.lostItem j is dstRuns k0), s4)
        | (.wait, s4) => (.wait, s4)
        | (.ok old, s4) =>
          let (occ, s5) := if c.wmode = 2 then s4.fresh else (0, s4)
          let out := c.make src dst f old occ is
          (.ok (⟨c.padding last (out.bytes), out.trap⟩, seen,
            if c.op = mGather ∨ (c.op = mScatter ∧ c.wmode = 1) then coalesced idx else 0), s5)

/-- Adds to `MOV_BYTES`. -/
def State.countMoved (s : State) (q n : Nat) : State := s.bump64 (pgMov q) R.MOV_BYTES_LO n

/-- Whether a command stands at the end of a window or chunk: at least one is done, and nothing of the next has begun (R315). -/
def State.atBoundary (s : State) (j : Job) : Bool :=
  let ch := s.movProgress j
  decide (0 < ch.window) && !ch.writing && ch.buf.isEmpty && (s.movTxs j.id).isEmpty

/-- Whether a mover's running commands end at their next boundary: its page drains under `CTRL.DRAIN` 0 (R315). -/
def State.movAborts (s : State) (q : Nat) : Bool :=
  decide ((s.page (pgMov q)).st = .draining) && !(s.page (pgMov q)).drain

/-- The k of the first item whose destination cannot be written. -/
def State.badWrite (s : State) (j : Job) (c : MovCmd) : Nat :=
  let w := (s.movProgress j).window
  let is := s.windowItems j c w
  match (s.movSides j c is (w * winSize)).1 with
  | .ok (_, dst) => s.lostItem j (is.filter MItem.kept) (fun i => dst.runs i.dst) (w * winSize)
  | _ => w * winSize

/-- Runs a data command from its present window on, two turns of `fuel` a window: what it makes, then its writes. The command whose
last window is written completes DONE; before any later window it may end ABORTED (R315; assumption 129). -/
def State.movWindows (j : Job) (c : MovCmd) : Nat → State → State
  | 0, s => s
  | f + 1, s =>
    let ch := s.movProgress j
    if c.elems ≤ ch.window * winSize then s.movEnd j cDone sideNone 0
    else if s.atBoundary j && s.movAborts j.square then s.movEnd j cAborted sideNone (ch.window * winSize)
    else if ch.writing then
      match State.putRuns j ch.out s with
      | (some code, _, s1) => s1.movBreak j code sideDst (s1.badWrite j c)
      | (none, rest, s1) =>
        let s2 := s1.modMov j (fun ch => { ch with out := rest })
        match s2.writesDone j.id with
        | .wait => s2
        | .fail code side _ => s2.movBreak j code side (s2.badWrite j c)
        | .ok _ => if rest.isEmpty then State.movWindows j c f ((s2.dropTxs j).modMov j MovChan.next) else s2
    else
      let (r, _, s1) := s.atMostOneFault j.square false (fun s => s.movWindow j c ch)
      match r with
      | .wait => s1
      | .fail code side pos =>
        if code = cIndexRange ∨ code = cAliasWrite then s1.movEnd j code side pos else s1.movBreak j code side pos
      | .ok (out, seen, saved) =>
        let rs := outRuns out.bytes
        match c.trap, out.trap with
        | true, some k =>
          (s1.movOpenItems j ((List.range (ceilDiv c.elems winSize)).flatMap (s1.windowItems j c))).movEnd j cNumericTrap sideDst k
        | _, _ =>
          let s2 := (s1.countMoved j.square (rs.map (fun r => r.2.length)).sum).bump (pgMov j.square) R.MOV_COALESCED saved
          State.movWindows j c f ((s2.dropTxs j).modMov j (fun ch => { ch with present := seen, writing := true, out := rs }))

/-- The running mover command of a given opcode. -/
def State.onMov (s : State) (id op : Nat) (f : Job → State → State) : State :=
  match (s.job? id).filter (fun j => j.isRunning && decide (j.target = tMov) && decide (j.movCmd.op = op)) with
  | some j => f j s
  | none => s

/-- A data command goes on. -/
def State.movData (j : Job) (s : State) : State :=
  State.movWindows j j.movCmd (2 * ceilDiv j.movCmd.elems winSize + 2) s

/-- COPY (R287 to R294). -/
def execCopy (id : Nat) (s : State) : Host.Outcome State Fault Refusal := done s (s.onMov id mCopy State.movData)

/-- GATHER (R295 to R298). -/
def execGather (id : Nat) (s : State) : Host.Outcome State Fault Refusal := done s (s.onMov id mGather State.movData)

/-- SCATTER (R295 to R299). -/
def execScatter (id : Nat) (s : State) : Host.Outcome State Fault Refusal := done s (s.onMov id mScatter State.movData)

/-- FILL (R299). -/
def execFill (id : Nat) (s : State) : Host.Outcome State Fault Refusal := done s (s.onMov id mFill State.movData)

/-! ### DECRYPT (R300 to R303) -/

/-- The IV and the additional data of chunk c (R300). -/
def gcmIv (nonce chunk : Nat) : List Byte := leBytes 8 nonce ++ (leBytes 4 chunk).reverse
def gcmAad (nonce chunk n : Nat) : List Byte := gcmIv nonce chunk ++ (leBytes 4 n).reverse

/-- The key of a command's present chunk: the one with which the chunk began, else the one that the slot holds, unless the
command's own has gone (R302, R493). -/
def State.chunkKey (s : State) (j : Job) (c : MovCmd) : Option (List Byte) :=
  match (s.movProgress j).key with
  | some k => some k
  | none => if (s.movProgress j).keyGone then none else (s.keyFor j.part c.keySlot).map (·.key)

/-- The pieces of a chunk's ciphertext, and its tag. -/
def MovCmd.chunkRuns (c : MovCmd) (i : Nat) : List (Nat × Nat) :=
  let len := min 65536 (nth 0 c.ext 0 - 65536 * i)
  (List.range (ceilDiv len 1024)).map (fun k => (c.src.addr + 65536 * i + 1024 * k, min 1024 (len - 1024 * k)))
    ++ [(c.src.saddr + 16 * i, 16)]

/-- Runs a DECRYPT from its present chunk on. A chunk runs to its end with the key that it began with. -/
def State.decryptChunks (j : Job) (c : MovCmd) : Nat → State → State
  | 0, s => s
  | f + 1, s =>
    let i := (s.movProgress j).window
    let chunk := c.chunk0 + i
    if c.chunks ≤ i then s.movEnd j cDone sideNone 0
    else if s.atBoundary j && s.movAborts j.square then s.movEnd j cAborted sideNone chunk
    else
      match s.chunkKey j c with
      | none => s.movEnd j cKeyAbsent sideKey chunk
      | some key =>
        let len := min 65536 (nth 0 c.ext 0 - 65536 * i)
        let a := c.src.addr + 65536 * i
        let t := c.src.saddr + 16 * i
        let (r, _, s1) := s.atMostOneFault j.square false (fun s =>
          (s.modMov j (fun ch => { ch with key := some key })).fetch j (c.chunkRuns i) sideSrc)
        match r with
        | .wait => s1
        | .fail code side _ => s1.movBreak j code (if s1.lost j (t, 16) then sideKey else side) chunk
        | .ok fetched =>
          let ct := (span (s1.canonAddr a) len).map fetched.byte
          let tag := (span (s1.canonAddr t) 16).map fetched.byte
          match Config.gcmOpen key (gcmIv c.nonce chunk) (gcmAad c.nonce chunk c.nchunks) ct tag with
          | none =>
            ((s1.bump (pgMov j.square) R.MOV_TAG_FAIL 1).record 0x13 j.part c.keySlot 1).movEnd j cTagMismatch sideKey chunk
          | some plain =>
            let bytes := (List.range len).map (nth 0#8 plain)
            let out := (chunks 2048 bytes).zipIdx.map (fun (b, k) => (hereDev * 2 ^ 48 + localOf c.dst.addr + 65536 * i + 2048 * k, b))
            if !out.all (s1.runReady j) then s1
            else
              let (bad, _, s2) := State.putRuns j out (s1.dropTxs j)
              match bad with
              | some code => s2.movBreak j code sideDst chunk
              | none => State.decryptChunks j c f ((s2.countMoved j.square len).modMov j MovChan.next)

/-- DECRYPT (R300 to R303). -/
def execDecrypt (id : Nat) (s : State) : Host.Outcome State Fault Refusal :=
  done s (s.onMov id mDecrypt (fun j => State.decryptChunks j j.movCmd (j.movCmd.chunks + 1)))

/-! ### PLAN (R308 to R310) -/

/-- A device list read from memory. -/
def deviceIds (bs : List Byte) : List Nat := (chunks 2 bs).map leNat

/-- PLAN: the specification is read and checked; the table is written whole, or nothing is. -/
def State.planRun (j : Job) (s : State) : State :=
  let c := j.movCmd
  let (r, _, s1) := s.atMostOneFault j.square false (fun s => s.fetch j [(c.src.addr, 128)] sideSrc)
  match r with
  | .wait => s1
  | .fail code side _ => s1.movEnd j code side 0
  | .ok f =>
    let base := s1.canonAddr c.src.addr
    let x := ShardSpec.parse ((List.range 16).map (fun i => BitVec.ofNat 64 (f.code ((base + 8 * i) * 8) 64)))
    if !x.accepted || s1.planOverlaps c x then s1.movEnd j cBadDescriptor sideSrc 0
    else
      let (r2, _, s2) := s1.atMostOneFault j.square false (fun s =>
        s.fetch j ((List.range x.devices).map (fun i => (c.src.addr + 128 + 2 * i, 2))) sideSrc)
      match r2 with
      | .wait => s2
      | .fail code side _ => s2.movEnd j code side 0
      | .ok g =>
        let devs := (List.range x.devices).map (fun i => g.code ((base + 128 + 2 * i) * 8) 16)
        if devs.eraseDups.length ≠ devs.length then s2.movEnd j cBadDescriptor sideSrc 0
        else
          let me := findIdxFrom (· = s2.devId.toNat) 0 devs
          let entries := (List.range (prodNat x.nb)).flatMap (fun e =>
            let (v, sc) := x.entry devs me e
            leBytes 8 v ++ leBytes 8 sc)
          let bytes := x.header.flatMap (fun h => leBytes 8 h) ++ entries
          let a := localOf c.dst.addr
          if !s2.localAllowed j.part a bytes.length then s2.movEnd j cPartitionFault sideDst 0
          else
            let out := (chunks 2048 bytes).zipIdx.map (fun (b, k) => (hereDev * 2 ^ 48 + a + 2048 * k, b))
            if !out.all (s2.runReady j) then s2
            else
              let (bad, _, s3) := State.putRuns j out s2
              let s4 := s3.countMoved j.square bytes.length
              match bad with
              | some code => s4.movEnd j code sideDst 0
              | none => s4.movEnd j cDone sideNone 0

def execPlan (id : Nat) (s : State) : Host.Outcome State Fault Refusal := done s (s.onMov id mPlan State.planRun)

end Sys2Proof.Machine
end

