-- ==== Sys2Proof/Machine/TrueFns.lean ====
section
/-!
DEFINITION. The true values that the bounds of the built-in segment tables speak of (R236, R237), to far more bits than any
bound needs: fixed-point sums of the functions' series, and the test whether a result lies within a bound.
-/

namespace Sys2Proof.Machine

/-! ### Fixed point with 160 fraction bits -/

/-- Fraction bits. -/
def fxBits : Nat := 160

def fxOne : Int := 2 ^ fxBits

def fxMul (a b : Int) : Int := Int.fdiv (a * b) fxOne

def fxDiv (a b : Int) : Int := Int.fdiv (a * fxOne) b

/-- A finite value in fixed point, rounded down. -/
def Val.fx : Val → Int
  | .fin s m e =>
    let n := e + (fxBits : Int)
    let a : Int := if 0 ≤ n then m * 2 ^ n.toNat else (m / 2 ^ (-n).toNat : Nat)
    if s then -a else a
  | _ => 0

/-- A fixed-point number × 2^k as a value. -/
def fxVal (a k : Int) : Val := .fin (decide (a < 0)) a.natAbs (k - (fxBits : Int))

/-- The sum of `n` terms, each got from the one before by `next`, whose argument is the term's number; `part` is what a term
adds. -/
def fxSeries (next : Nat → Int → Int) (part : Nat → Int → Int) : Nat → Nat → Int → Int
  | 0, _, _ => 0
  | n + 1, i, t => part i t + fxSeries next part n (i + 1) (next i t)

/-- atanh z for |z| ≤ 1/3, or arctan z with `alt`. -/
def fxAtan (alt : Bool) (z : Int) : Int :=
  let q := fxMul z z
  fxSeries (fun _ t => if alt then -(fxMul t q) else fxMul t q) (fun i t => Int.fdiv t (2 * (i : Int) + 1)) 60 0 z

/-- ln 2. -/
def fxLn2 : Int := 2 * fxAtan false (Int.fdiv fxOne 3)

/-- π, by Machin's formula. -/
def fxPi : Int := 16 * fxAtan true (Int.fdiv fxOne 5) - 4 * fxAtan true (Int.fdiv fxOne 239)

/-- The square root of a non-negative number. -/
def fxSqrt (a : Int) : Int := isqrt (a.toNat * 2 ^ fxBits)

/-- e^r for |r| ≤ 1. -/
def fxExpSmall (r : Int) : Int := fxSeries (fun i t => Int.fdiv (fxMul t r) ((i : Int) + 1)) (fun _ t => t) 50 0 fxOne

/-- e^a as a value. -/
def fxExp (a : Int) : Val :=
  let k := Int.fdiv a fxLn2
  fxVal (fxExpSmall (a - k * fxLn2)) k

/-- ln of a positive value, in fixed point. -/
def Val.fxLn (v : Val) : Int :=
  let j := v.log2Floor
  let m := (v.scale2 (-j)).fx
  2 * fxAtan false (fxDiv (m - fxOne) (m + fxOne)) + j * fxLn2

/-- Σ (−1)^n y^(2n+1) / (n! (2n+1)), with q = y². -/
def fxErfSum (y q : Int) : Int :=
  fxSeries (fun i t => Int.fdiv (-(fxMul t q)) ((i : Int) + 1)) (fun i t => Int.fdiv t (2 * (i : Int) + 1)) 180 0 y

/-- erf x, for |x| ≤ 4. -/
def fxErf (x : Int) : Int := fxMul (fxSqrt (fxDiv (4 * fxOne) fxPi)) (fxErfSum x (fxMul x x))

/-- The normal distribution function at x, for |x| ≤ 8. -/
def fxNcdf (x : Int) : Int :=
  Int.fdiv fxOne 2 + fxMul (fxSqrt (fxDiv fxOne (2 * fxPi))) (fxErfSum x (Int.fdiv (fxMul x x) 2))

/-- 1 / (1 + e^−x), for |x| ≤ 64. -/
def fxSigm (x : Int) : Int := fxDiv fxOne (fxOne + (fxExp (-x)).fx)

/-- An angle reduced by whole turns, at most half a turn either way. -/
def fxTurn (x : Int) : Int := x - Int.fdiv (x + fxPi) (2 * fxPi) * (2 * fxPi)

/-- sin r, |r| ≤ π. -/
def fxSin (r : Int) : Int :=
  let q := fxMul r r
  fxSeries (fun i t => Int.fdiv (-(fxMul t q)) ((2 * (i : Int) + 2) * (2 * (i : Int) + 3))) (fun _ t => t) 40 0 r

/-- cos r, |r| ≤ π. -/
def fxCos (r : Int) : Int :=
  let q := fxMul r r
  fxSeries (fun i t => Int.fdiv (-(fxMul t q)) ((2 * (i : Int) + 1) * (2 * (i : Int) + 2))) (fun _ t => t) 40 0 fxOne

/-! ### The bounds of R237 -/

/-- x < n / d of a finite value and a decimal constant. -/
def Val.ltRat (x : Val) (n : Int) (d : Nat) : Bool := (x.mul (Val.ofInt d)).sub (Val.ofInt n) |>.cmp Val.zero |> (· = .lt)

/-- What R236 and R237 say of a result through a segment: a stated infinity with OVERFLOW, a stated zero, a true value with a
relative or an absolute bound 2^k, the interval from −1 to 1, or nothing. -/
inductive SftSays where
  | overflow
  | zero
  | relative (v : Val) (k : Int)
  | absolute (v : Val) (k : Int)
  | unit
  | open_
deriving DecidableEq, Repr

/-- EXP and EXP2 at x: `a` is the exponent of e, and the limits are those of the tables. -/
def expSays (x : Val) (a : Int) (top least end_ normal : Int × Nat) : SftSays :=
  if !x.ltRat top.1 top.2 then .overflow
  else if !(Val.ltRat x.neg (-least.1) least.2) then .zero
  else if x.ltRat normal.1 normal.2 then .absolute (fxExp a) (-149)
  else if x.ltRat end_.1 end_.2 then .relative (fxExp a) (-21)
  else .open_

/-- Whether a positive value is a normal FP32 number's size. -/
def Val.normal32 (v : Val) : Bool := decide (-126 ≤ v.log2Floor) && decide (v.log2Floor ≤ 127)

/-- What R236 and R237 say of built-in slot `slot` at an argument whose result comes through a segment. -/
def sftSays (slot : Nat) (x : Val) : SftSays :=
  let f := x.fx
  match slot with
  | 0 => expSays x f (8873, 100) (-10398, 100) (8872, 100) (-8733, 100)
  | 1 => expSays x (fxMul f fxLn2) (128, 1) (-150, 1) (128, 1) (-126, 1)
  | 2 | 11 =>
    let v := if slot = 2 then x.fxLn else fxDiv x.fxLn fxLn2
    if x.ltRat 1 2 || !x.ltRat 2 1 then .relative (fxVal v 0) (-21) else .absolute (fxVal v 0) (-22)
  | 3 => .absolute (fxVal (fxSigm f) 0) (-16)
  | 4 => .absolute (fxVal (2 * fxSigm (2 * f) - fxOne) 0) (-19)
  | 5 => .absolute (fxVal (fxNcdf f) 0) (-20)
  | 6 => .absolute (fxVal (fxErf f) 0) (-22)
  | 7 => .absolute (fxVal ((fxVal fxOne 0).add (fxExp f)).fxLn 0) (-16)
  | 8 =>
    match x with
    | .fin s m e =>
      if x.log2Floor < -128 then .overflow
      else
        let (q, k) := quotSticky 1 0 m e 128
        let v : Val := .fin s q k
        if v.abs.normal32 then .relative v (-21) else .open_
    | _ => .open_
  | 9 =>
    match x with
    | .fin _ m e =>
      let (q, k) := quotSticky 1 0 m e 128
      .relative (Val.fin false q k).sqrt (-21)
    | _ => .open_
  | 10 => .relative x.sqrt (-21)
  | 12 | 13 =>
    if (Val.ofInt 65536).cmp x.abs = .lt then .unit
    else .absolute (fxVal (if slot = 12 then fxSin (fxTurn f) else fxCos (fxTurn f)) 0) (-21)
  | _ => .open_

/-- |r − v| ≤ b of finite values. -/
def within (r v b : Val) : Bool := r.isFin && decide ((r.sub v).abs.cmp b ≠ .gt)

/-- A result held to what the rules say of it: one that breaks its bound becomes the true value rounded to FP32, which keeps
every bound (DESIGN CHOICE, assumption 33). -/
def SftSays.hold (w : SftSays) (x r : Val) (t : Traps) : Val × Traps :=
  match w with
  | .overflow => (.inf x.negative, Traps.ovf)
  | .zero => (Val.zero, Traps.none)
  | .relative v k => (if within r v (v.abs.scale2 k) then r else rnd32 v, Traps.none)
  | .absolute v k => (if within r v (Val.pow2 k) then r else rnd32 v, Traps.none)
  | .unit => (if within r Val.zero (Val.pow2 0) then r else (Val.pow2 0).withSign r.negative, Traps.none)
  | .open_ => (r, t)

end Sys2Proof.Machine
end

