-- ==== Sys2Proof/Machine/Sft.lean ====
section
/-!
DEFINITION. Segment tables and special functions (08_segment_tables_and_special_functions.md, R224 to R248): the store and
its banks, the slot format and its checks, the evaluation, the built-in image, and the commands of port 5.
-/

namespace Sys2Proof.Machine

open Sys2Proof

/-! ### Slot images -/

/-- The header of a slot (R229); the FP32 fields are codes. -/
structure SftHdr where
  quadratic : Bool
  reduce : Nat
  sym : Nat
  segments : Nat
  below : Nat
  above : Nat
  lo : Nat
  hi : Nat
  zeroVal : Nat
  kHi : Nat
  kLo : Nat
  belowA : Nat
  belowB : Nat
  aboveA : Nat
  aboveB : Nat
  tiny : Nat
  tinyA : Nat
  tinyB : Nat
  f2 : Bool
  add : Bool
  p : Int
deriving DecidableEq, Repr

/-- A table ready for lookups: its header, the coefficients C0, C1 and C2 of each segment, and which built-in table it is, if
one. -/
structure SftTable where
  hdr : SftHdr
  coef : List (Nat × Nat × Nat)
  slot : Option Nat
deriving DecidableEq, Repr

/-- The 32-bit word `i` of a slot's 64-bit words. -/
def word32 (ws : List DWord) (i : Nat) : Nat :=
  let w := wd ws (i / 2)
  if i % 2 = 0 then bitsOf w 31 0 else bitsOf w 63 32

def SftHdr.parse (ws : List DWord) : SftHdr :=
  let w := word32 ws
  { quadratic := bitOf (w 0) 1, reduce := bitsOf (w 0) 4 2, sym := bitsOf (w 0) 6 5, segments := bitsOf (w 0) 15 8,
    below := bitsOf (w 0) 17 16, above := bitsOf (w 0) 19 18, lo := w 1, hi := w 2, zeroVal := w 3, kHi := w 4, kLo := w 5,
    belowA := w 6, belowB := w 7, aboveA := w 8, aboveB := w 9, tiny := w 10, tinyA := w 11, tinyB := w 12,
    f2 := bitOf (w 13) 0, add := bitOf (w 13) 1, p := signed 8 (bitsOf (w 13) 15 8) }

/-- VALID of an image (R229). -/
def imageValid (ws : List DWord) : Bool := bitOf (word32 ws 0) 0

/-- The coefficients of segment `i` of an image. -/
def imageCoef (ws : List DWord) (i : Nat) : Nat × Nat × Nat :=
  (word32 ws (16 + 4 * i), word32 ws (17 + 4 * i), word32 ws (18 + 4 * i))

/-! ### The checks of R230 -/

def isFinite32 (c : Nat) : Bool := (of32 c).isFin
def isNaN32 (c : Nat) : Bool := (of32 c).isNaN

/-- x < y of two FP32 codes, as numbers. -/
def lt32 (a b : Nat) : Bool := (of32 a).cmp (of32 b) = .lt && !((of32 a).isZero && (of32 b).isZero)

/-- Whether two FP32 codes hold numerically equal values. -/
def eq32 (a b : Val) : Bool := a.numEq b

/-- Whether a value is a positive power of two. -/
def Val.isPow2 : Val → Bool
  | .fin false m _ => decide (m ≠ 0) && decide (2 ^ Nat.log2 m = m)
  | _ => false

/-- Reserved bits and encodings of the header (R229, R230). -/
def SftHdr.reservedOk (ws : List DWord) (h : SftHdr) : Bool :=
  decide (h.reduce < 4) && decide (h.sym < 3) && decide (h.below < 3) && decide (h.above < 3)
  && !(bitOf (word32 ws 0) 7) && bitsOf (word32 ws 0) 31 20 = 0 && bitsOf (word32 ws 13) 7 2 = 0
  && bitsOf (word32 ws 13) 31 16 = 0 && word32 ws 15 = 0

/-- The values of the header (R230). -/
def SftHdr.valuesOk (h : SftHdr) : Bool :=
  decide (1 ≤ h.segments) && decide (h.segments ≤ 252)
  && isFinite32 h.lo && isFinite32 h.hi && lt32 h.lo h.hi
  && isFinite32 h.tiny && !((of32 h.tiny).negative && !(of32 h.tiny).isZero)
  && [h.zeroVal, h.belowB, h.aboveB].all (fun c => !isNaN32 c)
  && [h.kHi, h.kLo, h.tinyA, h.tinyB, h.belowA, h.aboveA].all isFinite32
  && (decide (h.below < 2) || isFinite32 h.belowB) && (decide (h.above < 2) || isFinite32 h.aboveB)
  && (match h.reduce with
    | 1 => eq32 (of32 h.lo) Val.zero && eq32 (of32 h.hi) (Val.pow2 0)
    | 2 =>
      let half := (of32 h.kHi).scale2 (-1)
      lt32 0 h.kHi && eq32 (of32 h.lo) (rnd32 half).neg && eq32 (of32 h.hi) (rnd32 half)
    | 3 => (of32 h.lo).isPow2 && eq32 (of32 h.hi) ((of32 h.lo).scale2 (if h.f2 then 2 else 1))
    | _ => true)

/-- A used segment entry: finite coefficients, C2 +0 under linear interpolation, word 3 reserved (R229, R230). -/
def segmentOk (ws : List DWord) (h : SftHdr) (i : Nat) : Bool :=
  let (c0, c1, c2) := imageCoef ws i
  isFinite32 c0 && isFinite32 c1 && isFinite32 c2 && (h.quadratic || decide (c2 = 0)) && word32 ws (19 + 4 * i) = 0

/-- The place at which an image breaks the checks of R230: 255 the header, else the segment. -/
def imageFault (ws : List DWord) : Option Nat :=
  if !imageValid ws then none
  else
    let h := SftHdr.parse ws
    if !(h.reservedOk ws && h.valuesOk) then some 255
    else (List.range h.segments).find? (fun i => !segmentOk ws h i)

/-! ### The built-in image (R235) -/

/-- A header with every optional field clear. -/
def SftHdr.base : SftHdr :=
  ⟨true, 0, 0, 1, 0, 0, 0, 0, 0, 0, 0, 0, 0, 0, 0, 0, 0, 0, false, false, 0⟩

/-- 2^−12, 1, ½, +∞, −∞ and −0 as FP32 codes. -/
def c2m12 : Nat := 0x39800000
def cOne : Nat := 0x3F800000
def cHalf : Nat := 0x3F000000
def cInf : Nat := 0x7F800000
def cNegInf : Nat := 0xFF800000
def cNegZero : Nat := 0x80000000

/-- The headers of slots 0 to 13; every constant is its nearest FP32 value. -/
def builtinHdr : Nat → Option SftHdr
  | 0 => some { SftHdr.base with reduce := 1, segments := 64, hi := cOne, kHi := 0x3FB8AA3B, kLo := 0x32A57060 }
  | 1 => some { SftHdr.base with reduce := 1, segments := 64, hi := cOne, kHi := cOne }
  | 2 => some { SftHdr.base with reduce := 3, add := true, segments := 128, lo := cOne, hi := 0x40000000,
                                 kHi := 0x3F317218, kLo := 0xB102E308, below := 2, aboveB := cInf, zeroVal := cNegInf }
  | 3 => some { SftHdr.base with segments := 192, lo := 0xC1C00000, hi := 0x41C00000, aboveB := cOne, tiny := c2m12,
                                 tinyA := 0x3E800000, tinyB := cHalf }
  | 4 => some { SftHdr.base with sym := 2, segments := 200, hi := 0x41200000, aboveB := cOne, tiny := c2m12, tinyA := cOne,
                                 tinyB := cNegZero }
  | 5 => some { SftHdr.base with segments := 252, lo := 0xC1000000, hi := 0x41000000, aboveB := cOne, tiny := c2m12,
                                 tinyA := 0x3ECC422A, tinyB := cHalf }
  | 6 => some { SftHdr.base with sym := 2, segments := 160, hi := 0x40800000, aboveB := cOne, tiny := c2m12,
                                 tinyA := 0x3F906EBB, tinyB := cNegZero }
  | 7 => some { SftHdr.base with segments := 160, lo := 0xC1A00000, hi := 0x41A00000, above := 1, aboveA := cOne }
  | 8 => some { SftHdr.base with reduce := 3, p := -1, sym := 2, segments := 128, lo := cOne, hi := 0x40000000,
                                 zeroVal := cInf }
  | 9 => some { SftHdr.base with reduce := 3, p := -1, f2 := true, segments := 192, lo := cOne, hi := 0x40800000, below := 2,
                                 zeroVal := cInf }
  | 10 => some { SftHdr.base with reduce := 3, p := 1, f2 := true, segments := 192, lo := cOne, hi := 0x40800000, below := 2,
                                  aboveB := cInf }
  | 11 => some { SftHdr.base with reduce := 3, add := true, segments := 128, lo := cOne, hi := 0x40000000, kHi := cOne,
                                  below := 2, aboveB := cInf, zeroVal := cNegInf }
  | 12 => some { SftHdr.base with reduce := 2, segments := 252, lo := 0xC0490FDB, hi := 0x40490FDB, kHi := 0x40C90FDB,
                                  kLo := 0xB43BBD2E, tiny := c2m12, tinyA := cOne, tinyB := cNegZero }
  | 13 => some { SftHdr.base with reduce := 2, segments := 252, lo := 0xC0490FDB, hi := 0x40490FDB, kHi := 0x40C90FDB,
                                  kLo := 0xB43BBD2E, tiny := c2m12, tinyB := cOne }
  | _ => none

/-- A coefficient of the built-in image: 1 for C0 of segment 0 of EXP and EXP2 (R235), ln 2 for SPLS at 0 (R236), else a
free finite value (assumption 33), whose results `SftTable.eval` holds to R236 and R237. -/
def builtinCoef (slot seg i : Nat) : Nat :=
  if slot ≤ 1 ∧ seg = 0 ∧ i = 0 then cOne
  else if slot = 7 ∧ seg = 80 ∧ i = 0 then 0x3F317218
  else
    let w := Config.builtinCoef slot seg i
    if wbits w 30 23 = 255 then putBits w.toNat 30 23 0 else w.toNat

/-- A built-in table, if its slot holds one (R235). -/
def builtinTable (slot : Nat) : Option SftTable :=
  (builtinHdr slot).map (fun h =>
    ⟨h, (List.range h.segments).map (fun i => (builtinCoef slot i 0, builtinCoef slot i 1, builtinCoef slot i 2)),
      some slot⟩)

/-- The table that a slot of number `n` holds, if its VALID is 1. -/
def SftSlot.table (n : Nat) : SftSlot → Option SftTable
  | .builtin => builtinTable n
  | .image ws =>
    if imageValid ws then
      let h := SftHdr.parse ws
      some ⟨h, (List.range h.segments).map (imageCoef ws), none⟩
    else none

/-! ### Evaluation (R231) -/

/-- floor of a finite value. -/
def Val.floorInt : Val → Int
  | .fin s m e =>
    let k := roundUnits .towardZero 0 m e 0
    let exact := decide (0 ≤ e) || decide (m % 2 ^ (-e).toNat = 0)
    if s then (if exact then -(k : Int) else -(k : Int) - 1) else (k : Int)
  | _ => 0

/-- The side value (R231). -/
def sideVal (mode a b : Nat) (x : Val) : Val :=
  let av := of32 a
  let bv := of32 b
  match mode with
  | 0 => bv
  | 1 => if x.isInf then (if av.isZero then bv else .inf (av.negative != x.negative)) else ffma av x bv
  | _ => .nan

/-- The largest FP32 value below a positive one. -/
def below32 (c : Nat) : Val := of32 (c - 1)

/-- The answer of a lookup: the value, the trap conditions of R233, and the segment it used, if any. -/
structure Looked where
  val : Val
  traps : Traps
  seg : Option Nat
deriving DecidableEq, Repr

/-- round_even of R231: a whole number with the sign of its argument; an infinity or NaN stays. -/
def Val.roundEven : Val → Val
  | .fin s m e => .fin s (roundUnits .nearestEven 0 m e 0) 0
  | v => v

/-- x < y as numbers: zeros are equal, whatever their signs. -/
def Val.below (x y : Val) : Bool := x.cmp y = .lt && !(x.isZero && y.isZero)

/-- Interpolates at reduced argument `u`: the polynomial's value and the segment (R231). A v of +∞ lies in the last segment;
where v is NaN, any segment gives NaN. -/
def SftTable.interp (t : SftTable) (u : Val) : Val × Nat :=
  let h := t.hdr
  let lo := of32 h.lo
  let d := fdiv (Val.ofInt h.segments) (fadd (of32 h.hi) lo.neg)
  let v := fmul (fadd u lo.neg) d
  let s := if v.isInf then h.segments - 1 else min v.floorInt.toNat (h.segments - 1)
  let f := fadd v (Val.ofInt s).neg
  let (c0, c1, c2) := nth (0, 0, 0) t.coef s
  (if h.quadratic then ffma f (ffma f (of32 c2) (of32 c1)) (of32 c0) else ffma f (of32 c1) (of32 c0), s)

/-- A special-function lane's f(x) from the table's words (R231, R233). -/
def SftTable.lookup (t : SftTable) (x0 : Val) : Looked :=
  let h := t.hdr
  let plain (v : Val) : Looked := ⟨v, if v.isNaN then Traps.inv else Traps.none, none⟩
  if x0.isNaN then ⟨.nan, Traps.none, none⟩
  else if x0.abs.cmp (of32 h.tiny).abs = .lt then ⟨ffma (of32 h.tinyA) x0 (of32 h.tinyB), Traps.none, none⟩
  else
    let g : Bool := decide (h.sym = 2) && x0.negative
    let x := if h.sym = 0 then x0 else x0.abs
    let sg (v : Val) : Val := if g then v.neg else v
    match h.reduce with
    | 1 =>
      match x with
      | .inf true => plain (sg Val.zero)
      | .inf false => plain (sg (.inf false))
      | _ =>
        let y := x.mul ((of32 h.kHi).add (of32 h.kLo))
        let fl := y.floorInt
        let k := clampInt (-200) 200 fl
        let u := (Fmt.fp32.roundTo .towardZero 0 (y.sub (Val.ofInt fl))).1
        let (p, s) := t.interp u
        let r := rnd32 (p.scale2 k)
        ⟨sg r, ⟨r.isNaN, p.isFin && r.isInf, false⟩, some s⟩
    | 2 =>
      if x.isInf then plain .nan
      else
        let q := (fdiv x (of32 h.kHi)).roundEven
        let u0 := ffma q.neg (of32 h.kLo) (ffma q.neg (of32 h.kHi) x)
        let u := (u0.max (of32 h.lo)).min (below32 h.hi)
        let (p, s) := t.interp u
        ⟨sg p, ⟨p.isNaN, false, false⟩, some s⟩
    | 3 =>
      if x.isZero then plain (sg (of32 h.zeroVal))
      else if x.negative then plain (sg (sideVal h.below h.belowA h.belowB x))
      else if x.isInf then plain (sg (sideVal h.above h.aboveA h.aboveB x))
      else
        let w : Int := if h.f2 then 2 else 1
        let k := Int.fdiv (x.log2Floor - (of32 h.lo).log2Floor) w
        let (p, s) := t.interp (x.scale2 (-(w * k)))
        if h.add then
          let r := ffma (Val.ofInt k) (of32 h.kHi) (ffma (Val.ofInt k) (of32 h.kLo) p)
          ⟨sg r, ⟨r.isNaN, false, false⟩, some s⟩
        else
          let r := rnd32 (p.scale2 (k * h.p))
          ⟨sg r, ⟨r.isNaN, p.isFin && r.isInf, false⟩, some s⟩
    | _ =>
      if x.below (of32 h.lo) then plain (sg (sideVal h.below h.belowA h.belowB x))
      else if !x.below (of32 h.hi) then plain (sg (sideVal h.above h.aboveA h.aboveB x))
      else
        let (p, s) := t.interp x
        ⟨sg p, ⟨p.isNaN, false, false⟩, some s⟩

/-- A special-function lane's f(x): a result through a segment of a built-in table keeps what R236 and R237 say of it. -/
def SftTable.eval (t : SftTable) (x : Val) : Looked :=
  let r := t.lookup x
  match t.slot, r.seg with
  | some n, some _ =>
    let (v, tr) := (sftSays n x).hold x r.val r.traps
    { r with val := v, traps := tr }
  | _, _ => r

/-- A lookup in a fixed image of the vector engine (R238, R254). -/
def fixedEval (slot : Nat) (x : Val) : Looked :=
  match builtinTable slot with
  | some t => t.eval x
  | none => ⟨.nan, Traps.inv, none⟩

/-! ### The store -/

/-- The key of a slot of the square at physical position p. -/
def sftKey (p bank slot : Nat) : Nat := p * 64 + bank * 32 + slot

/-- The active bank of logical square q (R224). -/
def State.sftActive (s : State) (q : Nat) : Nat := s.sft.active.get (fun _ => 0) (s.phys q)

def State.sftSlot (s : State) (q bank slot : Nat) : SftSlot :=
  s.sft.slots.get (fun _ => .builtin) (sftKey (s.phys q) bank slot)

def State.setSftSlot (s : State) (q bank slot : Nat) (x : SftSlot) : State :=
  { s with sft := { s.sft with slots := s.sft.slots.set (fun _ => .builtin) (sftKey (s.phys q) bank slot) x } }

def State.sftMark (s : State) (q bank slot w : Nat) : Nat :=
  s.sft.mark.get (fun _ => 0) (sftKey (s.phys q) bank slot * 512 + w)

def State.setSftMark (s : State) (q bank slot w m : Nat) : State :=
  { s with sft := { s.sft with mark := s.sft.mark.set (fun _ => 0) (sftKey (s.phys q) bank slot * 512 + w) m } }

def State.sftTable (s : State) (q bank slot : Nat) : Option SftTable := (s.sftSlot q bank slot).table slot

/-- `SFT_VALID0` and `SFT_VALID1` (R226). -/
def State.sftValid (s : State) (q bank : Nat) : Nat :=
  ((List.range 32).map (fun n => if (s.sftTable q bank n).isSome then 2 ^ n else 0)).sum

/-- Clears the marks of a slot that is written whole. -/
def State.clearSftMarks (s : State) (q bank slot : Nat) : State :=
  let k := sftKey (s.phys q) bank slot
  { s with sft := { s.sft with mark := s.sft.mark.keep (fun x => x / 512 ≠ k) } }

/-- A lookup reads a 64-bit word of a slot (R228): a single-bit error is corrected and counted; answers whether the word can
be used. -/
def State.sftFind (s : State) (q bank slot w : Nat) : Bool × State :=
  let m := s.sftMark q bank slot w
  if m = 0 then (true, s)
  else
    let s1 := s.setReg (pgSft q) R.SFT_ECC_LAST (word (b01 (m ≠ 1) * 2 ^ 16 + bank * 2 ^ 15 + slot * 2 ^ 10 + w))
    if m = 1 then
      (true, ((s1.setSftMark q bank slot w 0).statusAll (pgSft q) 6).countFault (errSft q) 1)
    else (false, (s1.statusAll (pgSft q) 7).unitFault q)

/-- Reads the header words and the entries of some segments. -/
def State.sftRead (s : State) (q bank slot : Nat) (segs : List Nat) : Bool × State :=
  (List.range 8 ++ segs.flatMap (fun i => [8 + 2 * i, 9 + 2 * i])).foldl
    (fun (ok, s) w => let (k, s1) := s.sftFind q bank slot w; (ok && k, s1)) (true, s)

/-- Copies the built-in image into both banks and makes bank 0 active (R227). -/
def State.sftRestoreAll (s : State) (q : Nat) : State :=
  let p := s.phys q
  { s with sft := { s.sft with
      active := s.sft.active.set (fun _ => 0) p 0
      slots := s.sft.slots.keep (fun k => k / 64 ≠ p)
      mark := s.sft.mark.keep (fun k => k / 512 / 64 ≠ p) } }

/-! ### Which chains hold a bank -/

def VxeEng.reset : VxeEng := ⟨none, 0, none, none, [], emptyMap, 0, emptyMap, emptyMap, none, false⟩

def State.vxeEng (s : State) (q u : Nat) : VxeEng := s.vxe.get (fun _ => VxeEng.reset) (2 * q + u)

def State.setVxeEng (s : State) (q u : Nat) (e : VxeEng) : State :=
  { s with vxe := s.vxe.set (fun _ => VxeEng.reset) (2 * q + u) e }

/-- The command an engine runs, while it is running. -/
def State.vxeJob (s : State) (q u : Nat) : Option Job :=
  match (s.vxeEng q u).job with
  | some id => (s.job? id).filter Job.isRunning
  | none => none

/-- The running chains that hold a bank (`SFT_HELD`, R243). -/
def State.bankHeld (s : State) (q bank : Nat) : Nat :=
  ((List.range 2).filter (fun u => (s.vxeJob q u).isSome && (s.vxeEng q u).bank = some bank)).length

/-! ### Commands of port 5 -/

/-- Opcodes of port 5 (R239). -/
def sftOp (ws : List DWord) : Nat := bitsOf (wd ws 0) 7 0
def sftFirst (ws : List DWord) : Nat := bitsOf (wd ws 0) 12 8
def sftCount (ws : List DWord) : Nat := bitsOf (wd ws 0) 18 13
def sftSrc (ws : List DWord) : Nat := bitsOf (wd ws 1) 24 0

/-- Validation at submission (R239). -/
def sftValidate (ws : List DWord) : Option Nat :=
  let ok := ws.length = 2 && decide (1 ≤ sftOp ws) && decide (sftOp ws ≤ 4) && bitsOf (wd ws 0) 63 19 = 0
    && bitsOf (wd ws 1) 63 25 = 0
    && (if sftOp ws = 1 then
        decide (1 ≤ sftCount ws) && decide (sftFirst ws + sftCount ws ≤ 32) && sftSrc ws % 64 = 0
        && decide (sftSrc ws + 4096 * sftCount ws ≤ spadSize)
      else sftFirst ws = 0 && sftCount ws = 0 && wd ws 1 = 0)
  if ok then none else some cBadDescriptor

/-- `SFT_LAST_ERR` (R247). -/
def State.sftLastErr (s : State) (q code slot seg bank : Nat) : State :=
  s.setReg (pgSft q) R.SFT_LAST_ERR (word (code * 2 ^ 24 + slot * 2 ^ 16 + seg * 2 ^ 8 + bank))

/-- The segment of a 64-bit word of an image: 255 for the header (R229). -/
def segOfWord (w : Nat) : Nat := if w < 8 then 255 else (w - 8) / 2

/-- Reads a slot image of 4 KiB from the scratchpad: its words, or the first word lost (R241). -/
def State.readImage (s : State) (q a : Nat) : Option (List DWord) × Nat × State :=
  match s.spadRead q a 4096 with
  | (.ok bs, s1) => (some ((chunks 8 bs).map (fun b => BitVec.ofNat 64 (leNat b))), 0, s1)
  | (_, s1) =>
    let bad := (List.range 512).find? (fun i => s.spadMark (s.spadKey q (a + 8 * i) / 8) = 2)
    (none, bad.getD 0, s1)

/-- SFT_LOAD's slot n from the image at `src` (R241): the code it ends with, DONE where it is written. -/
def State.sftLoadSlot (s : State) (q bank src n : Nat) : Nat × State :=
  match s.readImage q src with
  | (none, w, s1) => (cDataLost, s1.sftLastErr q cDataLost n (segOfWord w) bank)
  | (some ws, _, s1) =>
    match imageFault ws with
    | some g => (cBadDescriptor, s1.sftLastErr q cBadDescriptor n g bank)
    | none => (cDone, (s1.clearSftMarks q bank n).setSftSlot q bank n (.image ws))

/-- Copies slot n of the bank `src` into the other bank `bank`: every word is read (R228), so the copy of a corrected word is
right, and a slot with an uncorrectable word is not copied (assumption 140). -/
def State.sftSyncSlot (q src bank n : Nat) (s : State) : Nat × State :=
  let ws := (s.sft.mark.keys.filter (fun k => decide (k / 512 = sftKey (s.phys q) src n))).map (· % 512)
  match ws.foldl (fun (bad, s) w =>
      let (ok, s1) := s.sftFind q src n w
      (if ok || bad.isSome then bad else some w, s1)) ((none : Option Nat), s) with
  | (some w, s1) => (cUnitFault, s1.sftLastErr q cUnitFault n (segOfWord w) bank)
  | (none, s1) => (cDone, (s1.clearSftMarks q bank n).setSftSlot q bank n (s1.sftSlot q src n))

/-- Copies slots in ascending order until one fails. -/
def State.sftSyncSlots (q src bank : Nat) : List Nat → State → Nat × State
  | [], s => (cDone, s)
  | n :: t, s =>
    match State.sftSyncSlot q src bank n s with
    | (code, s1) => if code = cDone then State.sftSyncSlots q src bank t s1 else (code, s1)

/-- Ends a load, restore or sync: LOAD_ERROR is set where it ends BAD_DESCRIPTOR or DATA_LOST (R248). `SFT_LOADS` counts its
completion, if that is DONE (R247). -/
def State.sftEnd (s : State) (q id code : Nat) : State :=
  let s1 := (s.endJob id code).setSftWritten q 0
  if code = cBadDescriptor ∨ code = cDataLost then s1.statusAll (pgSft q) 5 else s1

/-- The running command of port 5 with a given opcode. -/
def State.sftJob (s : State) (id op : Nat) : Option Job :=
  (s.job? id).filter (fun j => j.isRunning && decide (j.target = tSft) && decide (sftOp j.body = op))

/-- The inactive bank. -/
def State.sftTarget (s : State) (q : Nat) : Nat := 1 - s.sftActive q

/-- SFT_LOAD once no chain holds its bank (R241, R243): its next slot, at whose end a boundary lies (R246). -/
def State.sftLoadGo (s : State) (j : Job) : State :=
  let q := j.square
  let bank := s.sftTarget q
  if 0 < s.bankHeld q bank then s
  else
    let i := s.sftWritten q
    let (code, _, s1) := s.atMostOneFault q false (fun s =>
      s.sftLoadSlot q bank (sftSrc j.body + 4096 * i) (sftFirst j.body + i))
    if code = cDone ∧ i + 1 < sftCount j.body then s1.setSftWritten q (i + 1) else s1.sftEnd q j.id code

/-- SFT_RESTORE (R239, R243). -/
def State.sftRestoreGo (s : State) (j : Job) : State :=
  let q := j.square
  let bank := s.sftTarget q
  if 0 < s.bankHeld q bank then s
  else
    ((List.range 32).foldl (fun s n => (s.clearSftMarks q bank n).setSftSlot q bank n .builtin) s).sftEnd q j.id cDone

/-- SFT_SYNC (R239, R243). -/
def State.sftSyncGo (s : State) (j : Job) : State :=
  let q := j.square
  let bank := s.sftTarget q
  if 0 < s.bankHeld q bank then s
  else
    let (code, _, s1) := s.atMostOneFault q false (State.sftSyncSlots q (1 - bank) bank (List.range 32))
    s1.sftEnd q j.id code

/-- SFT_SWAP (R239, R242): chains that start from now on latch the new bank. -/
def State.sftSwapGo (s : State) (j : Job) : State :=
  let q := j.square
  let s1 := { s with sft := { s.sft with active := s.sft.active.set (fun _ => 0) (s.phys q) (s.sftTarget q) } }
  ((s1.bump (pgSft q) R.SFT_SWAPS 1).statusAll (pgSft q) 4).endJob j.id cDone

/-- Runs `f` on the running command `id` of port 5 if its opcode is `op`. -/
def State.onSft (s : State) (id op : Nat) (f : State → Job → State) : State :=
  match s.sftJob id op with
  | some j => f s j
  | none => s

def execSftLoad (id : Nat) (s : State) : Host.Outcome State Fault Refusal := done s (s.onSft id 1 State.sftLoadGo)

def execSftSwap (id : Nat) (s : State) : Host.Outcome State Fault Refusal := done s (s.onSft id 2 State.sftSwapGo)

def execSftRestore (id : Nat) (s : State) : Host.Outcome State Fault Refusal := done s (s.onSft id 3 State.sftRestoreGo)

def execSftSync (id : Nat) (s : State) : Host.Outcome State Fault Refusal := done s (s.onSft id 4 State.sftSyncGo)

/-- SFT_BANK_RELEASED (R243): the load, restore or sync that waits on square q starts writing. -/
def State.sftReleased (s : State) (q : Nat) : State :=
  match s.sch.jobs.find? (fun j => decide (j.target = tSft) && decide (j.square = q) && j.isRunning) with
  | none => s
  | some j => ((s.onSft j.id 1 State.sftLoadGo).onSft j.id 3 State.sftRestoreGo).onSft j.id 4 State.sftSyncGo

def execSftBankReleased (q : Fin 64) (s : State) : Host.Outcome State Fault Refusal := done s (s.sftReleased q.val)

end Sys2Proof.Machine
end

