-- ==== Sys2Proof/Machine/Mxe.lean ====
section
/-!
DEFINITION. The matrix engines (06_matrix_engines.md, R149 to R188): the tile command, its validation and price, its result
group by group, checked mode, packed passes, the batching window and the placement of faults.
-/

namespace Sys2Proof.Machine

open Sys2Proof

/-! ### The tile command -/

/-- A tile command's fields (R160). -/
structure Tile where
  opcode : Nat
  shape : Nat
  sparse : Bool
  skipA : Bool
  skipB : Bool
  checked : Bool
  batch : Bool
  cLoad : Bool
  aFmt : Nat
  aScaled : Bool
  bFmt : Nat
  bScaled : Bool
  cFmt : Nat
  aT : Bool
  bT : Bool
  round : Nat
  sat : Bool
  trap : Bool
  m : Nat
  n : Nat
  k : Nat
  hold : Nat
  aBase : Nat
  aPitch : Nat
  bBase : Nat
  bPitch : Nat
  cBase : Nat
  cPitch : Nat
  asBase : Nat
  asPitch : Nat
  bsBase : Nat
  bsPitch : Nat
  metaBase : Nat
  metaPitch : Nat
  skaBase : Nat
  skbBase : Nat
  cinBase : Nat
  cinPitch : Nat
  ta : Nat
  tb : Nat
  seed : DWord
deriving DecidableEq, Repr

/-- The low and high base field of a word ([24:0] and [56:32]). -/
def lo25 (w : Nat) : Nat := bitsOf w 24 0
def hi25 (w : Nat) : Nat := bitsOf w 56 32

def Tile.parse (ws : List DWord) : Tile :=
  let w0 := wd ws 0
  let w1 := wd ws 1
  { opcode := bitsOf w0 7 0, shape := bitsOf w0 9 8, sparse := bitOf w0 10, skipA := bitOf w0 11, skipB := bitOf w0 12,
    checked := bitOf w0 13, batch := bitOf w0 14, cLoad := bitOf w0 15, aFmt := bitsOf w0 20 16, aScaled := bitOf w0 21,
    bFmt := bitsOf w0 26 22, bScaled := bitOf w0 27, cFmt := bitsOf w0 32 28, aT := bitOf w0 33, bT := bitOf w0 34,
    round := bitsOf w0 36 35, sat := bitOf w0 37, trap := bitOf w0 38, m := bitsOf w0 46 40 + 1, n := bitsOf w0 54 48 + 1,
    k := bitsOf w1 15 0 + 1, hold := bitsOf w1 31 16,
    aBase := lo25 (wd ws 2), aPitch := hi25 (wd ws 2), bBase := lo25 (wd ws 3), bPitch := hi25 (wd ws 3),
    cBase := lo25 (wd ws 4), cPitch := hi25 (wd ws 4), asBase := lo25 (wd ws 5), asPitch := hi25 (wd ws 5),
    bsBase := lo25 (wd ws 6), bsPitch := hi25 (wd ws 6), metaBase := lo25 (wd ws 7), metaPitch := hi25 (wd ws 7),
    skaBase := lo25 (wd ws 8), skbBase := hi25 (wd ws 8), cinBase := lo25 (wd ws 9), cinPitch := hi25 (wd ws 9),
    ta := bitsOf (wd ws 10) 31 0, tb := bitsOf (wd ws 10) 63 32, seed := nth 0#64 ws 11 }

/-- The operand classes of R154. -/
inductive TileClass where
  | narrow | wide | integer
deriving DecidableEq, Repr

def Tile.af (t : Tile) : Fmt := (Fmt.ofCode t.aFmt).getD .fp32
def Tile.bf (t : Tile) : Fmt := (Fmt.ofCode t.bFmt).getD .fp32
def Tile.cf (t : Tile) : Fmt := (Fmt.ofCode t.cFmt).getD .fp32

/-- The class of the operand pair, or none when R154 does not list it. -/
def Tile.class (t : Tile) : Option TileClass :=
  if t.aScaled && t.bScaled then (if t.af.mayScale && t.bf.mayScale then some .narrow else none)
  else if t.aScaled || t.bScaled then none
  else if (t.af = .bf16 ∧ t.bf = .bf16) ∨ (t.af = .fp16 ∧ t.bf = .fp16) then some .wide
  else if (t.af = .i4 ∨ t.af = .i8) ∧ (t.bf = .i4 ∨ t.bf = .i8) then some .integer
  else none

/-- Twice the rate r of R154, doubled again under SPARSE. -/
def Tile.rate2 (t : Tile) : Nat :=
  let r := match t.class with
    | some .narrow =>
      let base := if t.af = .e2m1 ∧ t.bf = .e2m1 then 4 else 2
      if t.shape = 2 then base / 2 else base
    | some .integer => if t.af = .i4 ∧ t.bf = .i4 then 4 else 2
    | _ => 1
  if t.sparse then 2 * r else r

/-- Rows and columns a slot of the shape has (R164). -/
def shapeLimit (shape : Nat) : Nat := if shape = 0 then 128 else if shape = 1 then 64 else 32

/-- Slots of a shape (R164). -/
def shapeSlots (shape : Nat) : Nat := if shape = 0 then 1 else if shape = 1 then 4 else 16

def Tile.cBytes (t : Tile) : Nat := t.cf.width / 8
/-- Bytes of one row of A and of B (R159). -/
def Tile.aRow (t : Tile) : Nat := ceilDiv (t.k * t.af.width) 8
def Tile.bVals (t : Tile) : Nat := if t.sparse then t.k / 2 else t.k
def Tile.bRow (t : Tile) : Nat := ceilDiv (t.bVals * t.bf.width) 8
def Tile.metaRow (t : Tile) : Nat := ceilDiv t.k 8
def Tile.kBlocks (t : Tile) : Nat := ceilDiv t.k 32
def Tile.skaBytes (t : Tile) (m : Nat) : Nat := ceilDiv (ceilDiv m 32 * (t.k / 32)) 8
def Tile.skbBytes (t : Tile) : Nat := ceilDiv (ceilDiv t.n 32 * (t.k / 32)) 8

/-- Rows of bytes: base, pitch, count and bytes of each row. -/
structure Rows where
  base : Nat
  pitch : Nat
  count : Nat
  bytes : Nat
deriving DecidableEq, Repr

/-- The byte just past a footprint. -/
def Rows.last (r : Rows) : Nat := r.base + (r.count - 1) * r.pitch + r.bytes

def Rows.inside (r : Rows) : Bool := decide (r.last ≤ spadSize)

/-- Whether two runs of bytes meet. -/
def runsMeet (a n b m : Nat) : Bool := decide (0 < n) && decide (0 < m) && decide (a < b + m) && decide (b < a + n)

def Rows.meets (r t : Rows) : Bool :=
  (List.range r.count).any (fun i => (List.range t.count).any (fun j =>
    runsMeet (r.base + i * r.pitch) r.bytes (t.base + j * t.pitch) t.bytes))

def Tile.cRows (t : Tile) : Rows := ⟨t.cBase, t.cPitch, t.m, t.n * t.cBytes⟩
def Tile.cinRows (t : Tile) : Rows := ⟨t.cinBase, t.cinPitch, t.m, t.n * 4⟩

/-- The read footprints other than C_IN (R159). -/
def Tile.readRows (t : Tile) : List Rows :=
  [⟨t.aBase, t.aPitch, t.m, t.aRow⟩, ⟨t.bBase, t.bPitch, t.n, t.bRow⟩]
  ++ (if t.aScaled then [⟨t.asBase, t.asPitch, t.m, t.k / 32⟩] else [])
  ++ (if t.bScaled then [⟨t.bsBase, t.bsPitch, t.n, t.k / 32⟩] else [])
  ++ (if t.sparse then [⟨t.metaBase, t.metaPitch, t.n, t.metaRow⟩] else [])
  ++ (if t.skipA then [⟨t.skaBase, 0, 1, t.skaBytes t.m⟩] else [])
  ++ (if t.skipB then [⟨t.skbBase, 0, 1, t.skbBytes⟩] else [])

/-- Whether a word of two 25-bit fields keeps its reserved bits 0 (R7, R8). -/
def basesOk (w : Nat) : Bool := bitsOf w 31 25 = 0 && bitsOf w 63 57 = 0

/-- Reserved bits and encodings (R8, R161). -/
def Tile.encodingOk (ws : List DWord) (t : Tile) : Bool :=
  t.opcode = 1 && decide (t.shape ≤ 2) && (Fmt.ofCode t.aFmt).isSome && (Fmt.ofCode t.bFmt).isSome
  && (Fmt.ofCode t.cFmt).isSome && (Rnd.ofCode t.round).isSome
  && !(bitOf (wd ws 0) 39) && !(bitOf (wd ws 0) 47) && bitsOf (wd ws 0) 63 55 = 0 && bitsOf (wd ws 1) 63 32 = 0
  && basesOk (wd ws 2) && basesOk (wd ws 3) && basesOk (wd ws 4)
  && (!t.aScaled || basesOk (wd ws 5)) && (!t.bScaled || basesOk (wd ws 6)) && (!t.sparse || basesOk (wd ws 7))
  && (!(t.skipA || t.skipB) || basesOk (wd ws 8)) && (!t.cLoad || basesOk (wd ws 9))

/-- Operand pair, scaling, C_FMT and C_LOAD (R154 to R156). -/
def Tile.formatsOk (t : Tile) : Bool :=
  match t.class with
  | none => false
  | some c =>
    (if c = .integer then t.cf = .i32 && !t.aT && !t.bT else t.cf = .fp32 || t.cf = .bf16 || t.cf = .fp16)
    && (c ≠ .narrow || t.k % 32 = 0)
    && !(t.cLoad && (t.aT || t.bT))
    && (!t.aT || tensorScaleOk t.ta) && (!t.bT || tensorScaleOk t.tb)
    && t.k % t.af.groupElems = 0 && t.bVals % t.bf.groupElems = 0

/-- Shape, CHECKED, BATCH, SPARSE and skip limits (R161). -/
def Tile.limitsOk (t : Tile) : Bool :=
  decide (t.m ≤ shapeLimit t.shape) && decide (t.n ≤ shapeLimit t.shape)
  && (!t.checked || (decide (t.m ≤ 127) && decide (t.n ≤ 127)))
  && (!(t.checked || t.batch) || t.shape = 0) && !(t.checked && t.batch)
  && !(t.sparse && t.shape = 2) && (!t.sparse || t.k % 4 = 0)
  && (!(t.skipA || t.skipB) || t.k % 32 = 0)

/-- Bases and pitches of 8 bytes and footprints inside the scratchpad (R159, R161). -/
def Tile.placesOk (t : Tile) : Bool :=
  ((t.readRows ++ [t.cRows] ++ (if t.cLoad then [t.cinRows] else [])).all
    (fun r => r.base % 8 = 0 && r.pitch % 8 = 0 && r.inside))

/-- C overlaps no read footprint, but for a C_IN that coincides with it exactly (R161, R162). -/
def Tile.overlapOk (t : Tile) : Bool :=
  t.readRows.all (fun r => !(t.cRows.meets r))
  && (!t.cLoad || !(t.cRows.meets t.cinRows)
      || (t.cBase = t.cinBase && t.cPitch = t.cinPitch && (t.cf = .fp32 || t.cf = .i32)))

/-- Validation (R160, R161): the code of a command that fails. -/
def Tile.validate (ws : List DWord) : Option Nat :=
  let t := Tile.parse ws
  if ws.length ≠ 12 then some cBadDescriptor
  else if t.encodingOk ws && t.formatsOk && t.limitsOk && t.placesOk && t.overlapOk then
    if t.m = 1 ∨ t.n * t.cBytes ≤ t.cPitch then none else some cAliasWrite
  else some cBadDescriptor

/-- The price in beats (R185). -/
def Tile.cost (t : Tile) : Nat :=
  let s := shapeSlots t.shape
  let mc := if t.batch then 128 else t.m
  let fill := 128 + (mc - 1) + (t.n - 1)
  let mac := ceilDiv (2 * t.k) t.rate2
  let drain := 16 + ceilDiv (s * mc * t.n * t.cBytes) 1024 + (if t.checked then 32 else 0)
  let load := if t.cLoad then ceilDiv (s * mc * t.n * 4) 1024 else 0
  let feed := mc * t.aRow + t.n * t.bRow + (if t.aScaled then mc * (t.k / 32) else 0)
    + (if t.bScaled then t.n * (t.k / 32) else 0) + (if t.sparse then t.n * t.metaRow else 0)
    + (if t.skipA then t.skaBytes mc else 0) + (if t.skipB then t.skbBytes else 0)
  let wait := 7 * ceilDiv (s * feed) 32768
  let hold := if t.batch then t.hold else 0
  withMargin (fill + mac + drain + load + wait + hold)

/-! ### Reading the operands -/

/-- Reads one footprint of a run of bytes, remembering a loss. -/
def State.readRun (s : State) (q a n : Nat) : Option (List Byte) × State :=
  match s.spadRead q a n with
  | (.ok bs, s1) => (some bs, s1)
  | (_, s1) => (none, s1)

/-- Reads a list of runs in order; none when any was lost. -/
def State.readRuns (s : State) (q : Nat) (rs : List (Nat × Nat)) : Option (List (List Byte)) × State :=
  rs.foldl (fun (acc, s) r =>
    let (b, s1) := s.readRun q r.1 r.2
    (match acc, b with
      | some l, some x => some (l ++ [x])
      | _, _ => none, s1)) (some [], s)

/-- The 32-position K blocks of a command with the positions each has. -/
def Tile.blocks (t : Tile) : List (Nat × Nat) := (List.range t.kBlocks).map (fun b => (b, min 32 (t.k - 32 * b)))

/-- A skip bit: block `r` of rows or columns, K block `b` (R178). -/
def skipBit (bits : Option (List Byte)) (kb : Nat) (r b : Nat) : Bool :=
  match bits with
  | none => false
  | some l =>
    let i := r * kb + b
    (nth 0#8 l (i / 8)).getLsbD (i % 8)

/-- One operand as the cells see it: for each row, for each K block, the positions within the block, the code of each value
there, and the scale code. -/
abbrev OperandRow := List (List (Nat × Nat) × Nat)

/-- The kept values of a B row's K block under 2:4 sparsity: positions named by the block's metadata nibbles (R176). -/
def sparsePositions (metas : List Byte) (len : Nat) (codes : List Nat) : List (Nat × Nat) :=
  (List.range (len / 4)).flatMap (fun g =>
    let nib := (nth 0#8 metas (g / 2)).toNat >>> (4 * (g % 2)) % 16
    [(4 * g + nib % 4, nth 0 codes (2 * g)), (4 * g + nib / 4 % 4, nth 0 codes (2 * g + 1))])

/-- Reads an operand's rows, but for the skipped K blocks, of which no operand byte is read (R179). `metas` gives the base and pitch
of B's metadata under SPARSE. -/
def State.readOperand (s : State) (q : Nat) (f : Fmt) (scaled : Bool) (rows base pitch sBase sPitch : Nat)
    (blks : List (Nat × Nat)) (skipped : Nat → Bool) (metas : Option (Nat × Nat)) : Option (List OperandRow) × State :=
  let half := metas.isSome
  (List.range rows).foldl (fun (acc, s) r =>
    let (row, s1) := blks.foldl (fun (acc, s) (b, len) =>
      if skipped b then
        (match acc with
          | some l => some (l ++ [([], 127)])
          | none => none, s)
      else
        let vals := if half then len / 2 else len
        let off := (if half then 16 * b else 32 * b) * f.width / 8
        let (d, s1) := s.readRun q (base + r * pitch + off) (ceilDiv (vals * f.width) 8)
        let (sc, s2) := if scaled then s1.readRun q (sBase + r * sPitch + b) 1 else (some [127#8], s1)
        let (mt, s3) := match metas with
          | some (mb, mp) => s2.readRun q (mb + r * mp + 4 * b) (ceilDiv len 8)
          | none => (some [], s2)
        (match acc, d, sc, mt with
          | some l, some bs, some x, some ms =>
            let codes := unpackElems f vals bs
            let pos := if half then sparsePositions ms len codes else codes.zipIdx.map (fun (c, i) => (i, c))
            some (l ++ [(pos, (nth 0#8 x 0).toNat)])
          | _, _, _, _ => none, s3)) (some ([] : OperandRow), s)
    (match acc, row with
      | some l, some x => some (l ++ [x])
      | _, _ => none, s1)) (some [], s)

/-! ### One cell -/

/-- An accumulator with the trap conditions it has met (R40). -/
structure Acc32 where
  val : Val
  traps : Traps
deriving DecidableEq, Repr

/-- Whether a product of operands that are not NaN is NaN (R40: 0 × ∞). -/
def invalidProduct (ps : List (Val × Val)) : Bool := ps.any (fun (x, y) => (x.mul y).isNaN && !x.isNaN && !y.isNaN)

/-- Adds a group's exact sum: rounded once to FP32, then added in FP32 (R53). `invalid` says that one of its products met
INVALID. -/
def Acc32.group (a : Acc32) (products : List Val) (invalid : Bool) : Acc32 :=
  let exact := match products with
    | [] => Val.zero
    | p :: t => t.foldl Val.add p
  let g := rnd32 exact
  let sum := a.val.add g
  let r := rnd32 sum
  let tr : Traps := ⟨invalid, false, false⟩
  ⟨r, ((a.traps.or tr).or (opTraps products exact g)).or (opTraps [a.val, g] sum r)⟩

/-- The value of a code in an unscaled operand, or within its block without the block's scale (R43). -/
def cellVal (f : Fmt) (scaled : Bool) (c : Nat) : Val := if scaled then f.elemVal c else f.decode c

/-- The products of a K block: B's positions meet A's values there. -/
def blockPairs (a b : List (Nat × Nat)) : List (Nat × Nat) :=
  b.map (fun (i, c) => ((nth (0, 0) a i).2, c))

/-- One accumulation of a narrow float K block: the block is one group, scaled by 2^(sA + sB − 254) (R53, R157). -/
def narrowBlock (t : Tile) (acc : Acc32) (a b : List (Nat × Nat) × Nat) : Acc32 :=
  let ps := (blockPairs a.1 b.1).map (fun (x, y) => (cellVal t.af true x, cellVal t.bf true y))
  if a.2 = 255 ∨ b.2 = 255 then acc.group [.nan] false
  else acc.group (ps.map (fun (x, y) => (x.mul y).scale2 ((a.2 : Int) + b.2 - 254))) (invalidProduct ps)

/-- A wide float K block: groups of 8 consecutive products (R53, R157). -/
def wideBlock (t : Tile) (acc : Acc32) (a b : List (Nat × Nat) × Nat) : Acc32 :=
  (chunks 8 (blockPairs a.1 b.1)).foldl (fun acc g =>
    let ps := g.map (fun (x, y) => (t.af.decode x, t.bf.decode y))
    acc.group (ps.map (fun (x, y) => x.mul y)) (invalidProduct ps)) acc

/-- The exact products of an integer K block (R56). -/
def intBlock (t : Tile) (a b : List (Nat × Nat) × Nat) : Int :=
  ((blockPairs a.1 b.1).map (fun (x, y) => signed t.af.width x * signed t.bf.width y)).sum

/-- A cell's accumulator: an FP32 value, or an integer that R56 has saturated (`clamped`). -/
inductive CellAcc where
  | fp (a : Acc32)
  | int (v : Int) (clamped : Bool)
deriving DecidableEq, Repr

/-- Cell (i, j) after the last group, before any tensor scale (R149 to R157, R179). -/
def tileCell (t : Tile) (cin : Option Nat) (a b : OperandRow) (marked : Nat → Bool) : CellAcc :=
  let blks := (a.zip b).zipIdx
  match t.class with
  | some .integer =>
    let sum := (blks.map (fun ((x, y), kb) => if marked kb then 0 else intBlock t x y)).sum
    let total := (match cin with
      | some c => signed 32 c
      | none => 0) + sum
    let r := clampInt (-2147483648) 2147483647 total
    .int r (decide (r ≠ total))
  | c =>
    let start : Acc32 := ⟨(match cin with
      | some x => of32 x
      | none => Val.zero), Traps.none⟩
    .fp (blks.foldl (fun acc ((x, y), kb) =>
      if marked kb then acc.group [Val.zero] false
      else if c = some .wide then wideBlock t acc x y
      else narrowBlock t acc x y) start)

/-- The output code of a cell (R55, R157, R158) and the traps met. -/
def tileOut (t : Tile) (i j : Nat) : CellAcc → Nat × Traps
  | .int v clamped => (unsignedOf 32 v, if clamped then Traps.ovf else Traps.none)
  | .fp a =>
    let ta := if t.aT then of32 t.ta else Val.pow2 0
    let tb := if t.bT then of32 t.tb else Val.pow2 0
    let v := if t.aT || t.bT then fmul a.val (fmul ta tb) else a.val
    let tr := if t.aT || t.bT then (opTraps [ta, tb] (ta.mul tb) (fmul ta tb)).or (opTraps [a.val] (a.val.mul (fmul ta tb)) v)
      else Traps.none
    let mode := (Rnd.ofCode t.round).getD .nearestEven
    let r := if mode = .stochastic then srBits t.seed (i * t.n + j) else 0
    let (c, tr2) := t.cf.convert mode t.sat r v
    (c, (a.traps.or tr).or tr2)

/-! ### Checked mode -/

/-- The FP32 sum of values in ascending order. -/
def sum32 (vs : List Val) : Val :=
  match vs with
  | [] => Val.zero
  | v :: t => t.foldl fadd (rnd32 v)

/-- The dequantised values of a K block at positions 0 to `len` − 1: a scaled value times its block scale; an empty place of
a sparse block is +0, and two values at one place are added. -/
def denseBlock (f : Fmt) (scaled : Bool) (len : Nat) (blk : List (Nat × Nat) × Nat) (marked : Bool) : List Val :=
  (List.range len).map (fun i =>
    if marked then Val.zero
    else
      sum32 ((blk.1.filter (fun x => x.1 = i)).map (fun x => if scaled then scaledVal f blk.2 x.2 else f.decode x.2)))

/-- The same of the integer class. -/
def denseInt (f : Fmt) (len : Nat) (blk : List (Nat × Nat) × Nat) (marked : Bool) : List Int :=
  (List.range len).map (fun i =>
    if marked then 0 else ((blk.1.filter (fun x => x.1 = i)).map (fun x => signed f.width x.2)).sum)

/-- The checksum of one line (R181): `mine` are the line's own values for each K position, `others` the values summed across
the other operand's lines. -/
def checkCell (start : Val) (mine : List Val) (sums : List Val) : Val :=
  (mine.zip sums).foldl (fun acc (x, y) => ffma x y acc) start

/-- Whether one float line fails its comparison (R182); none when it is not compared. -/
def lineFails (tol : Nat) (accs : List Val) (check : Val) : Option Bool :=
  if accs.any (fun v => v.isNaN || v.isInf) || check.isNaN || check.isInf then none
  else
    let sum := sum32 accs
    let mag := sum32 (accs.map Val.abs)
    let diff := (fadd sum check.neg).abs
    let bound := fmul (Val.pow2 (-(tol : Int))) (fadd mag check.abs)
    some (decide (diff.cmp bound = .gt))

/-- Element-wise FP32 sums of lines in ascending order. -/
def sumLines : List (List Val) → List Val
  | [] => []
  | [l] => l
  | l :: t => t.foldl (fun acc x => (acc.zip x).map (fun (a, b) => fadd a b)) l

def sumIntLines : List (List Int) → List Int
  | [] => []
  | l :: t => t.foldl (fun acc x => (acc.zip x).map (fun (a, b) => a + b)) l

/-- The two's complement value of an INT32 accumulator's cell. -/
def CellAcc.fpVal : CellAcc → Val
  | .fp a => a.val
  | .int .. => Val.zero

def CellAcc.intVal : CellAcc → Int
  | .int v _ => v
  | .fp _ => 0

/-- The trap conditions met before the drain. -/
def CellAcc.traps : CellAcc → Traps
  | .fp a => a.traps
  | .int _ c => if c then Traps.ovf else Traps.none

def CellAcc.clamped : CellAcc → Bool
  | .int _ c => c
  | .fp _ => false

/-- Checked mode (R181, R182): whether any comparison fails, and the rows and columns not compared. -/
def tileCheck (t : Tile) (tol : Nat) (as bs : List OperandRow) (cin : List (List Nat)) (cells : List (List CellAcc))
    (markA markB : Nat → Nat → Bool) (skipped : Nat → Bool) : Bool × Nat :=
  let blks := t.blocks.filter (fun b => !skipped b.1)
  let column (j : Nat) : List CellAcc := cells.map (fun r => nth (.int 0 false) r j)
  if t.class = some .integer then
    let line (f : Fmt) (mark : Nat → Nat → Bool) (l : List OperandRow) (i : Nat) : List Int :=
      blks.flatMap (fun (b, len) => denseInt f len (nth ([], 127) (nth [] l i) b) (mark (i / 32) b))
    let la := (List.range t.m).map (line t.af markA as)
    let lb := (List.range t.n).map (line t.bf markB bs)
    let sa := sumIntLines la
    let sb := sumIntLines lb
    let one (accs : List CellAcc) (start : Int) (mine sums : List Int) : Option Bool :=
      if accs.any CellAcc.clamped then none
      else
        let check := start + ((mine.zip sums).map (fun (x, y) => x * y)).sum
        some (decide (((accs.map CellAcc.intVal).sum - check) % 4294967296 ≠ 0))
    let start (l : List Nat) : Int := if t.cLoad then (l.map (signed 32)).sum else 0
    let res := (List.range t.n).map (fun j => one (column j) (start (cin.map (fun r => nth 0 r j))) (nth [] lb j) sa)
      ++ (List.range t.m).map (fun i => one (nth [] cells i) (start (nth [] cin i)) (nth [] la i) sb)
    (res.any (fun r => r = some true), (res.filter Option.isNone).length)
  else
    let line (f : Fmt) (sc : Bool) (mark : Nat → Nat → Bool) (l : List OperandRow) (i : Nat) : List Val :=
      blks.flatMap (fun (b, len) => denseBlock f sc len (nth ([], 127) (nth [] l i) b) (mark (i / 32) b))
    let la := (List.range t.m).map (line t.af t.aScaled markA as)
    let lb := (List.range t.n).map (line t.bf t.bScaled markB bs)
    let sa := sumLines la
    let sb := sumLines lb
    let start (l : List Nat) : Val := if t.cLoad then sum32 (l.map of32) else Val.zero
    let res := (List.range t.n).map (fun j =>
        lineFails tol ((column j).map CellAcc.fpVal) (checkCell (start (cin.map (fun r => nth 0 r j))) (nth [] lb j) sa))
      ++ (List.range t.m).map (fun i =>
        lineFails tol ((nth [] cells i).map CellAcc.fpVal) (checkCell (start (nth [] cin i)) (nth [] la i) sb))
    (res.any (fun r => r = some true), (res.filter Option.isNone).length)

/-! ### The whole command -/

/-- How a tile command ends: its code, and what its destination receives. -/
inductive TileEnd where
  | wrote (rows : List (List Nat))
  | lost
  | trapped
  | mismatch
deriving DecidableEq, Repr

/-- Reads the operands and computes every cell of a tile command on logical square q (R149 to R183), a checked one with tolerance
exponent `tol`; the number is the rows and columns a checked command did not compare. A trap met before the drain ends the command
before its comparisons. -/
def State.tileCompute (s : State) (q : Nat) (t : Tile) (tol : Nat) : (TileEnd × Nat) × State :=
  let kb := t.k / 32
  let (ska, s1) := if t.skipA then s.readRun q t.skaBase (t.skaBytes t.m) else (some [], s)
  let (skb, s2) := if t.skipB then s1.readRun q t.skbBase t.skbBytes else (some [], s1)
  match ska, skb with
  | some la, some lb =>
    let markA (r b : Nat) : Bool := t.skipA && skipBit (some la) kb r b
    let markB (r b : Nat) : Bool := t.skipB && skipBit (some lb) kb r b
    let skipped (b : Nat) : Bool :=
      (t.skipA || t.skipB) &&
      (List.range (ceilDiv t.m 32)).all (fun mb => (List.range (ceilDiv t.n 32)).all (fun nb => markA mb b || markB nb b))
    let (oa, s4) := s2.readOperand q t.af t.aScaled t.m t.aBase t.aPitch t.asBase t.asPitch t.blocks skipped none
    let (ob, s5) := s4.readOperand q t.bf t.bScaled t.n t.bBase t.bPitch t.bsBase t.bsPitch t.blocks skipped
      (if t.sparse then some (t.metaBase, t.metaPitch) else none)
    let (oc, s6) := if t.cLoad then
        s5.readRuns q ((List.range t.m).map (fun r => (t.cinBase + r * t.cinPitch, t.n * 4)))
      else (some [], s5)
    match oa, ob, oc with
    | some as, some bs, some cs =>
      let cin := cs.map (unpackElems .fp32 t.n)
      let cells := as.zipIdx.map (fun (a, i) => bs.zipIdx.map (fun (b, j) =>
        tileCell t (if t.cLoad then some (nth 0 (nth [] cin i) j) else none) a b
          (fun k => markA (i / 32) k || markB (j / 32) k)))
      let early := t.trap && cells.any (fun r => r.any (fun c => c.traps.any))
      let (bad, notCompared) := if t.checked && !early then
          tileCheck t tol as bs cin cells markA markB skipped
        else (false, 0)
      if bad then ((.mismatch, notCompared), s6)
      else
        let outs := cells.zipIdx.map (fun (r, i) => r.zipIdx.map (fun (c, j) => tileOut t i j c))
        if t.trap && outs.any (fun r => r.any (fun o => o.2.any)) then ((.trapped, notCompared), s6)
        else ((.wrote (outs.map (fun r => r.map (·.1))), notCompared), s6)
    | _, _, _ => ((.lost, 0), s6)
  | _, _ => ((.lost, 0), s2)

/-- Writes the C rows as cells (R159). -/
def State.tileWrite (s : State) (q : Nat) (t : Tile) (rows : List (List Cell)) : Bool × State :=
  rows.zipIdx.foldl (fun (ok, s) (r, i) =>
    match s.spadWriteCells q (t.cBase + i * t.cPitch) r with
    | (.ok _, s1) => (ok, s1)
    | (_, s1) => (false, s1)) (true, s)

/-- A destination whose contents are unspecified (R41, R168, R183). -/
def State.tileOpen (s : State) (q : Nat) (t : Tile) : State :=
  let (n, s1) := s.fresh
  (s1.tileWrite q t (List.replicate t.m (openCells n (t.n * t.cBytes)))).2

/-- Runs a tile command's arithmetic and its drain on square q: the completion code, whether it failed a comparison, and the
state. -/
def State.tileRun (s : State) (q u : Nat) (t : Tile) (tol : Nat) : Nat × State :=
  let ((e, n), s1) := s.tileCompute q t tol
  let s2 := s1.bump (pgMxe q u) R.MXE_CHECK_SKIPPED n
  match e with
  | .lost => (cDataLost, s2.tileOpen q t)
  | .trapped => (cNumericTrap, s2.tileOpen q t)
  | .mismatch => (cUnitFault, ((s2.tileOpen q t).statusAll (pgMxe q u) 5).countFault (errMxe q u) 1)
  | .wrote rows =>
    let (ok, s3) := s2.tileWrite q t (rows.map (fun r => (packElems t.cf r).map Cell.known))
    (if ok then cDone else cDataLost, s3)

/-! ### Passes, slots and the batching window -/

def MxeEng.reset : MxeEng := ⟨0, [], 0, [], 0, false, 10⟩

def State.mxeEng (s : State) (q u : Nat) : MxeEng := s.mxe.get (fun _ => MxeEng.reset) (2 * q + u)

def State.setMxeEng (s : State) (q u : Nat) (e : MxeEng) : State :=
  { s with mxe := s.mxe.set (fun _ => MxeEng.reset) (2 * q + u) e }

def Job.tile (j : Job) : Tile := Tile.parse j.body

/-- The tile of an admitted command. -/
def State.tileOf (s : State) (id : Nat) : Tile :=
  match s.job? id with
  | some j => j.tile
  | none => Tile.parse []

/-- What two members of a joined run share (R171): every field that the rule lists, used or not. -/
def joinable (a b : Tile) : Bool :=
  a.batch && b.batch && a.bBase = b.bBase && a.bPitch = b.bPitch && a.n = b.n && a.k = b.k
  && a.aFmt = b.aFmt && a.aScaled = b.aScaled && a.bFmt = b.bFmt && a.bScaled = b.bScaled && a.cFmt = b.cFmt
  && a.bsBase = b.bsBase && a.bsPitch = b.bsPitch && a.bT = b.bT && a.tb = b.tb
  && a.sparse = b.sparse && a.metaBase = b.metaBase && a.metaPitch = b.metaPitch
  && a.skipB = b.skipB && a.skbBase = b.skbBase
  && a.round = b.round && a.sat = b.sat && a.trap = b.trap

/-- Rows taken by a list of members. -/
def State.rowsOf (s : State) (ids : List Nat) : Nat := (ids.map (fun i => (s.tileOf i).m)).sum

/-- Whether the engine ignores BATCH (R175). -/
def State.noBatch (s : State) (q u : Nat) : Bool := (s.page (pgMxe q u)).ctl.getLsbD 8

/-- The members of a joined run, each with its first row (R171). -/
def State.memberPlaces (s : State) : Nat → List Nat → List (Nat × Nat)
  | _, [] => []
  | r, i :: t => (r, i) :: s.memberPlaces (r + (s.tileOf i).m) t

/-- A window closes and its joined run starts (R172); members of a run of two or more are counted in `MXE_JOINED`. -/
def State.closeWindow (s : State) (q u : Nat) : State :=
  let e := s.mxeEng q u
  let s1 := s.setMxeEng q u { e with slots := s.memberPlaces 0 e.window, window := [], shape := 0, counted := false }
  if 2 ≤ e.window.length then
    (e.window.foldl (fun s id => s.modJob id (fun j => { j with run := e.window.headD 0 + 1 })) s1).bump (pgMxe q u)
      R.MXE_JOINED e.window.length
  else s1

/-- The lowest free slot that is not masked (R167). -/
def MxeEng.freeSlot (e : MxeEng) : Option Nat :=
  (List.range (shapeSlots e.shape)).find? (fun k => !(e.slots.any (fun x => x.1 = k)) && !(bitOf e.masked k))

/-- The head of an engine's queue (R163): the command that it starts next, or, while none may start, the first that waits. -/
def State.queueHead (s : State) (e : Nat) : Option Job :=
  match s.nextFor e (fun _ => true) with
  | some j => some j
  | none => firstFinish (headsOf [] (s.waiting e (fun _ => true)))

/-- Ends a pass when nothing runs and its end condition holds (R167): masks clear. -/
def State.endPass (s : State) (q u : Nat) : State :=
  let e := s.mxeEng q u
  if e.slots.isEmpty && e.window.isEmpty then
    let past := match s.queueHead (engineNo tMxe q u) with
      | none => true
      | some j => decide (j.tile.shape ≠ e.shape) || e.freeSlot.isNone || e.shape = 0
    if past then s.setMxeEng q u MxeEng.reset else s
  else s

/-- The engine starts its head command (R163, R167, R172): in the free FULL array, in a free slot of the pass of its shape,
or as a member of the batching window. Without a place for it, nothing starts. A command in FULL mode keeps the tolerance exponent
that stands at its start (R187). -/
def State.mxeStart (s : State) (q u : Nat) : State :=
  let e := s.mxeEng q u
  match s.nextFor (engineNo tMxe q u) (fun _ => true) with
  | none => s
  | some j =>
    let t := j.tile
    let full : MxeEng := { MxeEng.reset with tol := wbits (s.reg (pgMxe q u) R.MXE_CHECK) 4 0 }
    if !s.running (pgMxe q u) && !((s.page (pgMxe q u)).st = .draining) then s
    else if !e.window.isEmpty then
      if !s.noBatch q u && joinable (s.tileOf (e.window.headD 0)) t && decide (s.rowsOf e.window + t.m ≤ 128) then
        let s1 := (s.startJob j.id).setMxeEng q u { e with window := e.window ++ [j.id] }
        if s.rowsOf e.window + t.m = 128 then s1.closeWindow q u else s1
      else s.closeWindow q u
    else if t.shape = 0 then
      if !e.slots.isEmpty then s
      else if t.batch && !s.noBatch q u then
        let s1 := (s.startJob j.id).setMxeEng q u { full with window := [j.id], windowAt := s.now }
        if t.m = 128 then s1.closeWindow q u else s1
      else (s.startJob j.id).setMxeEng q u { full with slots := [(0, j.id)] }
    else if e.slots.isEmpty then
      let e0 : MxeEng := if e.shape = t.shape && e.freeSlot.isSome then e else { MxeEng.reset with shape := t.shape }
      (s.startJob j.id).setMxeEng q u { e0 with slots := [(e0.freeSlot.getD 0, j.id)] }
    else if e.shape = t.shape then
      match e.freeSlot with
      | some k => (s.startJob j.id).setMxeEng q u { e with slots := e.slots ++ [(k, j.id)] }
      | none => s
    else s

/-- `MXE_LAST_FAULT` (R186). -/
def State.mxeLastFault (s : State) (q u code slot row col : Nat) : State :=
  s.setReg (pgMxe q u) R.MXE_LAST_FAULT (word (code * 2 ^ 24 + slot * 2 ^ 20 + row * 2 ^ 8 + col))

/-- What a failed command leaves on the page and in its pass (R168, R188): its code, NUMERIC_TRAP, and its slot masked in a packed
pass. -/
def State.mxeFailed (s : State) (q u id code row col : Nat) : State :=
  let e := s.mxeEng q u
  let slot := if e.shape = 0 then 0 else ((e.slots.find? (fun x => x.2 = id)).map (·.1)).getD 0
  let s1 := s.mxeLastFault q u code slot row col
  let s2 := if code = cNumericTrap then s1.statusAll (pgMxe q u) 6 else s1
  if e.shape = 0 then s2 else s2.setMxeEng q u { e with masked := e.masked ||| 2 ^ slot }

/-- Whether the engine runs a packed pass or a joined run, whose faults count as one UNIT_FAULT (R169, R170, R173). -/
def State.countsOnce (s : State) (q u : Nat) : Bool :=
  let e := s.mxeEng q u
  decide (e.shape ≠ 0) || e.slots.any (fun x => (s.job? x.2).any (fun j => decide (j.run ≠ 0)))

/-- A command leaves its slot. -/
def State.leaveSlot (s : State) (q u id : Nat) : State :=
  s.setMxeEng q u { s.mxeEng q u with slots := (s.mxeEng q u).slots.filter (fun x => x.2 ≠ id) }

/-- One running tile command computes, writes C and ends (R149 to R188), with its code. -/
def State.tileFinish (s : State) (q u id : Nat) : Nat × State :=
  let t := s.tileOf id
  let e := s.mxeEng q u
  let (code, met, s1) := s.atMostOneFault q e.counted (fun s => s.tileRun q u t e.tol)
  let s2 := if met && s.countsOnce q u then s1.setMxeEng q u { s1.mxeEng q u with counted := true } else s1
  let s3 := s2.endJob id code
  (code, (if code = cDone then s3 else s3.mxeFailed q u id code 255 255).leaveSlot q u id)

/-- Whether a tile command reads bytes that an earlier command of its pass has yet to write in its drain (R163). -/
def State.awaitsDrain (s : State) (q u id : Nat) : Bool :=
  let t := s.tileOf id
  (((s.mxeEng q u).slots.map (·.2)).takeWhile (fun i => i ≠ id)).any (fun i =>
    (t.readRows ++ (if t.cLoad then [t.cinRows] else [])).any (fun r => (s.tileOf i).cRows.meets r))

/-- TILE (R160): the command's pass computes. In FULL mode a joined run ends all its members together, in queue order (R173); in a
packed mode this command alone, once the drains that it reads from are over (R163). SLOT_FAULT tells of an ending without DONE
while another command goes on (R188). -/
def State.tileStep (s : State) (id : Nat) : State :=
  match s.job? id with
  | none => s
  | some j =>
    let q := j.square
    let u := j.unit
    let e := s.mxeEng q u
    if j.target ≠ tMxe ∨ j.phase ≠ .running ∨ ¬ e.slots.any (fun x => x.2 = id) then s
    else if e.shape ≠ 0 && s.awaitsDrain q u id then s
    else
      let ids := if e.shape = 0 then e.slots.map (·.2) else [id]
      let (codes, s1) := ids.foldl (fun (cs, s) i => let (c, s1) := s.tileFinish q u i; (cs ++ [c], s1)) (([] : List Nat), s)
      let goesOn := codes.any (fun c => c = cDone) || !(s1.mxeEng q u).slots.isEmpty
      (if codes.any (fun c => c ≠ cDone) && goesOn then s1.statusAll (pgMxe q u) 4 else s1).endPass q u

def execTile (id : Nat) (s : State) : Host.Outcome State Fault Refusal := done s (s.tileStep id)

/-- BATCH_WINDOW_CLOSE (R172): BATCH_HOLD beats have passed since the window opened. -/
def State.windowClose (s : State) (q u : Nat) : State :=
  if (s.mxeEng q u).window.isEmpty then s else s.closeWindow q u

def execBatchWindowClose (q : Fin 64) (u : Fin 2) (s : State) : Host.Outcome State Fault Refusal :=
  done s (s.windowClose q.val u.val)

/-- TOL_EXP (R187): partition 0 sets the tolerance of checked mode; a value outside 4 to 20 is ignored with
CMD_IGNORED. -/
def State.setTolExp (s : State) (p : Fin 16) (q u : Nat) (v : Word) : State :=
  let n := wbits v 4 0
  if n < 4 ∨ 20 < n then s.cmdIgnored p (pgMxe q u)
  else s.setReg (pgMxe q u) R.MXE_CHECK (word n)

/-! ### Faults placed in the array -/

/-- Ends running commands of the engine UNIT_FAULT, with their destination unspecified; SLOT_FAULT is set when others go on
(R188). -/
def State.mxeEnd (s : State) (q u : Nat) (ids : List Nat) (row col : Nat) : State :=
  let others := !ids.isEmpty && (s.mxeEng q u).slots.any (fun x => !ids.contains x.2)
  ids.foldl (fun s id => (((s.tileOpen q (s.tileOf id)).endJob id cUnitFault).mxeFailed q u id cUnitFault row col).leaveSlot q u id)
    (if others then s.statusAll (pgMxe q u) 4 else s)

/-- The slot of a cell in the pass's shape (R164). -/
def State.cellSlot (s : State) (q u row col : Nat) : Nat :=
  let shape := (s.mxeEng q u).shape
  let w := shapeLimit shape
  if shape = 0 then 0 else row / w * (128 / w) + col / w

/-- Whether a command that has its first row at `r0` uses a row and a column of its slot: its own, and row and column 127 of a
checked command (R165, R181). -/
def Tile.usesCell (t : Tile) (r0 row col : Nat) : Bool :=
  ((decide (r0 ≤ row) && decide (row < r0 + t.m)) || (t.checked && decide (row = 127)))
  && (decide (col < t.n) || (t.checked && decide (col = 127)))

/-- The commands that a parity error in the cells or channels at (row, col) ends (R170): in FULL mode the one whose rows include
it when it is placed in a row, every one of the run when it is placed in a column; in a packed mode the command of its slot. None
when no running command uses the place. -/
def State.parityHits (s : State) (q u row col : Nat) (byRow : Bool) : List Nat :=
  let e := s.mxeEng q u
  if e.shape = 0 then
    let hit := e.slots.filter (fun x => (s.tileOf x.2).usesCell x.1 row col)
    if byRow then hit.map (·.2) else if hit.isEmpty then [] else e.slots.map (·.2)
  else
    let w := shapeLimit e.shape
    (e.slots.filter (fun x => decide (x.1 = s.cellSlot q u row col) && (s.tileOf x.2).usesCell 0 (row % w) (col % w))).map (·.2)

/-- A parity error placed in the array: the commands it hits end UNIT_FAULT, and one UNIT_FAULT is counted, also when it hits none:
for a packed pass or a joined run only the first (R168 to R170, R173); `MXE_LAST_FAULT` records the placement in either case. -/
def State.mxeParity (s : State) (q u : Nat) (hits : List Nat) (slot row col : Nat) (shared : Bool) : State :=
  let e := s.mxeEng q u
  let s0 := if hits.isEmpty then s.mxeLastFault q u cUnitFault slot row col else s
  let s1 := s0.mxeEnd q u hits row col
  let e1 := s1.mxeEng q u
  let s2 := if s.countsOnce q u then s1.setMxeEng q u { e1 with counted := true } else s1
  let s3 := if e.counted then s2 else s2.unitFault q
  if shared then s3.setMxeEng q u { MxeEng.reset with window := (s3.mxeEng q u).window, windowAt := (s3.mxeEng q u).windowAt }
  else s3.endPass q u

end Sys2Proof.Machine
end

