-- ==== Sys2Proof/Machine/VxeProg.lean ====
section
/-!
DEFINITION. Vector programs (07_vector_engines_and_chains.md, R189 to R216, R221): the run command, the instruction word,
stream descriptors, chains, validation at submission, and the price.
-/

namespace Sys2Proof.Machine

open Sys2Proof

/-! ### The run command and the instruction word -/

/-- A vector instruction's fields (R193). -/
structure VIns where
  op : Nat
  inF : Nat
  outF : Nat
  mask : Nat
  zero : Bool
  sat : Bool
  round : Nat
  trap : Bool
  res : Nat
  opt : Nat
  a : Nat
  b : Nat
  c : Nat
  d : Nat
  imm : Nat
  count : Nat
  slot : Nat
deriving DecidableEq, Repr

def VIns.parse (lo hi : Nat) : VIns :=
  { op := bitsOf lo 7 0, inF := bitsOf lo 12 8, outF := bitsOf lo 17 13, mask := bitsOf lo 20 18, zero := bitOf lo 21,
    sat := bitOf lo 22, round := bitsOf lo 24 23, trap := bitOf lo 25, res := bitsOf lo 27 26, opt := bitsOf lo 31 28,
    a := bitsOf lo 39 32, b := bitsOf lo 47 40, c := bitsOf lo 55 48, d := bitsOf lo 63 56,
    imm := bitsOf hi 31 0, count := bitsOf hi 58 32, slot := bitsOf hi 63 59 }

/-- The run command's fields (R189). -/
def runBase (ws : List DWord) : Nat := bitsOf (wd ws 0) 40 16
def runLen (ws : List DWord) : Nat := bitsOf (wd ws 0) 51 41
def runDescBase (ws : List DWord) : Nat := bitsOf (wd ws 1) 24 0
def runDescCount (ws : List DWord) : Nat := bitsOf (wd ws 1) 37 32
def runSeed (ws : List DWord) : DWord := nth 0#64 ws 2

/-- Whether the run command itself is sound (R189, R216). -/
def runOk (ws : List DWord) : Bool :=
  ws.length = 3 && bitsOf (wd ws 0) 7 0 = 1 && bitsOf (wd ws 0) 15 8 = 0 && bitsOf (wd ws 0) 63 52 = 0
  && bitsOf (wd ws 1) 31 25 = 0 && bitsOf (wd ws 1) 63 38 = 0 && runBase ws % 16 = 0 && decide (1 ≤ runLen ws)
  && decide (runLen ws ≤ 1024) && runDescBase ws % 128 = 0 && decide (runDescCount ws ≤ 32)
  && decide (runBase ws + 16 * runLen ws ≤ spadSize) && decide (runDescBase ws + 128 * runDescCount ws ≤ spadSize)

/-- Instruction `i` of a copied program (its first 2 × PROG_LEN words). -/
def progIns (prog : List DWord) (i : Nat) : VIns := VIns.parse (wd prog (2 * i)) (wd prog (2 * i + 1))

/-! ### Stream descriptors -/

/-- A stream descriptor (R200). -/
structure Desc where
  base : Nat
  fmt : Nat
  scaled : Bool
  bits : Bool
  wmode : Nat
  sbase : Nat
  ext : List Nat
  stride : List Int
  sstride : List Int
  adv : List Int
  sadv : List Int
  resOk : Bool
deriving DecidableEq, Repr

def Desc.parse (ws : List DWord) : Desc :=
  let w (i : Nat) : Nat := wd ws i
  { base := bitsOf (w 0) 24 0, fmt := bitsOf (w 0) 29 25, scaled := bitOf (w 0) 30, bits := bitOf (w 0) 31,
    wmode := bitsOf (w 0) 33 32, sbase := bitsOf (w 1) 24 0,
    ext := [bitsOf (w 2) 22 0, bitsOf (w 2) 45 23, bitsOf (w 3) 22 0, bitsOf (w 3) 45 23],
    stride := (span 4 4).map (fun i => signed 40 (w i)), sstride := (span 8 3).map (fun i => signed 40 (w i)),
    adv := (span 11 3).map (fun i => signed 40 (w i)),
    sadv := [signed 32 (w 14), signed 32 (w 14 >>> 32), signed 32 (w 15)],
    resOk := bitsOf (w 0) 63 34 = 0 && bitsOf (w 1) 63 25 = 0 && bitsOf (w 2) 63 46 = 0 && bitsOf (w 3) 63 46 = 0
      && (span 4 10).all (fun i => bitsOf (w i) 63 40 = 0) && bitsOf (w 15) 63 32 = 0 }

/-- Descriptor `i` of a copied program of `len` instructions, if it was loaded. -/
def progDesc (prog : List DWord) (len i : Nat) : Option Desc :=
  let ws := (prog.drop (2 * len + 16 * i)).take 16
  if ws.length = 16 then some (Desc.parse ws) else none

def Desc.elems (d : Desc) : Nat := d.ext.foldl (· * ·) 1

def Desc.format (d : Desc) : Fmt := (Fmt.ofCode d.fmt).getD .fp32

/-- Bits of one element (R201). -/
def Desc.width (d : Desc) : Nat := if d.bits then 1 else d.format.width

/-- The index tuple of the k-th element (R201). -/
def Desc.tuple (d : Desc) (k : Nat) : List Nat :=
  let e (i : Nat) : Nat := nth 1 d.ext i
  [k % e 0, k / e 0 % e 1, k / (e 0 * e 1) % e 2, k / (e 0 * e 1 * e 2)]

def dotInt (a : List Nat) (b : List Int) : Int := ((a.zip b).map (fun (x, y) => (x : Int) * y)).sum

/-- The bit address of element k (R201, R202); `js` are the present loop indices, level 1 first. -/
def Desc.bitAddr (d : Desc) (js : List Nat) (k : Nat) : Int :=
  (d.base : Int) * 8 + d.width * (dotInt js d.adv + dotInt (d.tuple k) d.stride)

/-- The byte address of the scale of element k's block (R203). -/
def Desc.scaleAddr (d : Desc) (js : List Nat) (k : Nat) : Int :=
  (d.sbase : Int) + (nth 0 (d.tuple k) 0 / 32 : Nat) + dotInt js d.sadv + dotInt ((d.tuple k).drop 1) d.sstride

/-- Byte ranges [lo, hi) of a descriptor's values and scales under loop indices `js` (R211, R213). -/
def Desc.spans (d : Desc) (js : List Nat) : List (Int × Int) :=
  let reach (ext : List Nat) (st : List Int) : Int × Int :=
    (ext.zip st).foldl (fun (lo, hi) (e, x) =>
      let r := ((e : Int) - 1) * x
      (lo + min r 0, hi + max r 0)) (0, 0)
  let (lo, hi) := reach d.ext d.stride
  let b := (d.base : Int) * 8 + d.width * dotInt js d.adv
  let values := (Int.fdiv (b + d.width * lo) 8, Int.fdiv (b + d.width * hi + d.width - 1) 8 + 1)
  if d.scaled then
    let (slo, shi) := reach (d.ext.drop 1) d.sstride
    let sb := (d.sbase : Int) + dotInt js d.sadv
    [values, (sb + slo, sb + shi + ((nth 0 d.ext 0) / 32 : Nat))]
  else [values]

/-- A footprint is injective (R214). -/
def Desc.injective (d : Desc) : Bool :=
  let dims := ((d.ext.zip d.stride).filter (fun x => x.1 ≠ 1)).map (fun (e, x) => (x.natAbs, e))
  let sorted := dims.foldr insertDim []
  (sorted.foldl (fun (ok, r) (x, e) => (ok && decide (x ≠ 0) && decide (1 + r ≤ x), r + (e - 1) * x)) (true, 0)).1

/-- A descriptor's own encoding (R200, R202, R203, R216). -/
def Desc.sound (d : Desc) : Bool :=
  let e0 := nth 0 d.ext 0
  let steps := d.stride.drop 1 ++ d.adv
  let div (g : Nat) : Bool := steps.all (fun x => x % (g : Int) = 0)
  d.resOk && decide (d.wmode < 3) && d.ext.all (fun e => decide (1 ≤ e) && decide (e ≤ 4194304))
  && (if d.bits then d.fmt = 0 && !d.scaled && nth 0 d.stride 0 = 1 && div 8
    else
      match Fmt.ofCode d.fmt with
      | none => false
      | some f =>
        f.scaleOk d.scaled
        && (!(d.scaled || f.subByte) || (nth 0 d.stride 0 = 1 && e0 % f.groupElems = 0 && div f.groupElems))
        && (!d.scaled || e0 % 32 = 0))

/-! ### The opcode map -/

/-- The classes of R196. -/
inductive VClass where
  | none | float | int | bit | any | cmp
deriving DecidableEq, Repr

/-- What an operand field must hold (R196): NONE; a value; bits; a value or NONE; bits or NONE; one or two results a row. -/
inductive VNeed where
  | dash | val | bits | valOpt | bitsOpt | row (per : Nat)
deriving DecidableEq, Repr

/-- The unit of R196. -/
inductive VUnit where
  | none | alu | sfu | row (passes : Nat) | scan
deriving DecidableEq, Repr

structure VRow where
  cls : VClass
  a : VNeed
  b : VNeed
  c : VNeed
  d : VNeed
  opt : Nat
  unit : VUnit
deriving DecidableEq, Repr

/-- The opcode map (R196); `opt` is the mask of the OPT bits the opcode has. -/
def vRow (op : Nat) : Option VRow :=
  if op ≤ 2 then some ⟨.none, .dash, .dash, .dash, .dash, 0, .none⟩
  else if op = 0x10 ∨ op = 0x11 ∨ op = 0x12 ∨ op = 0x16 ∨ op = 0x17 ∨ op = 0x1B then
    some ⟨.float, .val, .val, .dash, .val, 0, .alu⟩
  else if op = 0x13 ∨ op = 0x14 ∨ op = 0x15 ∨ op = 0x1A then some ⟨.float, .val, .val, .val, .val, 0, .alu⟩
  else if op = 0x18 ∨ op = 0x19 ∨ op = 0x1C then some ⟨.float, .val, .dash, .dash, .val, 0, .alu⟩
  else if op = 0x1D then some ⟨.any, .val, .dash, .dash, .val, 0, .alu⟩
  else if op = 0x1E then some ⟨.float, .val, .val, .bits, .val, 0, .alu⟩
  else if op = 0x20 then some ⟨.cmp, .val, .val, .dash, .bits, 7, .alu⟩
  else if 0x28 ≤ op ∧ op ≤ 0x2B then some ⟨.bit, .bits, .bits, .dash, .bits, 0, .alu⟩
  else if 0x30 ≤ op ∧ op ≤ 0x32 then some ⟨.int, .val, .val, .dash, .val, 1, .alu⟩
  else if 0x33 ≤ op ∧ op ≤ 0x3A then some ⟨.int, .val, .val, .dash, .val, 0, .alu⟩
  else if op = 0x40 then some ⟨.float, .val, .dash, .dash, .val, 0, .sfu⟩
  else if op = 0x41 then some ⟨.float, .val, .val, .dash, .val, 0, .sfu⟩
  else if op = 0x42 then some ⟨.float, .val, .val, .val, .val, 0, .sfu⟩
  else if (0x60 ≤ op ∧ op ≤ 0x64) ∨ op = 0x69 then some ⟨.float, .val, .dash, .dash, .row 1, 0, .row 1⟩
  else if op = 0x65 ∨ op = 0x6A then some ⟨.float, .val, .dash, .dash, .row 2, 0, .row 1⟩
  else if op = 0x66 then some ⟨.float, .val, .val, .valOpt, .val, 0, .row 2⟩
  else if op = 0x67 then some ⟨.float, .val, .val, .dash, .val, 0, .row 2⟩
  else if op = 0x68 then some ⟨.float, .val, .dash, .dash, .val, 1, .row 2⟩
  else if op = 0x6B then some ⟨.float, .val, .val, .dash, .row 2, 0, .row 1⟩
  else if op = 0x70 then some ⟨.float, .val, .val, .bitsOpt, .val, 7, .scan⟩
  else if op = 0x71 then some ⟨.float, .val, .dash, .dash, .dash, 2, .scan⟩
  else if op = 0x72 then some ⟨.float, .dash, .dash, .dash, .val, 2, .scan⟩
  else none

def VIns.row (x : VIns) : VRow := (vRow x.op).getD ⟨.none, .dash, .dash, .dash, .dash, 0, .none⟩

def VIns.inFmt (x : VIns) : Fmt := (Fmt.ofCode x.inF).getD .fp32
def VIns.outFmt (x : VIns) : Fmt := (Fmt.ofCode x.outF).getD .fp32

def isTapCode (c : Nat) : Bool := decide (0xF0 ≤ c) && decide (c ≤ 0xF3)
def isDescCode (c : Nat) : Bool := decide (c < 0x20)
def opImm : Nat := 0xFE
def opNone : Nat := 0xFF

/-- Whether an instruction is one of the row opcodes (R196). -/
def VIns.isRow (x : VIns) : Bool :=
  match x.row.unit with
  | .row _ => true
  | _ => false

def VIns.isScan (x : VIns) : Bool := decide (0x70 ≤ x.op) && decide (x.op ≤ 0x72)
/-- COMPLEX of the scan opcodes. -/
def VIns.complex (x : VIns) : Bool := x.isScan && bitOf x.opt 1
/-- FUNC, FUNC_MUL and FUNC_FMA. -/
def VIns.isFunc (x : VIns) : Bool := decide (0x40 ≤ x.op) && decide (x.op ≤ 0x42)

/-- Results a row of a row opcode that writes per row. -/
def VNeed.per : VNeed → Nat
  | .row n => n
  | _ => 0

def VNeed.isBits : VNeed → Bool
  | .bits | .bitsOpt => true
  | _ => false

/-- The mask's descriptor (R204). -/
def VIns.maskDesc (x : VIns) : Nat := 0x18 + x.mask

/-! ### Element counts -/

/-- An open tap: its number, the format code written (`none`: bits) and its element count. -/
structure OpenTap where
  tap : Nat
  fmt : Option Nat
  count : Nat
deriving DecidableEq, Repr

/-- A program as it is validated: its words, its length and its present loops (end and count, innermost first). -/
structure VProg where
  words : List DWord
  len : Nat
deriving DecidableEq, Repr

def VProg.ins (p : VProg) (i : Nat) : VIns := progIns p.words i
def VProg.desc (p : VProg) (i : Nat) : Option Desc := if i < 0x20 then progDesc p.words p.len i else none

/-- The first of some operand codes that names a loaded descriptor: its extent product. -/
def VProg.firstExt (p : VProg) (cs : List Nat) : Option Nat := (cs.filterMap p.desc).head?.map Desc.elems

def firstTap (taps : List OpenTap) (cs : List Nat) : Option Nat :=
  (cs.find? isTapCode).bind (fun c => (taps.find? (fun t => t.tap = c)).map (·.count))

/-- The element count n (R210). -/
def VProg.count (p : VProg) (taps : List OpenTap) (x : VIns) : Nat :=
  (if x.op = 0x71 ∨ x.op = 0x72 then some (if x.complex then 2 * x.count else x.count)
  else if x.isRow then
    match p.desc x.a with
    | some d => some d.elems
    | none => firstTap taps [x.a]
  else if x.op = 0x70 then
    match p.firstExt [x.a, x.b, x.d] with
    | some n => some n
    | none => firstTap taps [x.a, x.b]
  else if x.count ≠ 0 then some x.count
  else
    match p.firstExt [x.d, x.a, x.b, x.c] with
    | some n => some n
    | none => firstTap taps [x.a, x.b, x.c]).getD 0

/-- The elements of the destination (R210): n, or the per-row results. -/
def VIns.destCount (x : VIns) (n : Nat) : Nat :=
  match x.row.d with
  | .row per => if x.count = 0 then 0 else n / x.count * per
  | _ => n

/-! ### Validation (R216) -/

/-- The first condition that fails: its code, and the operand concerned. -/
def firstBad (cs : List (Bool × Nat)) : Option Nat := (cs.find? (fun c => c.1)).map (·.2)

def okCode (c : Nat) : Bool := isDescCode c || isTapCode c || c = opImm || c = opNone

/-- Whether an operand field holds what the opcode map needs (R194, R216). -/
def needOk (n : VNeed) (c : Nat) : Bool :=
  okCode c && (match n with
    | .dash => c = opNone
    | .valOpt | .bitsOpt => true
    | _ => c ≠ opNone)

/-- The formats a class accepts (R196, R197, R198, R256, R278). -/
def VIns.formatsOk (x : VIns) : Bool :=
  match Fmt.ofCode x.inF, Fmt.ofCode x.outF with
  | some i, some o =>
    (match x.row.cls with
      | .bit => x.inF = 0 && x.outF = 0
      | .int => i.isInt && o.isInt
      | .any => true
      | .cmp => (i.isFloat || i.isInt) && x.outF = 0
      | .float =>
        (i.isFloat || (i = .i8 && x.op ≠ 0x72)) && o ≠ .e8m0
        && (!x.complex || (i.isFloat && o.isFloat))
      | .none => true)
    && (x.op ≠ 0x64 || o = .i32)
  | _, _ => false

/-- Formats a tap carries (R206). -/
def tapFmt (f : Fmt) : Bool :=
  f = .fp32 || f = .bf16 || f = .fp16 || f = .e4m3 || f = .e5m2 || f = .i32 || f = .i16 || f = .i8 || f = .u8

/-- Whether some value source of an INT8 instruction is a scaled descriptor (R197). -/
def VProg.scaledInt8 (p : VProg) (x : VIns) : Bool :=
  x.inFmt = .i8 && [x.a, x.b, x.c].any (fun c => match p.desc c with
    | some d => d.scaled
    | none => false)

/-- One source field against R195 to R207, R210, R216. -/
def VProg.srcOk (p : VProg) (taps : List OpenTap) (x : VIns) (n : Nat) (need : VNeed) (c : Nat) : Bool :=
  if c = opNone ∨ c = opImm then true
  else if isTapCode c then
    match taps.find? (fun t => t.tap = c) with
    | none => false
    | some t =>
      t.count = n
      && !(x.op = 0x66 || x.op = 0x67 || x.op = 0x68) && !(x.op = 0x70 && bitOf x.opt 0)
      && (if need.isBits then t.fmt = none
        else t.fmt = some x.inF && !(x.row.cls = .float && x.inFmt = .i8) && !(x.row.cls = .cmp && p.scaledInt8 x))
  else
    match p.desc c with
    | none => false
    | some d =>
      d.sound && d.bits == need.isBits && d.elems = n
      && (need.isBits || (d.fmt = x.inF
        && (match x.row.cls with
          | .int => !d.scaled
          | .float => x.inFmt ≠ .i8 || d.scaled
          | .cmp => x.inFmt ≠ .i8 || d.scaled == p.scaledInt8 x
          | _ => true)))

/-- The destination field against R206, R207, R210, R215, R216. -/
def VProg.dstOk (p : VProg) (taps : List OpenTap) (x : VIns) (n : Nat) : Bool :=
  let bits := x.row.d.isBits
  if x.d = opNone then true
  else if isTapCode x.d then
    (bits || tapFmt x.outFmt) && !(x.a = x.d || x.b = x.d || x.c = x.d) && !(taps.any (fun t => t.tap = x.d))
    && (x.mask = 0 || x.zero)
  else
    match p.desc x.d with
    | none => false
    | some d =>
      d.sound && d.bits == bits && d.elems = x.destCount n && (bits || d.fmt = x.outF)
      && (x.row.cls ≠ .int || !d.scaled)
      && (d.wmode = 0 || !(bits || d.scaled || x.isRow))
      && (x.mask = 0 || x.zero || !d.scaled)

/-- The mask against R204, R205. -/
def VProg.maskOk (p : VProg) (x : VIns) (n : Nat) : Bool :=
  x.mask = 0 || (!(x.op = 1 || x.op = 2 || x.isScan) &&
    (match p.desc x.maskDesc with
      | some d => d.sound && d.bits && (x.op = 0 || d.elems = n)
      | none => false))

/-- Row lengths and channel counts (R210, R249, R269, R278). -/
def VIns.countOk (x : VIns) (n : Nat) : Bool :=
  decide (1 ≤ n)
  && (!x.isRow || (decide (1 ≤ x.count) && decide (x.count ≤ 4194304) && n % x.count = 0))
  && (x.op ≠ 0x6B || x.count = 2)
  && (!x.isScan || (decide (1 ≤ x.count) && decide (x.count ≤ (if x.complex then 512 else 1024))))
  && (x.op ≠ 0x70 || n % (if x.complex then 2 * x.count else x.count) = 0)

/-- The loop indices that validation looks at: the first and last iteration of each enclosing loop (R216); `loops` are the
counts, level 1 first. None when some loop never runs. -/
def loopCorners : List Nat → List (List Nat)
  | [] => [[]]
  | c :: t => if c = 0 then [] else
      (loopCorners t).flatMap (fun r => if c = 1 then [0 :: r] else [0 :: r, (c - 1) :: r])

def spansMeet (a b : List (Int × Int)) : Bool :=
  a.any (fun x => b.any (fun y => decide (x.1 < y.2) && decide (y.1 < x.2)))

/-- A descriptor's footprints inside the scratchpad, in the iterations of `corners` (R216). -/
def VProg.insideOk (p : VProg) (corners : List (List Nat)) (c : Nat) : Bool :=
  match p.desc c with
  | none => true
  | some d => corners.all (fun js => (d.spans js).all (fun r => decide (0 ≤ r.1) && decide (r.2 ≤ (spadSize : Int))))

/-- No overlap that R213 refuses, in the iterations of `corners`. -/
def VProg.apartOk (p : VProg) (x : VIns) (corners : List (List Nat)) : Bool :=
  let masks := if x.mask = 0 then [] else (p.desc x.maskDesc).toList
  let srcs := [x.a, x.b, x.c].filterMap p.desc
  match p.desc x.d with
  | none => true
  | some d =>
    corners.all (fun js =>
      let own := d.spans js
      (srcs.filter (· ≠ d) ++ masks).all (fun r => !spansMeet own (r.spans js))
      && !spansMeet (own.take 1) (own.drop 1))

/-- A run-time or static loop: where its body ends and its count. -/
structure VLoop where
  stop : Nat
  count : Nat
deriving DecidableEq, Repr

/-- What validation carries from instruction to instruction: open loops, innermost first; open taps; the length of the chain
so far. -/
structure VCheck where
  loops : List VLoop
  taps : List OpenTap
  chain : Nat
deriving DecidableEq, Repr

/-- The taps after an instruction (R207). -/
def VProg.tapsAfter (_ : VProg) (taps : List OpenTap) (x : VIns) (n : Nat) : List OpenTap :=
  let rest := taps.filter (fun t => !(t.tap = x.a || t.tap = x.b || t.tap = x.c))
  if isTapCode x.d then rest ++ [⟨x.d, if x.row.d.isBits then none else some x.outF, x.destCount n⟩] else rest

/-- LOOP's own conditions (R207, R209). -/
def VProg.loopOk (p : VProg) (k : VCheck) (i : Nat) (x : VIns) : Bool :=
  let body := bitsOf x.imm 15 0
  let stop := i + 1 + body
  bitsOf x.imm 31 16 = 0 && decide (1 ≤ body) && decide (body ≤ 1023) && decide (k.loops.length < 3)
  && decide (stop ≤ p.len) && k.loops.all (fun l => decide (stop ≤ l.stop)) && k.taps.isEmpty

/-- The conditions of one instruction in order, each with the operand concerned (0 to 3, 4 the mask, 15 none). -/
def State.insBad (s : State) (q : Nat) (p : VProg) (k : VCheck) (x : VIns) (n : Nat) : List (Bool × Nat) :=
  let r := x.row
  let corners := loopCorners (k.loops.reverse.map (·.count))
  [((vRow x.op).isNone, 15), (x.res ≠ 0, 15), (x.round = 3, 15),
   ((Fmt.ofCode x.inF).isNone || (Fmt.ofCode x.outF).isNone, 15),
   (x.slot ≠ 0 && !x.isFunc && x.op ≠ 2, 15),
   (if x.op = 0x20 then decide (7 < x.opt) else x.opt &&& r.opt ≠ x.opt, 15),
   (!needOk r.a x.a, 0), (!needOk r.b x.b, 1), (!needOk r.c x.c, 2), (!needOk r.d x.d || x.d = opImm, 3)]
  ++ (if r.unit = .none then [(!p.maskOk x n, 4), (x.mask ≠ 0 && !p.insideOk corners x.maskDesc, 4)]
    else
      [(!x.formatsOk || (r.cls = .float && x.inFmt = .i8 && !p.scaledInt8 x), 15), (!x.countOk n, 15),
       (!p.srcOk k.taps x n r.a x.a, 0), (!p.srcOk k.taps x n r.b x.b, 1),
       (!p.srcOk k.taps x n r.c x.c, 2), (!p.dstOk k.taps x n, 3), (!p.maskOk x n, 4),
       (!p.insideOk corners x.a, 0), (!p.insideOk corners x.b, 1),
       (!p.insideOk corners x.c, 2), (!p.insideOk corners x.d, 3),
       (x.mask ≠ 0 && !p.insideOk corners x.maskDesc, 4), (!p.apartOk x corners, 3),
       (x.isFunc && (s.sftTable q (s.sftActive q) x.slot).isNone, 15)])

/-- An EXCLUSIVE destination that is not injective (R215). -/
def VProg.aliases (p : VProg) (x : VIns) : Bool :=
  match p.desc x.d with
  | some d => d.wmode = 0 && !d.injective
  | none => false

/-- Closes the loops whose body ends before instruction `i`. -/
def closeLoops (i : Nat) : List VLoop → List VLoop
  | [] => []
  | l :: t => if l.stop = i then closeLoops i t else l :: t

/-- Validates instruction `i`: the failing code and operand, or what follows (R216). -/
def State.insCheck (s : State) (q : Nat) (p : VProg) (k0 : VCheck) (i : Nat) : Sum (Nat × Nat) VCheck :=
  let loops := closeLoops i k0.loops
  let k : VCheck := { k0 with loops := loops }
  let x := p.ins i
  let n := p.count k.taps x
  if loops.length < k0.loops.length ∧ ¬ k0.taps.isEmpty then .inl (cBadDescriptor, 15)
  else
    match firstBad (s.insBad q p k x n) with
    | some o => .inl (cBadDescriptor, o)
    | none =>
      if x.op = 1 then
        if p.loopOk k i x then .inr ⟨⟨i + 1 + bitsOf x.imm 15 0, x.count⟩ :: loops, [], 0⟩ else .inl (cBadDescriptor, 15)
      else if p.aliases x then .inl (cAliasWrite, 3)
      else
        let taps := p.tapsAfter k.taps x n
        let len := k.chain + 1
        if 8 < len then .inl (cBadDescriptor, 15) else .inr ⟨loops, taps, if taps.isEmpty then 0 else len⟩

/-- The whole program from instruction `i`: the first failure (code, operand, instruction). -/
def State.progCheck (s : State) (q : Nat) (p : VProg) : Nat → Nat → VCheck → Option (Nat × Nat × Nat)
  | 0, i, k => if k.taps.isEmpty then none else some (cBadDescriptor, 15, i - 1)
  | f + 1, i, k =>
    match s.insCheck q p k i with
    | .inl (c, o) => some (c, o, i)
    | .inr k1 => State.progCheck s q p f (i + 1) k1

/-! ### The price (R221) -/

/-- Beats of an instruction on the ALU, the special-function lanes and the scan unit. -/
def VIns.beats (x : VIns) (n : Nat) : Nat × Nat × Nat :=
  let l := x.count
  let rows := if l = 0 then 0 else n / l
  match x.row.unit with
  | .none => (0, 0, 0)
  | .alu =>
    let rate := if x.row.cls = .bit then 32768 else if x.inFmt = .fp32 ∨ x.inFmt = .i32 then 1024 else 2048
    (ceilDiv n rate, 0, 0)
  | .sfu => (0, ceilDiv n 512, 0)
  | .row passes =>
    let sfu :=
      if x.op = 0x68 then 2 * rows * ceilDiv l 512
      else if x.op = 0x69 ∨ x.op = 0x6A then rows * ceilDiv l 512
      else if x.op = 0x66 ∨ x.op = 0x67 then ceilDiv rows 512
      else 0
    (passes * rows * ceilDiv l 1024 + 16, sfu, 0)
  | .scan => (0, 0, if x.op = 0x70 then (if l = 0 then 0 else n / (if x.complex then 2 * l else l)) else 1)

/-- R221's `access`: pieces and strided beats of `n` elements of a descriptor. -/
def Desc.access (d : Desc) (n : Nat) : Nat × Nat :=
  let e0 := nth 1 d.ext 0
  let rows := n / e0
  let st := (nth 0 d.stride 0).natAbs
  let scales := if d.scaled then rows * (ceilDiv (ceilDiv e0 32) 512 + 1) else 0
  if st = 0 then (rows + scales, 0)
  else if st = 1 then (rows * (ceilDiv (e0 * d.width) 4096 + 1) + scales, 0)
  else (scales, n)

/-- What a chain has been charged so far. -/
structure ChainCost where
  alu : Nat
  sfu : Nat
  scan : Nat
  rd : Nat
  wr : Nat
  st : Nat
  func : Bool
deriving DecidableEq, Repr

def ChainCost.zero : ChainCost := ⟨0, 0, 0, 0, 0, 0, false⟩

/-- Adds one instruction (R221). -/
def VProg.charge (p : VProg) (c : ChainCost) (x : VIns) (n : Nat) : ChainCost :=
  let (alu, sfu, scan) := x.beats n
  let passes := match x.row.unit with
    | .row k => k
    | _ => 1
  let names := (([x.a, x.b, x.c].filter isDescCode) ++ (if x.mask = 0 then [] else [x.maskDesc])).eraseDups
  let reads := (names.filterMap p.desc).map (fun d => d.access d.elems)
  let (wr, wst, ard, ast) := match p.desc x.d with
    | some d =>
      let (a, b) := d.access d.elems
      (a, b, if d.wmode = 1 then a else 0, if d.wmode = 1 then b else 0)
    | none => (0, 0, 0, 0)
  ⟨c.alu + alu, c.sfu + sfu, c.scan + scan, c.rd + passes * (reads.map (·.1)).sum + ard, c.wr + wr,
    c.st + passes * (reads.map (·.2)).sum + wst + ast, c.func || x.isFunc⟩

/-- R221's `chain_cost`. -/
def ChainCost.total (c : ChainCost) : Nat :=
  let port := max (ceilDiv c.rd 24) (ceilDiv c.wr 8) + c.st
  let body := max (max c.alu c.sfu) (max c.scan port)
  24 + body + 16 + 7 * ceilDiv (c.rd + c.wr + c.st) 64

/-- The chains of a program in order: cost, executions (the product of the enclosing counts), and whether it holds a
special-function opcode. LOOP belongs to no chain (R207). -/
def VProg.chains (p : VProg) : Nat → Nat → List VLoop → List OpenTap → ChainCost → List (Nat × Nat × Bool)
  | 0, _, _, _, _ => []
  | f + 1, i, loops0, taps, c =>
    let loops := closeLoops i loops0
    let x := p.ins i
    if x.op = 1 then
      VProg.chains p f (i + 1) (⟨i + 1 + bitsOf x.imm 15 0, x.count⟩ :: loops) [] ChainCost.zero
    else
      let n := p.count taps x
      let c1 := p.charge c x n
      let taps1 := p.tapsAfter taps x n
      if taps1.isEmpty then
        (c1.total, (loops.map (·.count)).foldl (· * ·) 1, c1.func) :: VProg.chains p f (i + 1) loops [] ChainCost.zero
      else VProg.chains p f (i + 1) loops taps1 c1

def VProg.allChains (p : VProg) : List (Nat × Nat × Bool) := p.chains p.len 0 [] [] ChainCost.zero

/-- R221's `vxe_cost`. -/
def VProg.cost (p : VProg) : Nat := withMargin (128 + (p.allChains.map (fun c => c.1 * c.2.1)).sum)

/-- The largest charge of a chain with a special-function opcode (R245). -/
def VProg.funcChain (p : VProg) : Nat := ((p.allChains.filter (fun c => c.2.2)).map (·.1)).foldl max 0

/-- The program of an admitted run command. -/
def Job.vprog (j : Job) : VProg := ⟨j.prog, runLen j.body⟩

/-- The term `held` of R245 for square q. -/
def State.heldTerm (s : State) (q : Nat) : Nat :=
  ((s.sch.jobs.filter (fun j => j.live && decide (j.target = tVxe) && decide (j.square = q))).map
    (fun j => j.vprog.funcChain)).foldl max 0

/-- R245's `sft_cost`. -/
def State.sftCost (s : State) (q : Nat) (ws : List DWord) : Nat :=
  withMargin (match sftOp ws with
    | 1 => 64 + 72 * sftCount ws + s.heldTerm q
    | 2 => 64 + 16
    | _ => 64 + 128 + s.heldTerm q)

end Sys2Proof.Machine
end

