-- ==== Sys2Proof/Machine/Vxe.lean ====
section
/-!
DEFINITION. How a vector engine runs (R190 to R220, R222): its operands, its results and their conversion, masks, taps,
loops, chains, seeds and traps. The opcodes themselves are in VecOps.lean and Stats.lean.
-/

namespace Sys2Proof.Machine

open Sys2Proof

/-! ### Reading operands -/

/-- The bytes of element k of a descriptor. -/
def Desc.byteSpan (d : Desc) (js : List Nat) (k : Nat) : Nat × Nat :=
  let a := (d.bitAddr js k).toNat
  (a / 8, (a + d.width - 1) / 8 + 1 - a / 8)

/-- The code of element k as the scratchpad holds it. -/
def State.elemCode (s : State) (q : Nat) (d : Desc) (js : List Nat) (k : Nat) : Nat :=
  let (a, n) := d.byteSpan js k
  let bs := (span a n).map (fun i => (s.spadCell (s.spadKey q i)).byte (s.spadKey q i))
  leNat bs >>> ((d.bitAddr js k).toNat % 8) % 2 ^ d.width

/-- Whether every byte of a list of runs lies in the scratchpad. -/
def runsInside (rs : List (Nat × Nat)) : Bool := rs.all (fun r => decide (r.1 + r.2 ≤ spadSize))

/-- Looks at the words of a list of runs of bytes (R118, R119). -/
def State.findRuns (s : State) (q : Nat) (rs : List (Nat × Nat)) : Bool × State :=
  s.spadFindAll q ((rs.flatMap (fun r => s.spadWords q r.1 r.2)).eraseDups)

/-- The runs of a descriptor's `n` elements, scales included. -/
def Desc.runs (d : Desc) (js : List Nat) (n : Nat) : List (Nat × Nat) :=
  (List.range n).map (d.byteSpan js)
  ++ (if d.scaled then (List.range ((n + 31) / 32)).map (fun b => ((d.scaleAddr js (32 * b)).toNat, 1)) else [])

/-- The value of a code of a format; of a scaled descriptor's element under its block's scale (R43). -/
def State.elemVal (s : State) (q : Nat) (d : Desc) (js : List Nat) (k : Nat) : Val :=
  let c := s.elemCode q d js k
  if d.bits then Val.ofInt c
  else if d.scaled then
    let a := s.spadKey q (d.scaleAddr js k).toNat
    scaledVal d.format ((s.spadCell a).byte a).toNat c
  else d.format.decode c

/-- Reads the `n` elements of a descriptor, or loses them (R218). -/
def State.readDesc (s : State) (q : Nat) (d : Desc) (js : List Nat) (n : Nat) : Option (List Val) × State :=
  let rs := d.runs js n
  if !runsInside rs then (none, s)
  else
    let (ok, s1) := s.findRuns q rs
    (if ok then some ((List.range n).map (s.elemVal q d js)) else none, s1)

/-! ### Results -/

/-- One result before its conversion: not written (merge); +0 (zero); an FP32 value or an exact integer with the trap
conditions met so far; an FP32 value of an empty row, which meets no trap condition (R257); or a bit. -/
inductive Pre where
  | keep
  | zero
  | fp (v : Val) (t : Traps)
  | quiet (v : Val)
  | int (i : Int) (wrap : Bool)
  | bit (b : Bool)
deriving DecidableEq, Repr

/-- A trap event: its place in processing order, the element it names, and the conditions met (R217). -/
structure TrapEv where
  key : Nat
  elem : Nat
  tr : Traps
deriving DecidableEq, Repr

/-- What an operation makes of its operands: one result for each destination element, each with its place in processing
order and the element that a trap of it names; events before the results; empty rows (R257); the scan state after it; and
whether its slot was empty (R244). -/
structure VRes where
  pres : List (Pre × Nat × Nat)
  early : List TrapEv
  empty : Nat
  scan : Option (FMap Nat)
  noSlot : Bool
deriving DecidableEq, Repr

def VRes.plain (ps : List (Pre × Nat × Nat)) : VRes := ⟨ps, [], 0, none, false⟩

/-- What an operation sees: the instruction, its element count, the operands' values, the mask bits, the present seed and
the earlier executions (R208), and the engine's scan state. -/
structure VCtx where
  x : VIns
  n : Nat
  a : List Val
  b : List Val
  c : List Val
  act : List Bool
  seed : DWord
  runs : Nat
  scan : FMap Nat
deriving DecidableEq, Repr

def VIns.rnd (x : VIns) : Rnd := (Rnd.ofCode x.round).getD .nearestEven

/-- The 16 random bits of the element at position k (R208). -/
def VCtx.rand (c : VCtx) (k : Nat) : Nat := if c.x.rnd = .stochastic then srBits c.seed (k + c.n * c.runs) else 0

/-- The integer that a value of an integer format is. -/
def Val.whole : Val → Int
  | .fin g m e =>
    let o : Int := unitsAt m e 0
    if g then -o else o
  | _ => 0

/-- Converts one result to a code of OUT_FMT (R34 to R41, R198); `old` is the present value under ACCUMULATE (R215), which
governs the +0 of an inactive element as it governs every write. -/
def convertPre (x : VIns) (r : Nat) (p : Pre) (old : Option Val) : Nat × Traps :=
  let f := x.outFmt
  match p with
  | .keep => (0, Traps.none)
  | .zero =>
    match old with
    | none => (if f = .e8m0 then 0xFF else 0, Traps.none)
    | some o =>
      if x.row.cls = .int then (unsignedOf f.width o.whole, Traps.none)
      else ((f.convert x.rnd x.sat r (fadd o Val.zero)).1, Traps.none)
  | .bit b => (b01 b, Traps.none)
  | .quiet v => ((f.convert x.rnd x.sat r v).1, Traps.none)
  | .fp v t =>
    match old with
    | none =>
      let (c, t2) := f.convert x.rnd x.sat r v
      (c, t.or t2)
    | some o =>
      let w := fadd o v
      let (c, t2) := f.convert x.rnd x.sat r w
      (c, (t.or (opTraps [o, v] (o.add v) w)).or t2)
  | .int i wrap =>
    let j := match old with
      | some o => i + o.whole
      | none => i
    let (lo, hi) := f.intRange
    if wrap then (unsignedOf f.width j, Traps.none)
    else
      let c := clampInt lo hi j
      (unsignedOf f.width c, if c = j then Traps.none else Traps.ovf)

/-- The value before it is an FP32 number. -/
def Pre.raw : Pre → Val
  | .fp v _ | .quiet v => v
  | .int i _ => Val.ofInt i
  | .bit b => Val.ofInt (b01 b)
  | _ => Val.zero

/-- The FP32 value a result enters a block with (R46). -/
def Pre.val (p : Pre) : Val := rnd32 p.raw

/-- The trap conditions met before the block: those of the operation, and OVERFLOW where a finite value lies beyond FP32 (R40,
R43, assumption 127). -/
def Pre.traps : Pre → Traps
  | .fp v t => if v.isFin && (rnd32 v).isInf then t.or Traps.ovf else t
  | _ => Traps.none

/-- What a result adds to its block's trap conditions: an empty row's result adds none (R257). -/
def Pre.trapVal : Pre → Val
  | .quiet _ => Val.zero
  | p => p.val

def Pre.written : Pre → Bool
  | .keep => false
  | _ => true

/-! ### Writing results -/

/-- Bytes being written, by scratchpad offset. -/
abbrev ByteMap := FMap (Option Byte)

def noByte (_ : Nat) : Option Byte := none

/-- The byte at an offset: what is being written, else what the scratchpad holds. -/
def State.byteUnder (s : State) (q : Nat) (m : ByteMap) (a : Nat) : Byte :=
  (m.get noByte a).getD ((s.spadCell (s.spadKey q a)).byte (s.spadKey q a))

/-- Puts a code of `w` bits at a bit address. -/
def State.putCode (s : State) (q : Nat) (m : ByteMap) (ba w code : Nat) : ByteMap :=
  let a := ba / 8
  let n := (ba + w - 1) / 8 + 1 - a
  let old := leNat ((span a n).map (s.byteUnder q m))
  let v := putBits old (ba % 8 + w - 1) (ba % 8) code
  ((leBytes n v).zipIdx).foldl (fun m (b, i) => m.set noByte (a + i) (some b)) m

/-- The code at a bit address, writes included. -/
def State.codeUnder (s : State) (q : Nat) (m : ByteMap) (ba w : Nat) : Nat :=
  let a := ba / 8
  let n := (ba + w - 1) / 8 + 1 - a
  leNat ((span a n).map (s.byteUnder q m)) >>> (ba % 8) % 2 ^ w

/-- Writes the bytes, word by word (R119). -/
def State.flushBytes (s : State) (q : Nat) (m : ByteMap) : Bool × State :=
  let ws := (m.keys.map (· / 8)).eraseDups
  ws.foldl (fun (ok, s) w =>
    let part := (span (8 * w) 8).filterMap (fun a => (m.get noByte a).map (fun b => (a, Cell.known b)))
    let (k, s1) := s.spadWriteWord q ok part
    (ok && k, s1)) (true, s)

/-- Converts element results one by one and gathers their bytes (R215): ACCUMULATE adds to the present value, ANY leaves one
of the colliding values, chosen by the free numbers of `occ`. -/
def State.gatherElems (s : State) (q : Nat) (c : VCtx) (d : Desc) (js : List Nat) (occ : Nat)
    (ps : List (Pre × Nat × Nat)) : ByteMap × List TrapEv :=
  let items := (ps.zipIdx.filter (fun x => x.1.1.written)).map (fun ((p, key, e), i) => ((d.bitAddr js i).toNat, p, key, e, i))
  items.foldl (fun (m, evs) (ba, p, key, e, i) =>
    let old := if d.wmode = 1 then some (d.format.decode (s.codeUnder q m ba d.width)) else none
    let (code, t) := convertPre c.x (c.rand i) p old
    let win :=
      if d.wmode ≠ 2 then code
      else
        let mates := items.filter (fun y => y.1 = ba)
        match mates[Config.freeNat occ ba % mates.length]? with
        | some (_, p2, _, _, i2) => (convertPre c.x (c.rand i2) p2 none).1
        | none => code
    (s.putCode q m ba d.width win, evs ++ [⟨key, e, t⟩])) (emptyMap, [])

/-- Forms the blocks of a scaled destination (R46, R203) and gathers their bytes. -/
def State.gatherBlocks (s : State) (q : Nat) (c : VCtx) (d : Desc) (js : List Nat) (ps : List (Pre × Nat × Nat)) :
    ByteMap × List TrapEv :=
  (chunks 32 ps).zipIdx.foldl (fun (m, evs) (blk, b) =>
    let xs := blk.map (fun p => p.1.val)
    let form := formBlock d.format c.x.rnd c.x.sat c.seed (32 * b + c.n * c.runs)
    let (sc, codes, _) := form xs
    let (_, _, t) := form (blk.map (fun p => p.1.trapVal))
    let at_ := ((blk.find? (fun p => !p.1.trapVal.isFin)).map (·.2)).getD (0, 0)
    let m1 := s.putCode q m ((d.scaleAddr js (32 * b)).toNat * 8) 8 sc
    let m2 := codes.zipIdx.foldl (fun m (code, i) => s.putCode q m (d.bitAddr js (32 * b + i)).toNat d.width code) m1
    (m2, evs ++ blk.map (fun p => (⟨p.2.1, p.2.2, p.1.traps⟩ : TrapEv)) ++ [⟨at_.1, at_.2, t⟩])) (emptyMap, [])

/-- Writes the results of an instruction to its destination: the trap events of the conversions, the tap's new contents, and
whether the writes could be made. -/
def State.writeResults (s : State) (q : Nat) (c : VCtx) (dst : Option Desc) (js : List Nat) (ps : List (Pre × Nat × Nat)) :
    Bool × List TrapEv × List Nat × State :=
  match dst with
  | none =>
    let outs := ps.zipIdx.map (fun ((p, key, e), i) =>
      let (code, t) := convertPre c.x (c.rand i) p none
      (code, (⟨key, e, t⟩ : TrapEv)))
    (true, outs.map (·.2), outs.map (·.1), s)
  | some d =>
    let rs := d.runs js ps.length
    if !runsInside rs then (false, [], [], s)
    else
      let (occ, s0) := if d.wmode = 2 then s.fresh else (0, s)
      let (ok, s1) := if d.wmode = 1 then s0.findRuns q rs else (true, s0)
      if !ok then (false, [], [], s1)
      else
        let (m, evs) := if d.scaled then s1.gatherBlocks q c d js ps else s1.gatherElems q c d js occ ps
        let (ok2, s2) := s1.flushBytes q m
        (ok2, evs, [], s2)

/-- A destination whose contents are unspecified (R41, R217): its elements, and its scales. -/
def State.openDesc (s : State) (q : Nat) (d : Desc) (js : List Nat) : State :=
  let (n, s1) := s.fresh
  let runs := d.runs js d.elems
  if !runsInside runs then s1
  else if d.bits then
    let m := (List.range d.elems).foldl (fun m k =>
      s1.putCode q m (d.bitAddr js k).toNat 1 (Config.freeNat n k)) emptyMap
    m.keys.foldl (fun s a => match m.get noByte a with
      | some b => s.setSpadCell (s.spadKey q a) (.known b)
      | none => s) s1
  else
    runs.foldl (fun s r => (span r.1 r.2).foldl (fun s a => s.setSpadCell (s.spadKey q a) (.unstated n)) s) s1

/-! ### The program's course -/

/-- The present loop indices, level 1 first, as R201 reads them: 0 outside a loop. -/
def VxeEng.indices (e : VxeEng) : List Nat :=
  let js := e.loops.reverse.map (·.iter)
  js ++ List.replicate (3 - js.length) 0

/-- Open taps of an engine as validation sees them: their counts are those of their contents. -/
def VxeEng.openTaps (e : VxeEng) : List OpenTap :=
  (span 0xF0 4).filterMap (fun t => (e.taps.get (fun _ => none) t).map (fun l => ⟨t, none, l.length⟩))

/-- `VXE_TAPS.OPEN`. -/
def VxeEng.tapBits (e : VxeEng) : Nat :=
  ((List.range 4).map (fun t => if (e.taps.get (fun _ => none) (0xF0 + t)).isSome then 2 ^ t else 0)).sum

/-- The instructions of the chain that starts at `i` (R207); 8 at most. -/
def VProg.chainFrom (p : VProg) : Nat → Nat → List OpenTap → List Nat
  | 0, _, _ => []
  | f + 1, i, taps =>
    if p.len ≤ i then []
    else
      let x := p.ins i
      let t1 := p.tapsAfter taps x (p.count taps x)
      if t1.isEmpty then [i] else i :: VProg.chainFrom p f (i + 1) t1

def VProg.chainAt (p : VProg) (i : Nat) : List Nat := p.chainFrom 8 i []

/-- Moves past the ends of loop bodies: the innermost loop whose body ends at the present instruction goes round again or
closes (R209). -/
def VxeEng.wrap : Nat → VxeEng → VxeEng
  | 0, e => e
  | f + 1, e =>
    match e.loops with
    | [] => e
    | l :: t =>
      if l.stop ≠ e.pc then e
      else if l.iter + 1 < l.count then { e with pc := l.first, loops := { l with iter := l.iter + 1 } :: t }
      else VxeEng.wrap f { e with loops := t }

/-- `VXE_LAST_FAULT` (R222). -/
def State.vxeLastFault (s : State) (q u code operand pc : Nat) : State :=
  s.setReg (pgVxe q u) R.VXE_LAST_FAULT (word (code * 2 ^ 24 + operand * 2 ^ 16 + pc))

/-- The program of an engine ends with a code (R217, R222, R223). -/
def State.vxeEnd (s : State) (q u id code operand pc : Nat) : State :=
  let s1 := (s.endJob id code).setVxeEng q u VxeEng.reset
  if code = cDone then s1
  else
    let s2 := s1.vxeLastFault q u code operand pc
    let s3 := if code = cAborted then s2 else s2.statusAll (pgVxe q u) 6
    if code = cNumericTrap then s3.statusAll (pgVxe q u) 4 else s3

/-- The destinations of the running chain, if one runs, become unspecified (R217, R218). -/
def State.vxeOpenChain (s : State) (q : Nat) (p : VProg) (e : VxeEng) : State :=
  match e.chain with
  | none => s
  | some first =>
    (p.chainAt first).foldl (fun s i =>
      match p.desc (p.ins i).d with
      | some d => s.openDesc q d e.indices
      | none => s) s

/-- The program ends within a chain: its destinations are unspecified. -/
def State.vxeBreak (s : State) (q u id : Nat) (p : VProg) (code operand pc : Nat) : State :=
  (s.vxeOpenChain q p (s.vxeEng q u)).vxeEnd q u id code operand pc

/-- After an instruction: loops, then the end of the program (R192, R209). -/
def State.vxeAfter (s : State) (q u id : Nat) (p : VProg) (e : VxeEng) : State :=
  let e1 := VxeEng.wrap 4 e
  if p.len ≤ e1.pc then (s.setVxeEng q u e1).vxeEnd q u id cDone 0 0 else s.setVxeEng q u e1

/-- The first trapping element in chunk order (R217). -/
def firstTrap (rev : Bool) (pc : Nat) (evs : List TrapEv) (old : Option TrapAt) : Option TrapAt :=
  let best := (evs.filter (fun v => v.tr.any)).foldl (fun (b : Option TrapEv) v =>
    match b with
    | some w => if v.key < w.key then some v else b
    | none => some v) none
  match best with
  | none => old
  | some v =>
    let t : TrapAt := ⟨(if rev then v.key else v.elem) / 1024, pc, v.elem⟩
    match old with
    | some o => if t.chunk < o.chunk then some t else old
    | none => some t

/-- An operation: what it makes of its operands, or none when it met an uncorrectable table word (R228). -/
abbrev VOp := VCtx → State → Option VRes × State

/-! ### Memory that two instructions of a chain share (R207) -/

/-- The bytes of a descriptor's first `n` elements and their scales, each with the chunk of its element. -/
def Desc.chunkBytes (d : Desc) (js : List Nat) (n : Nat) : List (Nat × Nat) :=
  (List.range n).flatMap (fun k => (span (d.byteSpan js k).1 (d.byteSpan js k).2).map (fun a => (a, k / 1024)))
  ++ (if d.scaled then (List.range ((n + 31) / 32)).map (fun b => ((d.scaleAddr js (32 * b)).toNat, b / 32)) else [])

/-- Another instruction of the running chain whose destination meets a descriptor: whether it comes later, whether its elements
do not follow the chunks one by one, and the bytes it writes. -/
structure Rival where
  later : Bool
  whole : Bool
  bytes : List (Nat × Nat)
deriving DecidableEq, Repr

/-- The rivals of the present instruction over descriptor d. -/
def VProg.rivals (p : VProg) (e : VxeEng) (d : Desc) : List Rival :=
  match e.chain with
  | none => []
  | some first =>
    ((p.chainAt first).filter (· ≠ e.pc)).filterMap (fun i =>
      match p.desc (p.ins i).d with
      | none => none
      | some w =>
        if spansMeet (d.spans e.indices) (w.spans e.indices) then
          some ⟨decide (e.pc < i), (p.ins i).isRow || (p.ins i).isScan, w.chunkBytes e.indices w.elems⟩
        else none)

/-- Whether the order of an access to byte `a` in chunk `c` and a rival's write is not that of the program: the instructions of a
chain move chunk by chunk, a producer ahead of its consumer (R207), so an earlier one is not done with its later chunks when
a later one works. -/
def Rival.mixes (r : Rival) (whole : Bool) (a c : Nat) : Bool :=
  r.bytes.any (fun (b, k) => b = a && (whole || r.whole || (if r.later then decide (k < c) else decide (c < k))))

/-- Values read where a rival writes in no stated order are free (assumption 141). -/
def State.mixReads (s : State) (p : VProg) (e : VxeEng) (x : VIns) (d : Desc) (vs : List Val) : List Val × State :=
  match p.rivals e d with
  | [] => (vs, s)
  | rs =>
    let (occ, s1) := s.fresh
    let whole := x.isRow || x.isScan
    (vs.zipIdx.map (fun (v, k) =>
      let (a, l) := d.byteSpan e.indices k
      let own := span a l ++ (if d.scaled then [(d.scaleAddr e.indices k).toNat] else [])
      if own.any (fun b => rs.any (fun r => r.mixes whole b (k / 1024))) then
        let z := Config.freeNat occ k
        if d.bits then Val.ofInt (z % 2 : Nat)
        else if d.scaled then scaledVal d.format (Config.freeNat occ (vs.length + k / 32) % 256) z
        else d.format.decode z
      else v), s1)

/-- Bytes written where an earlier instruction of the chain writes in no stated order are unspecified (assumption 141). -/
def State.mixWrites (s : State) (q : Nat) (p : VProg) (e : VxeEng) (x : VIns) (n : Nat) : State :=
  match p.desc x.d with
  | none => s
  | some d =>
    match (p.rivals e d).filter (fun r => !r.later) with
    | [] => s
    | rs =>
      let (occ, s1) := s.fresh
      let whole := x.isRow || x.isScan
      ((d.chunkBytes e.indices n).filter (fun (a, c) => rs.any (fun r => r.mixes whole a c))).foldl
        (fun s (a, _) => s.setSpadCell (s.spadKey q a) (.unstated occ)) s1

/-- A descriptor's values as the present instruction reads them. -/
def State.vxeRead (s : State) (q : Nat) (p : VProg) (e : VxeEng) (x : VIns) (d : Desc) (n : Nat) : Option (List Val) × State :=
  match s.readDesc q d e.indices n with
  | (some vs, s1) =>
    let (ws, s2) := s1.mixReads p e x d vs
    (some ws, s2)
  | r => r

/-- A source field's values (R195, R213); `whole` makes an immediate an integer. -/
def State.vxeSource (s : State) (q : Nat) (p : VProg) (e : VxeEng) (x : VIns) (n : Nat) (need : VNeed) (c : Nat) :
    Option (List Val) × State :=
  if c = opNone then (some [], s)
  else if c = opImm then
    let whole := match x.row.cls with
      | .int => true
      | .cmp | .any => x.inFmt.isInt && !p.scaledInt8 x
      | _ => false
    let v := if need.isBits then Val.ofInt (x.imm % 2) else if whole then Val.ofInt (signed 32 x.imm) else of32 x.imm
    (some (List.replicate n v), s)
  else if isTapCode c then
    let codes := (e.taps.get (fun _ => none) c).getD []
    (some (codes.map (fun (k : Nat) => if need.isBits then Val.ofInt (k : Int) else x.inFmt.decode k)), s)
  else
    match p.desc c with
    | some d => s.vxeRead q p e x d n
    | none => (some [], s)

/-- The outcome of reading an instruction's operands and mask: the lists, or the operand that was lost. -/
def State.vxeOperands (s : State) (q : Nat) (p : VProg) (e : VxeEng) (x : VIns) (n : Nat) :
    Sum Nat (List Val × List Val × List Val × List Bool) × State :=
  let r := x.row
  let (a, s1) := s.vxeSource q p e x n r.a x.a
  let (b, s2) := s1.vxeSource q p e x n r.b x.b
  let (c, s3) := s2.vxeSource q p e x n r.c x.c
  let (m, s4) := if x.mask = 0 then (some (List.replicate n (Val.ofInt 1)), s3)
    else
      match p.desc x.maskDesc with
      | some d => s3.vxeRead q p e x d n
      | none => (some [], s3)
  (match a, b, c, m with
    | none, _, _, _ => .inl 0
    | _, none, _, _ => .inl 1
    | _, _, none, _ => .inl 2
    | _, _, _, none => .inl 4
    | some a, some b, some c, some m => .inr (a, b, c, m.map (fun v => !v.isZero)), s4)

/-- Executes the present instruction of a running chain by `f`. -/
def State.vxeExec (s : State) (q u id : Nat) (p : VProg) (e : VxeEng) (x : VIns) (f : VOp) : State :=
  let n := p.count e.openTaps x
  let runs := e.execs.get (fun _ => 0) e.pc
  let (ops, _, s1) := s.atMostOneFault q false (fun s => s.vxeOperands q p e x n)
  match ops with
  | .inl o => s1.vxeBreak q u id p cDataLost o e.pc
  | .inr (a, b, c, act) =>
    let ctx : VCtx := ⟨x, n, a, b, c, act, e.seed, runs, e.scan⟩
    let (res, _, s2) := s1.atMostOneFault q false (f ctx)
    match res with
    | none => s2.vxeBreak q u id p cUnitFault 15 e.pc
    | some r =>
      let ((ok, evs, codes), _, s3) := s2.atMostOneFault q false (fun s =>
        if x.d = opNone then ((true, [], []), s)
        else
          let (ok, evs, codes, s1) := s.writeResults q ctx (p.desc x.d) e.indices r.pres
          ((ok, evs, codes), s1.mixWrites q p e x r.pres.length))
      if !ok then s3.vxeBreak q u id p cDataLost 3 e.pc
      else
        let s4 := if r.empty = 0 then s3 else (s3.bump (pgVxe q u) R.VXE_EMPTY_ROWS r.empty).statusAll (pgVxe q u) 5
        let s5 := if r.noSlot && !e.emptyUse then (s4.bump (pgSft q) R.SFT_EMPTY_USE 1).statusAll (pgSft q) 8 else s4
        let read := [x.a, x.b, x.c].foldl (fun t c => if isTapCode c then t.set (fun _ => none) c none else t) e.taps
        let taps := if isTapCode x.d then read.set (fun _ => none) x.d (some codes) else read
        let trap := if x.trap then firstTrap (x.op = 0x70 && bitOf x.opt 0) e.pc (r.early ++ evs) e.trap else e.trap
        let e1 := { e with
          pc := e.pc + 1
          execs := e.execs.set (fun _ => 0) e.pc (runs + 1)
          taps := taps
          scan := r.scan.getD e.scan
          trap := trap
          emptyUse := e.emptyUse || r.noSlot }
        if !e1.openTaps.isEmpty then s5.setVxeEng q u e1
        else
          match trap with
          | some t =>
            ((s5.setVxeEng q u e1).setReg (pgVxe q u) R.VXE_TRAP_ELEM (word t.elem)).vxeBreak q u id p cNumericTrap 15 t.pc
          | none => s5.vxeAfter q u id p { e1 with chain := none, bank := none, emptyUse := false }

/-- The present instruction of a running program, if its opcode is `op`: its command, its program and the engine. -/
def State.vxeNow (s : State) (q u op : Nat) : Option (Nat × VProg × VxeEng) :=
  match s.vxeJob q u with
  | none => none
  | some j =>
    let e := s.vxeEng q u
    if (j.vprog.ins e.pc).op = op then some (j.id, j.vprog, e) else none

/-- Runs an opcode of a started chain; nothing happens unless the engine stands at it. -/
def State.vxeOp (s : State) (q u op : Nat) (f : VOp) : State :=
  match s.vxeNow q u op with
  | none => s
  | some (id, p, e) => if e.chain.isSome then s.vxeExec q u id p e (p.ins e.pc) f else s

/-! ### Starting -/

/-- RUN (R189, R192, R208, R220): the engine takes up the program of a run command that has started. -/
def State.vxeRun (s : State) (id : Nat) : State :=
  match s.job? id with
  | none => s
  | some j =>
    if j.target ≠ tVxe ∨ j.phase ≠ .running ∨ (s.vxeJob j.square j.unit).isSome then s
    else s.setVxeEng j.square j.unit { VxeEng.reset with job := some id, seed := runSeed j.body }

def execRun (id : Nat) (s : State) : Host.Outcome State Fault Refusal := done s (s.vxeRun id)

/-- CHAIN_START (R211, R242): the chain at the present instruction starts, and latches the active bank if it looks tables
up. None starts on a page that drains with DRAIN 0 (R219). -/
def State.chainStart (s : State) (q u : Nat) : State :=
  match s.vxeJob q u with
  | none => s
  | some j =>
    let e := s.vxeEng q u
    let p := j.vprog
    let pg := s.page (pgVxe q u)
    if e.chain.isSome ∨ (p.ins e.pc).op = 1 ∨ (pg.st = .draining ∧ ¬ pg.drain) then s
    else
      let func := (p.chainAt e.pc).any (fun i => (p.ins i).isFunc)
      s.setVxeEng q u { e with
        chain := some e.pc
        trap := none
        bank := if func then some (s.sftActive q) else none }

def execChainStart (q : Fin 64) (u : Fin 2) (s : State) : Host.Outcome State Fault Refusal :=
  done s (s.chainStart q.val u.val)

/-! ### NOP, LOOP and SEED -/

/-- An instruction without operands: the engine changed by `f` stands at the next one. -/
def State.vxeSkip (s : State) (q u op : Nat) (f : VIns → VxeEng → VxeEng) : State :=
  match s.vxeNow q u op with
  | none => s
  | some (id, p, e) =>
    if e.chain.isNone then s
    else
      let e1 := { f (p.ins e.pc) e with pc := e.pc + 1 }
      if e1.openTaps.isEmpty then s.vxeAfter q u id p { e1 with chain := none, bank := none, emptyUse := false }
      else s.setVxeEng q u e1

/-- NOP (R196). -/
def execVNop (q : Fin 64) (u : Fin 2) (s : State) : Host.Outcome State Fault Refusal :=
  done s (s.vxeSkip q.val u.val 0 (fun _ e => e))

/-- LOOP (R209): opens the next level, or skips a body of no iterations. -/
def State.vxeLoop (s : State) (q u : Nat) : State :=
  match s.vxeNow q u 1 with
  | none => s
  | some (id, p, e) =>
    let x := p.ins e.pc
    let stop := e.pc + 1 + bitsOf x.imm 15 0
    if x.count = 0 then s.vxeAfter q u id p { e with pc := stop }
    else s.vxeAfter q u id p { e with pc := e.pc + 1, loops := ⟨e.pc + 1, stop, x.count, 0⟩ :: e.loops }

def execVLoop (q : Fin 64) (u : Fin 2) (s : State) : Host.Outcome State Fault Refusal := done s (s.vxeLoop q.val u.val)

/-- SEED (R196, R208): the seed becomes [127:96] : IMM. -/
def VIns.newSeed (x : VIns) : DWord := BitVec.ofNat 64 ((x.slot * 2 ^ 27 + x.count) * 2 ^ 32 + x.imm)

def execVSeed (q : Fin 64) (u : Fin 2) (s : State) : Host.Outcome State Fault Refusal :=
  done s (s.vxeSkip q.val u.val 2 (fun x e => { e with seed := x.newSeed }))

end Sys2Proof.Machine
end

