-- ==== Sys2Proof/Machine/VecOps.lean ====
section
/-!
DEFINITION. The element-wise opcodes of the vector engine (R195 to R199, R231, R234).
-/

namespace Sys2Proof.Machine

open Sys2Proof

/-- A list of `n` values; an unused operand gives zeros, which no opcode reads. -/
def padVals (n : Nat) (l : List Val) : List Val := if l.isEmpty then List.replicate n Val.zero else l

/-- What an inactive element's destination receives (R204). -/
def VIns.inactive (x : VIns) : Pre := if x.zero then .zero else .keep

/-- An element-wise result: `f` of the position and the three operands for each active element (R204). -/
def VCtx.each (c : VCtx) (f : Nat → Val → Val → Val → Pre) : List (Pre × Nat × Nat) :=
  let vs := (padVals c.n c.a).zip ((padVals c.n c.b).zip (padVals c.n c.c))
  ((vs.zip c.act).zipIdx).map (fun (((a, b, d), act), k) => (if act then f k a b d else c.x.inactive, k, k))

/-- An element-wise operation of three operands. -/
def elemOp (f : VCtx → Nat → Val → Val → Val → Pre) : VOp := fun c s => (some (VRes.plain (c.each (f c))), s)

/-- An exact value rounded to FP32, with the conditions that the rounding meets (R35, R40). -/
def fpPre (operands : List Val) (exact : Val) : Pre :=
  let r := rnd32 exact
  .fp r (opTraps operands exact r)

/-- A value that enters the output conversion as it is. -/
def asIs (v : Val) : Pre := .fp v Traps.none

/-- The integer that a whole value holds. -/
def Val.toInt (v : Val) : Int := roundInt .towardZero 0 v

/-- Whether a value is a whole number. -/
def Val.isWhole : Val → Bool
  | .fin _ m e => decide (0 ≤ e) || decide (m % 2 ^ (-e).toNat = 0)
  | _ => false

/-! ### Float class -/

def addPre (_ : VCtx) (_ : Nat) (a b _ : Val) : Pre := fpPre [a, b] (a.add b)
def subPre (_ : VCtx) (_ : Nat) (a b _ : Val) : Pre := fpPre [a, b] (a.sub b)
def mulPre (_ : VCtx) (_ : Nat) (a b _ : Val) : Pre := fpPre [a, b] (a.mul b)
def fmaPre (_ : VCtx) (_ : Nat) (a b c : Val) : Pre := fpPre [a, b, c] ((a.mul b).add c)
def fmsPre (_ : VCtx) (_ : Nat) (a b c : Val) : Pre := fpPre [a, b, c] ((a.mul b).sub c)
def fnmaPre (_ : VCtx) (_ : Nat) (a b c : Val) : Pre := fpPre [a, b, c] (c.sub (a.mul b))
def minPre (_ : VCtx) (_ : Nat) (a b _ : Val) : Pre := asIs (a.min b)
def maxPre (_ : VCtx) (_ : Nat) (a b _ : Val) : Pre := asIs (a.max b)
def absPre (_ : VCtx) (_ : Nat) (a _ _ : Val) : Pre := asIs a.abs
def negPre (_ : VCtx) (_ : Nat) (a _ _ : Val) : Pre := asIs a.neg
def clampPre (_ : VCtx) (_ : Nat) (a b c : Val) : Pre := asIs ((a.max b).min c)
def copysignPre (_ : VCtx) (_ : Nat) (a b _ : Val) : Pre := asIs (a.withSign b.negative)

/-- ROUNDI (R196): rounded to an integral value by ROUND; infinities, NaN and zeros stay. -/
def roundiPre (c : VCtx) (k : Nat) (a _ _ : Val) : Pre :=
  match a with
  | .fin g m e => asIs (.fin g (roundUnits c.x.rnd (c.rand k) m e 0) 0)
  | v => asIs v

/-- CVT (R196, R198, R608): between integer formats as integers, else by value. -/
def cvtPre (c : VCtx) (_ : Nat) (a _ _ : Val) : Pre :=
  if c.x.inFmt.isInt && c.x.outFmt.isInt && a.isWhole then .int a.toInt false else asIs a

/-- SEL: b if c's bit is 1, else a. -/
def selPre (_ : VCtx) (_ : Nat) (a b c : Val) : Pre := asIs (if c.isZero then a else b)

/-- CMP's predicates (R197). −0 is below +0 under LT and GT (R33) and equal to it under EQ; LE holds where LT or EQ does, and GE
where GT or EQ does, so LE of (+0, −0) and GE of (−0, +0) hold (assumption 139). -/
def cmpHolds (opt : Nat) (a b : Val) : Bool :=
  let un := a.isNaN || b.isNaN
  let lt := !un && a.cmp b = .lt
  let gt := !un && a.cmp b = .gt
  let eq := a.numEq b
  match opt with
  | 0 => eq
  | 1 => !eq
  | 2 => lt
  | 3 => lt || eq
  | 4 => gt
  | 5 => gt || eq
  | 6 => un
  | _ => !un

def cmpPre (c : VCtx) (_ : Nat) (a b _ : Val) : Pre := .bit (cmpHolds c.x.opt a b)

/-! ### Bit class -/

def bitPre (f : Bool → Bool → Bool) (_ : VCtx) (_ : Nat) (a b _ : Val) : Pre := .bit (f (!a.isZero) (!b.isZero))

/-! ### Integer class (R198) -/

/-- An exact integer result under WRAP. -/
def arithPre (f : Int → Int → Int) (c : VCtx) (_ : Nat) (a b _ : Val) : Pre := .int (f a.toInt b.toInt) (bitOf c.x.opt 0)

/-- A bitwise result at 32 bits. -/
def bitwisePre (f : Nat → Nat → Nat) (_ : VCtx) (_ : Nat) (a b _ : Val) : Pre :=
  .int (signed 32 (f (unsignedOf 32 a.toInt) (unsignedOf 32 b.toInt))) false

def pickPre (f : Int → Int → Int) (_ : VCtx) (_ : Nat) (a b _ : Val) : Pre := .int (f a.toInt b.toInt) false

/-- A pattern of IN_FMT's width read back: two's complement, or unsigned for UINT8. -/
def patternInt (f : Fmt) (n : Nat) : Int := if f = .u8 then (n % 256 : Nat) else signed f.width n

/-- The shift amount: the low 8 bits of b. -/
def shiftBy (b : Val) : Nat := unsignedOf 8 b.toInt

def shlPre (c : VCtx) (_ : Nat) (a b _ : Val) : Pre :=
  let f := c.x.inFmt
  .int (patternInt f (if f.width ≤ shiftBy b then 0 else unsignedOf f.width a.toInt * 2 ^ shiftBy b)) false

def shrlPre (c : VCtx) (_ : Nat) (a b _ : Val) : Pre :=
  let f := c.x.inFmt
  .int (patternInt f (if f.width ≤ shiftBy b then 0 else unsignedOf f.width a.toInt / 2 ^ shiftBy b)) false

def shrPre (c : VCtx) (k : Nat) (a b d : Val) : Pre :=
  let f := c.x.inFmt
  if f = .u8 then shrlPre c k a b d
  else .int (Int.fdiv (signed f.width (unsignedOf f.width a.toInt)) (2 ^ min (shiftBy b) f.width : Nat)) false

/-! ### Special functions (R231 to R234, R244) -/

/-- FUNC, FUNC_MUL and FUNC_FMA: `after` takes f(a), b and c to the result. -/
def funcOp (q u : Nat) (after : Val → Val → Val → Pre) : VOp := fun c s =>
  let bank := ((s.vxeEng q u).bank).getD 0
  match s.sftTable q bank c.x.slot with
  | none =>
    (some { VRes.plain (c.each (fun _ _ _ _ => .fp .nan Traps.inv)) with noSlot := c.act.any (fun b => b) }, s)
  | some t =>
    let segs := (((padVals c.n c.a).zip c.act).filterMap (fun (a, act) => if act then (t.lookup a).seg else none)).eraseDups
    let (ok, s1) := s.sftRead q bank c.x.slot segs
    if !ok then (none, s1)
    else
      (some (VRes.plain (c.each (fun _ a b d =>
        let r := t.eval a
        match after r.val b d with
        | .fp v tr => .fp v (r.traps.or tr)
        | p => p))), s1)

def funcPre (f _ _ : Val) : Pre := asIs f
def funcMulPre (f b _ : Val) : Pre := fpPre [f, b] (f.mul b)
def funcFmaPre (f b c : Val) : Pre := fpPre [f, b, c] ((f.mul b).add c)

/-! ### The commands -/

def execVAdd (q : Fin 64) (u : Fin 2) (s : State) : Host.Outcome State Fault Refusal :=
  done s (s.vxeOp q.val u.val 0x10 (elemOp addPre))

def execVSub (q : Fin 64) (u : Fin 2) (s : State) : Host.Outcome State Fault Refusal :=
  done s (s.vxeOp q.val u.val 0x11 (elemOp subPre))

def execVMul (q : Fin 64) (u : Fin 2) (s : State) : Host.Outcome State Fault Refusal :=
  done s (s.vxeOp q.val u.val 0x12 (elemOp mulPre))

def execVFma (q : Fin 64) (u : Fin 2) (s : State) : Host.Outcome State Fault Refusal :=
  done s (s.vxeOp q.val u.val 0x13 (elemOp fmaPre))

def execVFms (q : Fin 64) (u : Fin 2) (s : State) : Host.Outcome State Fault Refusal :=
  done s (s.vxeOp q.val u.val 0x14 (elemOp fmsPre))

def execVFnma (q : Fin 64) (u : Fin 2) (s : State) : Host.Outcome State Fault Refusal :=
  done s (s.vxeOp q.val u.val 0x15 (elemOp fnmaPre))

def execVMin (q : Fin 64) (u : Fin 2) (s : State) : Host.Outcome State Fault Refusal :=
  done s (s.vxeOp q.val u.val 0x16 (elemOp minPre))

def execVMax (q : Fin 64) (u : Fin 2) (s : State) : Host.Outcome State Fault Refusal :=
  done s (s.vxeOp q.val u.val 0x17 (elemOp maxPre))

def execVAbs (q : Fin 64) (u : Fin 2) (s : State) : Host.Outcome State Fault Refusal :=
  done s (s.vxeOp q.val u.val 0x18 (elemOp absPre))

def execVNeg (q : Fin 64) (u : Fin 2) (s : State) : Host.Outcome State Fault Refusal :=
  done s (s.vxeOp q.val u.val 0x19 (elemOp negPre))

def execVClamp (q : Fin 64) (u : Fin 2) (s : State) : Host.Outcome State Fault Refusal :=
  done s (s.vxeOp q.val u.val 0x1A (elemOp clampPre))

def execVCopysign (q : Fin 64) (u : Fin 2) (s : State) : Host.Outcome State Fault Refusal :=
  done s (s.vxeOp q.val u.val 0x1B (elemOp copysignPre))

def execVRoundi (q : Fin 64) (u : Fin 2) (s : State) : Host.Outcome State Fault Refusal :=
  done s (s.vxeOp q.val u.val 0x1C (elemOp roundiPre))

def execVCvt (q : Fin 64) (u : Fin 2) (s : State) : Host.Outcome State Fault Refusal :=
  done s (s.vxeOp q.val u.val 0x1D (elemOp cvtPre))

def execVSel (q : Fin 64) (u : Fin 2) (s : State) : Host.Outcome State Fault Refusal :=
  done s (s.vxeOp q.val u.val 0x1E (elemOp selPre))

def execVCmp (q : Fin 64) (u : Fin 2) (s : State) : Host.Outcome State Fault Refusal :=
  done s (s.vxeOp q.val u.val 0x20 (elemOp cmpPre))

def execVAnd (q : Fin 64) (u : Fin 2) (s : State) : Host.Outcome State Fault Refusal :=
  done s (s.vxeOp q.val u.val 0x28 (elemOp (bitPre (fun a b => a && b))))

def execVOr (q : Fin 64) (u : Fin 2) (s : State) : Host.Outcome State Fault Refusal :=
  done s (s.vxeOp q.val u.val 0x29 (elemOp (bitPre (fun a b => a || b))))

def execVXor (q : Fin 64) (u : Fin 2) (s : State) : Host.Outcome State Fault Refusal :=
  done s (s.vxeOp q.val u.val 0x2A (elemOp (bitPre (fun a b => a != b))))

def execVAndn (q : Fin 64) (u : Fin 2) (s : State) : Host.Outcome State Fault Refusal :=
  done s (s.vxeOp q.val u.val 0x2B (elemOp (bitPre (fun a b => a && !b))))

def execVIadd (q : Fin 64) (u : Fin 2) (s : State) : Host.Outcome State Fault Refusal :=
  done s (s.vxeOp q.val u.val 0x30 (elemOp (arithPre (fun a b => a + b))))

def execVIsub (q : Fin 64) (u : Fin 2) (s : State) : Host.Outcome State Fault Refusal :=
  done s (s.vxeOp q.val u.val 0x31 (elemOp (arithPre (fun a b => a - b))))

def execVImul (q : Fin 64) (u : Fin 2) (s : State) : Host.Outcome State Fault Refusal :=
  done s (s.vxeOp q.val u.val 0x32 (elemOp (arithPre (fun a b => a * b))))

def execVShl (q : Fin 64) (u : Fin 2) (s : State) : Host.Outcome State Fault Refusal :=
  done s (s.vxeOp q.val u.val 0x33 (elemOp shlPre))

def execVShr (q : Fin 64) (u : Fin 2) (s : State) : Host.Outcome State Fault Refusal :=
  done s (s.vxeOp q.val u.val 0x34 (elemOp shrPre))

def execVShrl (q : Fin 64) (u : Fin 2) (s : State) : Host.Outcome State Fault Refusal :=
  done s (s.vxeOp q.val u.val 0x35 (elemOp shrlPre))

def execVIand (q : Fin 64) (u : Fin 2) (s : State) : Host.Outcome State Fault Refusal :=
  done s (s.vxeOp q.val u.val 0x36 (elemOp (bitwisePre (fun a b => a &&& b))))

def execVIor (q : Fin 64) (u : Fin 2) (s : State) : Host.Outcome State Fault Refusal :=
  done s (s.vxeOp q.val u.val 0x37 (elemOp (bitwisePre (fun a b => a ||| b))))

def execVIxor (q : Fin 64) (u : Fin 2) (s : State) : Host.Outcome State Fault Refusal :=
  done s (s.vxeOp q.val u.val 0x38 (elemOp (bitwisePre (fun a b => a ^^^ b))))

def execVImin (q : Fin 64) (u : Fin 2) (s : State) : Host.Outcome State Fault Refusal :=
  done s (s.vxeOp q.val u.val 0x39 (elemOp (pickPre min)))

def execVImax (q : Fin 64) (u : Fin 2) (s : State) : Host.Outcome State Fault Refusal :=
  done s (s.vxeOp q.val u.val 0x3A (elemOp (pickPre max)))

def execVFunc (q : Fin 64) (u : Fin 2) (s : State) : Host.Outcome State Fault Refusal :=
  done s (s.vxeOp q.val u.val 0x40 (funcOp q.val u.val funcPre))

def execVFuncMul (q : Fin 64) (u : Fin 2) (s : State) : Host.Outcome State Fault Refusal :=
  done s (s.vxeOp q.val u.val 0x41 (funcOp q.val u.val funcMulPre))

def execVFuncFma (q : Fin 64) (u : Fin 2) (s : State) : Host.Outcome State Fault Refusal :=
  done s (s.vxeOp q.val u.val 0x42 (funcOp q.val u.val funcFmaPre))

end Sys2Proof.Machine
end

