-- ==== Sys2Proof/Machine/Stats.lean ====
section
/-!
DEFINITION. Row statistics, soft maximum and scans (09_row_statistics_soft_maximum_and_scans.md, R249 to R278).
-/

namespace Sys2Proof.Machine

open Sys2Proof

/-! ### The wide form and the chunk tree (R251, R252) -/

/-- Rounds into the wide form: 24 bits, nearest-even, no bound on the exponent. -/
def wide (v : Val) : Val := roundPrec .nearestEven 0 24 none v

def wadd (a b : Val) : Val := wide (a.add b)
def wmul (a b : Val) : Val := wide (a.mul b)
def wdiv (a b : Val) : Val := wide (a.div b)

/-- One level of the tree: neighbours are combined, an absent lane passes its partner through. -/
def treeLevel {α : Type} (op : α → α → α) : List (Option α) → List (Option α)
  | x :: y :: t =>
    (match x, y with
      | some a, some b => some (op a b)
      | some a, none => some a
      | none, b => b) :: treeLevel op t
  | l => l

/-- The chunk tree over at most 1,024 lanes: ten levels. -/
def treeFold {α : Type} (op : α → α → α) : Nat → List (Option α) → Option α
  | 0, l => l.headD none
  | f + 1, l => treeFold op f (treeLevel op l)

def chunkTree {α : Type} (op : α → α → α) (l : List (Option α)) : Option α := treeFold op 10 l

/-- Folds a row: the chunks' results in ascending order (R252). -/
def rowFold {α : Type} (op : α → α → α) (row : List (Option α)) : Option α :=
  (chunks 1024 row).foldl (fun acc c =>
    match acc, chunkTree op c with
    | some a, some b => some (op a b)
    | some a, none => some a
    | none, r => r) none

/-! ### Rows -/

/-- A row: its number, and its elements, absent where inactive. -/
structure Row where
  num : Nat
  len : Nat
  els : List (Option Val)
deriving DecidableEq, Repr

/-- The rows of an operand (R249). -/
def VCtx.rows (c : VCtx) : List Row :=
  let els := ((padVals c.n c.a).zip c.act).map (fun (v, act) => if act then some v else none)
  (chunks c.x.count els).zipIdx.map (fun (l, r) => ⟨r, c.x.count, l⟩)

/-- The active elements of a row with their positions. -/
def Row.active (r : Row) : List (Val × Nat) := r.els.zipIdx.filterMap (fun (v, i) => v.map (fun v => (v, i)))

/-- Processing order of an event of a row (R217): rows ascending, the first pass before the second, then positions. -/
def Row.key (r : Row) (pass i : Nat) : Nat := (r.num * 2 + pass) * 2 ^ 23 + i

/-- The position in the execution of element `i` of a row. -/
def Row.pos (r : Row) (i : Nat) : Nat := r.num * r.len + i

/-- A per-row result: its trap names the row's first element. -/
def Row.result (r : Row) (p : Pre) : Pre × Nat × Nat := (p, r.key 1 0, r.pos 0)

/-- What a row gives: its results, the events before them, and whether it was empty. -/
structure RowRes where
  pres : List (Pre × Nat × Nat)
  early : List TrapEv
  empty : Bool
deriving DecidableEq, Repr

/-- A row opcode from its effect on one row. -/
def rowOp (f : VCtx → Row → RowRes) : VOp := fun c s =>
  let rs := c.rows.map (f c)
  (some ⟨rs.flatMap (·.pres), rs.flatMap (·.early), (rs.filter (·.empty)).length, none, false⟩, s)

/-- A wide result rounded once into FP32 under R38 (R251). -/
def narrowPre (x : VIns) (operandsNaN : Bool) (v : Val) : Pre :=
  let (c, t) := Fmt.fp32.toFloat .nearestEven x.sat 0 v
  .fp (of32 c) (t.or ⟨v.isNaN && !operandsNaN, false, false⟩)

def Row.anyNaN (r : Row) : Bool := r.active.any (fun x => x.1.isNaN)

/-- A reduction to one result a row, with its value for an empty row (R255, R257). -/
def reduceRow (pre : Val → Val) (op : Val → Val → Val) (emptyVal : Val) (c : VCtx) (r : Row) : RowRes :=
  match rowFold op (r.els.map (fun o => o.map pre)) with
  | none => ⟨[r.result (.quiet emptyVal)], [], true⟩
  | some v => ⟨[r.result (narrowPre c.x r.anyNaN v)], [], false⟩

/-- The first position of the row maximum, or of the first NaN (R256). -/
def argmaxRow (_ : VCtx) (r : Row) : RowRes :=
  match r.active with
  | [] => ⟨[r.result (.int (-1) false)], [], true⟩
  | x :: t =>
    let best := match r.active.find? (fun y => y.1.isNaN) with
      | some y => y.2
      | none => (t.foldl (fun b y => if b.1.cmp y.1 = .lt then y else b) x).2
    ⟨[r.result (.int best false)], [], false⟩

/-! ### Mean and variance (R258 to R261) -/

/-- A triple: count, mean, sum of squared deviations, all wide. -/
structure Stat where
  n : Nat
  m : Val
  q : Val
deriving DecidableEq, Repr

def Stat.merge (x y : Stat) : Stat :=
  let nn := x.n + y.n
  let d := wadd y.m x.m.neg
  let w := wdiv (Val.ofInt y.n) (Val.ofInt nn)
  let m := wide ((d.mul w).add x.m)
  let t := wmul (wmul d d) (wmul (Val.ofInt x.n) w)
  let q := wadd (wadd x.q y.q) t
  ⟨nn, m, q.max Val.zero⟩

/-- The mean and the variance of a row in the wide form, R261's cases included; none for an empty row. -/
def Row.moments (r : Row) : Option (Val × Val) :=
  let pos := r.active.any (fun x => x.1 = .inf false)
  let neg := r.active.any (fun x => x.1 = .inf true)
  match rowFold Stat.merge (r.els.map (fun o => o.map (fun v => ⟨1, v, Val.zero⟩))) with
  | none => none
  | some st =>
    if r.anyNaN || (pos && neg) then some (.nan, .nan)
    else if pos || neg then some (.inf neg, .nan)
    else some (st.m, st.q.div (Val.ofInt st.n))

def momentsRow (c : VCtx) (r : Row) : RowRes :=
  match r.moments with
  | none => ⟨[r.result (asIs Val.zero), r.result (asIs Val.zero)], [], true⟩
  | some (m, v) => ⟨[r.result (narrowPre c.x r.anyNaN m), r.result (narrowPre c.x r.anyNaN v)], [], false⟩

/-! ### Normalisation (R262 to R264) -/

/-- A per-element result of the second pass, or what an inactive element receives. -/
def Row.second (r : Row) (c : VCtx) (f : Val → Nat → Pre) : List (Pre × Nat × Nat) :=
  r.els.zipIdx.map (fun (o, i) => (match o with
    | some v => f v (r.pos i)
    | none => c.x.inactive, r.key 1 i, r.pos i))

/-- An event of a row as a whole, in its first pass. -/
def Row.event (r : Row) (t : Traps) : TrapEv := ⟨r.key 0 0, r.pos 0, t⟩

/-- The reciprocal square root of u from the fixed image (R254), with the conditions met up to it. -/
def rowRsqrt (imm : Val) (p : Val) : Val × Traps :=
  let u := fadd p imm
  let l := fixedEval 9 u
  (l.val, (opTraps [p, imm] (p.add imm) u).or ⟨l.val.isNaN && !u.isNaN, false, false⟩)

/-- A multiplication in FP32 with its conditions. -/
def mulT (a b : Val) : Val × Traps := (fmul a b, opTraps [a, b] (a.mul b) (fmul a b))

def normRow (c : VCtx) (r : Row) : RowRes :=
  match r.moments with
  | none => ⟨r.second c (fun _ _ => c.x.inactive), [], true⟩
  | some (wm, wv) =>
    let pm := narrowPre c.x r.anyNaN wm
    let pv := narrowPre c.x r.anyNaN wv
    let (rs, t0) := rowRsqrt (of32 c.x.imm) pv.val
    let one (a : Val) (k : Nat) : Pre :=
      let d := fadd a pm.val.neg
      let t1 := opTraps [a, pm.val] (a.sub pm.val) d
      let (t, t2) := mulT d rs
      let g := nth Val.zero c.b k
      if c.x.c = opNone then
        let (y, t3) := mulT t g
        .fp y ((t1.or t2).or t3)
      else
        let z := nth Val.zero c.c k
        let exact := (t.mul g).add z
        let y := rnd32 exact
        .fp y ((t1.or t2).or (opTraps [t, g, z] exact y))
    ⟨r.second c one, [r.event ((pm.traps.or pv.traps).or t0)], false⟩

def rmsRow (c : VCtx) (r : Row) : RowRes :=
  match rowFold wadd (r.els.map (fun o => o.map (fun v => wmul v v))) with
  | none => ⟨r.second c (fun _ _ => c.x.inactive), [], true⟩
  | some sum =>
    let exact := sum.div (Val.ofInt r.active.length)
    let p := rnd32 exact
    let (rs, t0) := rowRsqrt (of32 c.x.imm) p
    let one (a : Val) (k : Nat) : Pre :=
      let (h, t1) := mulT a rs
      let (y, t2) := mulT h (nth Val.zero c.b k)
      .fp y (t1.or t2)
    ⟨r.second c one, [r.event ((opTraps [sum] exact p).or t0)], false⟩

/-! ### Soft maximum (R266 to R270) -/

def expOf (v : Val) : Val := (fixedEval 0 v).val
def lnOf (v : Val) : Val := (fixedEval 2 v).val

/-- The scaled row z = IMM × a, and the conditions its elements meet (R266). -/
def Row.scaled (r : Row) (imm : Val) : Row × List TrapEv :=
  let zs := r.els.zipIdx.map (fun (o, i) => (o.map (fun a => mulT imm a), i))
  ({ r with els := zs.map (fun (o, _) => o.map (·.1)) },
    zs.filterMap (fun (o, i) => o.map (fun x => ⟨r.key 0 i, r.pos i, x.2⟩)))

/-- The running maximum and rescaled sum of a row of finite and −∞ values (R267). -/
def Row.softStats (r : Row) : Val × Val :=
  (chunks 1024 r.els).foldl (fun (m, sum) c =>
    match chunkTree Val.max c with
    | none => (m, sum)
    | some mc =>
      if mc = .inf true then (m, sum)
      else
        let sc := (chunkTree fadd (c.map (fun o => o.map (fun z => expOf (fadd z mc.neg))))).getD Val.zero
        if mc.cmp m = .gt then (mc, ffma sum (expOf (fadd m mc.neg)) sc)
        else (m, ffma sc (expOf (fadd mc m.neg)) sum)) (.inf true, Val.zero)

/-- The cases of R268: NaN, empty, k entries of +∞, or finite. -/
inductive SoftCase where
  | nan
  | empty
  | inf (k : Nat)
  | finite (m sum : Val)
deriving DecidableEq, Repr

def Row.softCase (r : Row) : SoftCase :=
  let vs := r.active.map (·.1)
  let k := (vs.filter (· = .inf false)).length
  if vs.any Val.isNaN then .nan
  else if vs.all (· = .inf true) then .empty
  else if 1 ≤ k then .inf k
  else .finite r.softStats.1 r.softStats.2

def softmaxRow (c : VCtx) (r0 : Row) : RowRes :=
  let (r, evs) := r0.scaled (of32 c.x.imm)
  let log := bitOf c.x.opt 0
  match r.softCase with
  | .nan => ⟨r.second c (fun _ _ => asIs .nan), evs, false⟩
  | .empty => ⟨r.second c (fun _ _ => .quiet (if log then .inf true else Val.zero)), evs, true⟩
  | .inf k =>
    let hit := if log then (lnOf (Val.ofInt k)).neg else fdiv (Val.ofInt 1) (Val.ofInt k)
    let miss := if log then .inf true else Val.zero
    ⟨r.second c (fun z _ => asIs (if z = .inf false then hit else miss)), evs, false⟩
  | .finite m sum =>
    let rs := fdiv (Val.ofInt 1) sum
    ⟨r.second c (fun z _ =>
      asIs (if log then fadd (fadd z m.neg) (lnOf sum).neg else fmul (expOf (fadd z m.neg)) rs)), evs, false⟩

def lseRow (c : VCtx) (r0 : Row) : RowRes :=
  let (r, evs) := r0.scaled (of32 c.x.imm)
  let (p, empty) := match r.softCase with
    | .nan => (asIs .nan, false)
    | .empty => (.quiet (.inf true), true)
    | .inf _ => (asIs (.inf false), false)
    | .finite m sum => (asIs (fadd m (lnOf sum)), false)
  ⟨[r.result p], evs, empty⟩

def rstatRow (c : VCtx) (r0 : Row) : RowRes :=
  let (r, evs) := r0.scaled (of32 c.x.imm)
  let (m, sum, empty) := match r.softCase with
    | .nan => (asIs .nan, asIs .nan, false)
    | .empty => (.quiet (.inf true), .quiet Val.zero, true)
    | .inf k => (asIs (.inf false), asIs (Val.ofInt k), false)
    | .finite m sum => (asIs m, asIs sum, false)
  ⟨[r.result m, r.result sum], evs, empty⟩

/-- The factor of one input of RSTAT_MERGE (R269). -/
def mergeFactor (mi m : Val) : Val :=
  if mi = m then Val.pow2 0 else if mi = .inf true then Val.zero else expOf (fadd mi m.neg)

/-- RSTAT_MERGE (R269): the mask bit at element 2r governs row r. -/
def rstatMergeOp : VOp := fun c s =>
  let pair (l : List Val) (r : Nat) : Val × Val := (nth Val.zero l (2 * r), nth Val.zero l (2 * r + 1))
  let one (r : Nat) : List (Pre × Nat × Nat) :=
    let act := nth true c.act (2 * r)
    let (m1, s1) := if act then pair c.a r else (.inf true, Val.zero)
    let (m2, s2) := if act then pair c.b r else (.inf true, Val.zero)
    let here (p : Pre) : Pre × Nat × Nat := (p, 2 * r, 2 * r)
    if m1.isNaN || s1.isNaN || m2.isNaN || s2.isNaN then [here (asIs .nan), here (asIs .nan)]
    else
      let m := m1.max m2
      let (p1, t1) := mulT s1 (mergeFactor m1 m)
      let (p2, t2) := mulT s2 (mergeFactor m2 m)
      let exact := p1.add p2
      let y := rnd32 exact
      [here (asIs m), here (.fp y ((t1.or t2).or (opTraps [p1, p2] exact y)))]
  (some (VRes.plain ((List.range (c.n / 2)).flatMap one)), s)

/-! ### Scans (R271 to R277) -/

/-- The value of a scan-state slot. -/
def slotVal (m : FMap Nat) (i : Nat) : Val := of32 (m.get (fun _ => 0) i)

def setSlot (m : FMap Nat) (i : Nat) (v : Val) : FMap Nat := m.set (fun _ => 0) i (to32 v)

/-- A fused multiply-add with its conditions. -/
def fmaT (a b c : Val) : Val × Traps :=
  let exact := (a.mul b).add c
  let r := rnd32 exact
  (r, opTraps [a, b, c] exact r)

/-- One step of a real channel (R272, R273). -/
def realStep (a b h : Val) (reset : Bool) : Val × Traps := if reset then (b, Traps.none) else fmaT a h b

/-- One step of a complex channel (R272, R273): real and imaginary parts. -/
def complexStep (a b h : Val × Val) (reset : Bool) : (Val × Traps) × (Val × Traps) :=
  if reset then ((b.1, Traps.none), (b.2, Traps.none))
  else
    let (u, t1) := fmaT a.2.neg h.2 b.1
    let (re, t2) := fmaT a.1 h.1 u
    let (w, t3) := fmaT a.2 h.1 b.2
    let (im, t4) := fmaT a.1 h.2 w
    ((re, t1.or t2), (im, t3.or t4))

/-- The elements of one time step in processing order: each with its result, and the new state. -/
def VCtx.scanStep (c : VCtx) (t : Nat) (st : FMap Nat) : List (Nat × Pre) × FMap Nat :=
  let ch := c.x.count
  let bitAt (k : Nat) : Bool := !(nth Val.zero c.c k).isZero
  let av (k : Nat) : Val := nth Val.zero c.a k
  let bv (k : Nat) : Val := nth Val.zero c.b k
  (List.range ch).foldl (fun (out, st) i =>
    if c.x.complex then
      let k := t * (2 * ch) + 2 * i
      let aImm := c.x.a = opImm
      let bImm := c.x.b = opImm
      let a := (av k, if aImm then Val.zero else av (k + 1))
      let b := (bv k, if bImm then Val.zero else bv (k + 1))
      let (re, im) := complexStep a b (slotVal st (2 * i), slotVal st (2 * i + 1)) (bitAt k)
      (out ++ [(k, .fp re.1 re.2), (k + 1, .fp im.1 im.2)], setSlot (setSlot st (2 * i) re.1) (2 * i + 1) im.1)
    else
      let k := t * ch + i
      let (h, tr) := realStep (av k) (bv k) (slotVal st i) (bitAt k)
      (out ++ [(k, .fp h tr)], setSlot st i h)) ([], st)

/-- SCAN (R271 to R277). -/
def scanOp : VOp := fun c s =>
  let w := if c.x.complex then 2 * c.x.count else c.x.count
  let steps := if w = 0 then 0 else c.n / w
  let order := if bitOf c.x.opt 0 then (List.range steps).reverse else List.range steps
  let start := if bitOf c.x.opt 2 then c.scan else c.scan.keep (fun i => decide (w ≤ i))
  let (outs, st) := order.foldl (fun (out, st) t =>
    let (o, st1) := c.scanStep t st
    (out ++ o, st1)) ([], start)
  let tagged := outs.zipIdx.map (fun ((k, p), key) => (k, p, key))
  let pres := (List.range c.n).map (fun k =>
    match tagged.find? (fun x => x.1 = k) with
    | some (_, p, key) => (p, key, k)
    | none => (.keep, k, k))
  (some { VRes.plain pres with scan := some st }, s)

/-- SCANLD (R275). -/
def scanLdOp : VOp := fun c s =>
  let st := ((padVals c.n c.a).zipIdx).foldl (fun m (v, i) => setSlot m i v) c.scan
  (some { VRes.plain [] with scan := some st }, s)

/-- SCANST (R275). -/
def scanStOp : VOp := fun c s =>
  (some (VRes.plain ((List.range c.n).map (fun k => (asIs (slotVal c.scan k), k, k)))), s)

/-! ### The commands -/

def execVRsum (q : Fin 64) (u : Fin 2) (s : State) : Host.Outcome State Fault Refusal :=
  done s (s.vxeOp q.val u.val 0x60 (rowOp (reduceRow (fun v => v) wadd Val.zero)))

def execVRmax (q : Fin 64) (u : Fin 2) (s : State) : Host.Outcome State Fault Refusal :=
  done s (s.vxeOp q.val u.val 0x61 (rowOp (reduceRow (fun v => v) Val.max (.inf true))))

def execVRmin (q : Fin 64) (u : Fin 2) (s : State) : Host.Outcome State Fault Refusal :=
  done s (s.vxeOp q.val u.val 0x62 (rowOp (reduceRow (fun v => v) Val.min (.inf false))))

def execVRsumsq (q : Fin 64) (u : Fin 2) (s : State) : Host.Outcome State Fault Refusal :=
  done s (s.vxeOp q.val u.val 0x63 (rowOp (reduceRow (fun v => wmul v v) wadd Val.zero)))

def execVRargmax (q : Fin 64) (u : Fin 2) (s : State) : Host.Outcome State Fault Refusal :=
  done s (s.vxeOp q.val u.val 0x64 (rowOp argmaxRow))

def execVMoments (q : Fin 64) (u : Fin 2) (s : State) : Host.Outcome State Fault Refusal :=
  done s (s.vxeOp q.val u.val 0x65 (rowOp momentsRow))

def execVNorm (q : Fin 64) (u : Fin 2) (s : State) : Host.Outcome State Fault Refusal :=
  done s (s.vxeOp q.val u.val 0x66 (rowOp normRow))

def execVRmsnorm (q : Fin 64) (u : Fin 2) (s : State) : Host.Outcome State Fault Refusal :=
  done s (s.vxeOp q.val u.val 0x67 (rowOp rmsRow))

def execVSoftmax (q : Fin 64) (u : Fin 2) (s : State) : Host.Outcome State Fault Refusal :=
  done s (s.vxeOp q.val u.val 0x68 (rowOp softmaxRow))

def execVLse (q : Fin 64) (u : Fin 2) (s : State) : Host.Outcome State Fault Refusal :=
  done s (s.vxeOp q.val u.val 0x69 (rowOp lseRow))

def execVRstat (q : Fin 64) (u : Fin 2) (s : State) : Host.Outcome State Fault Refusal :=
  done s (s.vxeOp q.val u.val 0x6A (rowOp rstatRow))

def execVRstatMerge (q : Fin 64) (u : Fin 2) (s : State) : Host.Outcome State Fault Refusal :=
  done s (s.vxeOp q.val u.val 0x6B rstatMergeOp)

def execVScan (q : Fin 64) (u : Fin 2) (s : State) : Host.Outcome State Fault Refusal :=
  done s (s.vxeOp q.val u.val 0x70 scanOp)

def execVScanld (q : Fin 64) (u : Fin 2) (s : State) : Host.Outcome State Fault Refusal :=
  done s (s.vxeOp q.val u.val 0x71 scanLdOp)

def execVScanst (q : Fin 64) (u : Fin 2) (s : State) : Host.Outcome State Fault Refusal :=
  done s (s.vxeOp q.val u.val 0x72 scanStOp)

end Sys2Proof.Machine
end

