-- ==== Sys2Proof/Machine/Upd.lean ====
section
/-!
DEFINITION. The parameter update units (12_near_memory_parameter_update.md, R347 to R373): the command and the layer
descriptor, validation, price, the passes, ORTHO, and the HOST_RULE path.
-/

namespace Sys2Proof.Machine

open Sys2Proof

/-! ### The command and the descriptor -/

/-- A layer descriptor (R366). -/
structure Layer where
  phi : Nat
  isLazy : Bool
  host : Bool
  trap : Bool
  sat : Bool
  round : Nat
  wF : Nat
  mF : Nat
  gF : Nat
  group : Nat
  iter : Nat
  elems : Nat
  w : Nat
  m : Nat
  g : Nat
  stamp : Nat
  pres : Nat
  beta : Nat
  gamma : Nat
  lam : Nat
  rho : Nat
  eps : Nat
  budget : Nat
  rows : Nat
  cols : Nat
  oa : Nat
  ob : Nat
  oc : Nat
  squares : Nat
  work : Nat
  spad : Nat
deriving DecidableEq, Repr

def Layer.parse (ws : List DWord) : Layer :=
  let w0 := wd ws 0
  { phi := bitsOf w0 1 0, isLazy := bitOf w0 2, host := bitOf w0 3, trap := bitOf w0 4, sat := bitOf w0 5,
    round := bitsOf w0 7 6, wF := bitsOf w0 12 8, mF := bitsOf w0 17 13, gF := bitsOf w0 22 18, group := bitsOf w0 30 23,
    iter := bitsOf w0 34 31, elems := bitsOf (wd ws 1) 32 0, w := bitsOf (wd ws 2) 47 0, m := bitsOf (wd ws 3) 47 0,
    g := bitsOf (wd ws 4) 47 0, stamp := bitsOf (wd ws 5) 47 0, pres := bitsOf (wd ws 6) 47 0,
    beta := bitsOf (wd ws 7) 31 0, gamma := bitsOf (wd ws 7) 63 32, lam := bitsOf (wd ws 8) 31 0,
    rho := bitsOf (wd ws 8) 63 32, eps := bitsOf (wd ws 9) 31 0, budget := bitsOf (wd ws 9) 63 32,
    rows := bitsOf (wd ws 10) 22 0, cols := bitsOf (wd ws 10) 45 23, oa := bitsOf (wd ws 11) 31 0,
    ob := bitsOf (wd ws 11) 63 32, oc := bitsOf (wd ws 12) 31 0, squares := wd ws 13, work := bitsOf (wd ws 14) 47 0,
    spad := bitsOf (wd ws 15) 24 0 }

/-- Fields of the command (R365). -/
def updStep (ws : List DWord) : Nat := bitsOf (wd ws 0) 47 16
def updLayer (ws : List DWord) : Nat := bitsOf (wd ws 1) 47 0
def updEta (ws : List DWord) : Nat := bitsOf (wd ws 2) 31 0
def updSeed (ws : List DWord) : DWord := nth 0#64 ws 3

def Layer.ortho (l : Layer) : Bool := l.phi = 3
def Layer.twoPass (l : Layer) : Bool := decide (2 ≤ l.phi)

/-- FP32 or BF16. -/
def updFmt (c : Nat) : Fmt := if c = 1 then .bf16 else .fp32
def Layer.wBytes (l : Layer) : Nat := (updFmt l.wF).width / 8
def Layer.mBytes (l : Layer) : Nat := (updFmt l.mF).width / 8
def Layer.gBytes (l : Layer) : Nat := (updFmt l.gF).width / 8
def Layer.rnd (l : Layer) : Rnd := (Rnd.ofCode l.round).getD .nearestEven

/-- Blocks of 1,024 elements (R349). -/
def Layer.blocks (l : Layer) : Nat := ceilDiv l.elems 1024
def Layer.blockLen (l : Layer) (b : Nat) : Nat := min 1024 (l.elems - 1024 * b)

/-- Sides of the ORTHO matrix X (R358). -/
def Layer.mm (l : Layer) : Nat := min l.rows l.cols
def Layer.nn (l : Layer) : Nat := max l.rows l.cols
def Layer.workBytes (l : Layer) : Nat := 4 * l.mm * l.nn + 8 * l.mm * l.mm
def Layer.staging (l : Layer) : Nat := 1024 * l.nn + 131072

/-- The arrays of a layer: base and bytes. -/
def Layer.arrays (l : Layer) : List (Nat × Nat) :=
  [(l.w, l.elems * l.wBytes), (l.m, l.elems * l.mBytes), (l.g, l.elems * l.gBytes)]
  ++ (if l.stamp ≠ 0 then [(l.stamp, 4 * l.blocks)] else [])
  ++ (if l.pres ≠ 0 then [(l.pres, ceilDiv l.blocks 8)] else [])
  ++ (if l.ortho then [(l.work, l.workBytes)] else [])

/-- No two of a list of runs meet. -/
def runsApart : List (Nat × Nat) → Bool
  | [] => true
  | r :: t => t.all (fun x => !runsMeet r.1 r.2 x.1 x.2) && runsApart t

/-- Reserved bits of the command's words (R365, R8). -/
def updWordsOk (ws : List DWord) : Bool :=
  bitsOf (wd ws 0) 7 0 = 1 && bitsOf (wd ws 0) 15 8 = 0 && bitsOf (wd ws 0) 63 48 = 0 && bitsOf (wd ws 1) 63 48 = 0
  && bitsOf (wd ws 2) 63 32 = 0

/-- Reserved encodings and unused fields of a descriptor (R366, R367). -/
def layerEncodingOk (ds : List DWord) (l : Layer) : Bool :=
  bitsOf (wd ds 0) 63 35 = 0 && bitsOf (wd ds 1) 63 33 = 0
  && [2, 3, 4, 5, 6, 14].all (fun i => bitsOf (wd ds i) 63 48 = 0)
  && bitsOf (wd ds 10) 63 46 = 0 && bitsOf (wd ds 12) 63 32 = 0 && bitsOf (wd ds 15) 63 25 = 0
  && decide (l.wF ≤ 1) && decide (l.mF ≤ 1) && decide (l.gF ≤ 1) && (Rnd.ofCode l.round).isSome
  && decide (1 ≤ l.elems) && decide (l.elems ≤ 2 ^ 32)
  && (l.stamp ≠ 0 || !l.isLazy)
  && (l.host || (l.group = 0 && l.budget = 0))
  && (l.twoPass || l.eps = 0)
  && (l.ortho || (l.iter = 0 && wd ds 10 = 0 && wd ds 11 = 0 && wd ds 12 = 0 && l.squares = 0 && l.work = 0 && l.spad = 0))

/-- The second line of R367, as far as the command's own words go. -/
def updValuesOk (ws : List DWord) : Bool := (of32 (updEta ws)).isFin && decide (updStep ws ≠ 0xFFFFFFFF)

/-- The second line of R367. -/
def layerValuesOk (l : Layer) : Bool :=
  [l.beta, l.gamma, l.lam, l.rho, l.eps, l.oa, l.ob, l.oc].all (fun c => (of32 c).isFin)
  && !((of32 l.eps).negative && !(of32 l.eps).isZero)
  && (!l.ortho || (decide (1 ≤ l.iter) && decide (l.iter ≤ 8)))

/-- The third and fourth lines of R367; `inside` tells that the work area lies in the partition's regions (R359). -/
def layerPlacesOk (l : Layer) (inside : Bool) : Bool :=
  l.w % 4096 = 0 && l.m % 4096 = 0 && l.g % 4096 = 0
  && (!l.ortho || (decide (1 ≤ l.mm) && decide (l.nn ≤ 16384) && decide (l.rows * l.cols = l.elems) && l.spad % 64 = 0
      && decide (l.spad + l.staging ≤ spadSize) && decide (l.squares ≠ 0) && inside))
  && runsApart l.arrays

/-- The squares ORTHO names. -/
def Layer.orthoSquares (l : Layer) : List Nat := allSquares.filter (fun q => bitOf l.squares q)

/-- Reads the descriptor at submission: its sixteen words, or the code of what goes wrong. -/
def State.readLayer (s : State) (p : Fin 16) (ws : List DWord) : Got (List DWord) × State :=
  match s.memRead p s.devId.toNat (updLayer ws) 128 with
  | (.ok bs, s1) => (.ok ((chunks 8 bs).map (fun b => BitVec.ofNat 64 (leNat b))), s1)
  | (.fail c, s1) => (.fail c, s1)
  | (.wait, s1) => (.wait, s1)

/-- Validation at submission (R365, R367): the descriptor's words, or the code of the first line that a command fails; what the
command's own words show comes before the reading of the descriptor. A stack that is not RUNNING is waited for (R345). -/
def State.updValidate (s : State) (p : Fin 16) (ws : List DWord) : Got (List DWord) × State :=
  if ws.length ≠ 4 ∨ !updWordsOk ws ∨ updLayer ws % 128 ≠ 0 ∨ !updValuesOk ws then (.fail cBadDescriptor, s)
  else
    match s.readLayer p ws with
    | (.ok ds, s1) =>
      let l := Layer.parse ds
      if !layerEncodingOk ds l || !layerValuesOk l || !layerPlacesOk l (s1.memAllowed p l.work l.workBytes) then
        (.fail cBadDescriptor, s1)
      else if l.arrays.all (fun r => s1.memAllowed p r.1 r.2) && l.orthoSquares.all (fun q => s1.sqOwner q = p)
          && (!l.host || p = 0) then (.ok ds, s1)
      else (.fail cPartitionFault, s1)
    | r => r

def Job.layer (j : Job) : Layer := Layer.parse j.prog

/-! ### Price (R371) -/

/-- `n` runs of `bytes`: the run as R330 counts it, and its bytes. -/
def updRun (n bytes : Nat) (written : Bool) : (Nat × Nat × Bool) × Nat := ((n, ceilDiv bytes 64 + 1, written), n * bytes)

/-- The memory runs of a layer, every block present, with their bytes. -/
def Layer.runs (l : Layer) : List ((Nat × Nat × Bool) × Nat) :=
  let gb := l.elems * l.gBytes
  let mb := l.elems * l.mBytes
  let wb := l.elems * l.wBytes
  let x := 2 * l.mm * l.nn
  let sq := l.mm * l.mm
  let t := ceilDiv l.mm 128
  let u := ceilDiv l.nn 128
  (match l.phi with
    | 2 => [updRun 1 gb false, updRun 1 mb false, updRun 1 mb true, updRun 1 mb false, updRun 1 wb false, updRun 1 wb true]
    | 3 => [updRun 1 gb false, updRun 1 mb false, updRun 1 mb true, updRun 1 mb false, updRun 1 x true, updRun 1 x true]
        ++ [updRun (l.iter * t * t * 256) (2 * l.nn) false, updRun l.iter (4 * sq) true, updRun l.iter (2 * sq) true,
            updRun (l.iter * t * t * 256) (2 * l.mm) false, updRun l.iter (4 * sq) false, updRun l.iter (2 * sq) true,
            updRun (l.iter * t * u * 256) (2 * l.mm) false, updRun l.iter x false, updRun l.iter x true,
            updRun l.iter x true]
        ++ [updRun 1 x false, updRun 1 wb false, updRun 1 wb true]
    | _ => [updRun 1 gb false, updRun 1 mb false, updRun 1 wb false, updRun 1 mb true, updRun 1 wb true])
  ++ (if l.stamp ≠ 0 then [updRun 1 (4 * l.blocks) false, updRun 1 (4 * l.blocks) true] else [])
  ++ (if l.pres ≠ 0 then [updRun 1 (ceilDiv l.blocks 8) false] else [])

/-- The tile of R360 with M = N = 128 and depth `k`, as its cost sees it. -/
def orthoTile (k : Nat) : Tile :=
  { Tile.parse [] with opcode := 1, aFmt := 1, bFmt := 1, cFmt := 0, m := 128, n := 128, k := k }

def Layer.orthoBeats (l : Layer) (nst slots : Nat) : Nat :=
  let t := 2 * l.orthoSquares.length
  let tt := ceilDiv l.mm 128
  let uu := ceilDiv l.nn 128
  let cn := (orthoTile l.nn).cost
  let cm := (orthoTile l.mm).cost
  let per := ceilDiv (tt * tt) t * cn + ceilDiv (tt * tt) t * cm + ceilDiv (tt * uu) t * cm
  let moved := tt * tt * (512 * l.nn + 65536) + (tt * tt + tt * uu) * (512 * l.mm + 65536)
  l.iter * (per + ceilDiv moved (192 * nst * slots) + 144)

/-- `upd_cost` (R371). -/
def State.updCost (s : State) (p : Fin 16) (ds : List DWord) : Cost :=
  let l := Layer.parse ds
  if l.host then ⟨0, 500 + l.budget, [], [], []⟩
  else
    let st := s.updStacks.length
    let slots := s.meshSlots p
    let passes := if l.twoPass then 2 else 1
    let ns := ceilDiv (passes * l.elems * 10) (2048 * st) + 10 * passes + (if l.twoPass then 2000 else 0)
    let beats := ceilDiv ((l.runs.map (·.2)).sum) (192 * st * slots) + 48 * passes
      + (if l.ortho then l.orthoBeats st slots else 0)
    ⟨withMargin beats, ns, l.runs.map (·.1), [], []⟩

/-! ### One element and one block (R347 to R354) -/

/-- An FP32 sum with the conditions it meets. -/
def addT (a b : Val) : Val × Traps := (fadd a b, opTraps [a, b] (a.add b) (fadd a b))

/-- The layer's constants as values, with d = 1 − η·λ. -/
structure UpdK where
  eta : Val
  beta : Val
  gamma : Val
  rho : Val
  d : Val
  dTraps : Traps
deriving DecidableEq, Repr

def updK (ws : List DWord) (l : Layer) : UpdK :=
  let (p, t1) := mulT (of32 (updEta ws)) (of32 l.lam)
  let (d, t2) := addT (Val.pow2 0) p.neg
  ⟨of32 (updEta ws), of32 l.beta, of32 l.gamma, of32 l.rho, d, t1.or t2⟩

/-- A power by binary exponentiation from the low bit of the exponent upward (R353): the remaining exponent, the present
square, the product so far. -/
def powLoop : Nat → Nat → Val × Traps → Val × Traps → Val × Traps
  | 0, _, _, acc => acc
  | f + 1, e, b, acc =>
    if e = 0 then acc
    else
      let acc' := if e % 2 = 1 then let (v, t) := mulT acc.1 b.1; (v, (acc.2.or b.2).or t) else acc
      if e / 2 = 0 then acc' else let (v, t) := mulT b.1 b.1; powLoop f (e / 2) (v, b.2.or t) acc'

def powT (b : Val) (e : Nat) : Val × Traps := powLoop 33 e (b, Traps.none) (Val.pow2 0, Traps.none)

/-- New momentum (R347). -/
def updMomentum (k : UpdK) (g m : Val) : Val × Traps :=
  let (p, t1) := mulT k.beta m
  let (v, t2) := fmaT k.gamma g p
  (v, t1.or t2)

/-- New parameter from Φ(m) (R347). -/
def updParam (k : UpdK) (phi : Val × Traps) (w : Val) : Val × Traps :=
  let (u, t1) := mulT k.rho phi.1
  let (x, t2) := mulT k.eta.neg u
  let (y, t3) := mulT k.d w
  let (v, t4) := addT x y
  (v, ((phi.2.or t1).or (t2.or t3)).or (t4.or k.dTraps))

/-- SIGN (R348). -/
def signOf (m : Val) : Val := if m.isNaN || m.isZero then m else (Val.pow2 0).withSign m.negative

/-- Φ of the one-pass layers and of LAYER_RMS, `rs` its factor (R348). -/
def updPhi (l : Layer) (rs m : Val) : Val × Traps :=
  if l.phi = 1 then (signOf m, Traps.none)
  else if l.phi = 2 then mulT m rs
  else (m, Traps.none)

/-- Converts element values to a format under the descriptor (R347): codes and whether any met a condition. -/
def Layer.store (l : Layer) (f : Fmt) (seed : DWord) (i0 : Nat) (vs : List (Val × Traps)) : List Nat × Bool :=
  let outs := vs.zipIdx.map (fun ((v, t), i) =>
    let r := if l.rnd = Rnd.stochastic then srBits seed (i0 + i) else 0
    let (c, t2) := f.convert l.rnd l.sat r v
    (c, (t.or t2).any))
  (outs.map (·.1), outs.any (·.2))

/-- The home unit's stack of a block (R350, R369): the stack of its first momentum granule, or the next fitted one, taken
cyclically, whose unit is not RETIRED. -/
def State.updHome (s : State) (l : Layer) (b : Nat) : Nat :=
  let k := s.granStack ((l.m + b * 1024 * l.mBytes) / 64)
  let order := s.sys.variant.stacks.filter (fun x => k ≤ x) ++ s.sys.variant.stacks.filter (fun x => x < k)
  (order.find? (fun x => s.pstate (pgUpd x) ≠ .retired)).getD k

/-- Reads `n` elements of an array from element `i`. -/
def State.updRead (s : State) (p : Fin 16) (f : Fmt) (base i n : Nat) : Got (List Val) × State :=
  match s.memRead p s.devId.toNat (base + i * (f.width / 8)) (n * (f.width / 8)) with
  | (.ok bs, s1) => (.ok ((unpackElems f n bs).map f.decode), s1)
  | (.fail c, s1) => (.fail c, s1)
  | (.wait, s1) => (.wait, s1)

def State.updWrite (s : State) (p : Fin 16) (f : Fmt) (base i : Nat) (codes : List Nat) : Got Unit × State :=
  s.memWriteCells p s.devId.toNat (base + i * (f.width / 8)) ((packElems f codes).map Cell.known)

/-- A code that stops a command, or none. -/
def Got.stop {α : Type} : Got α → Option Nat
  | .ok _ => none
  | .fail c => some c
  | .wait => some cDataLost

/-- The present blocks of a layer, from its bitmap (R351). -/
def State.updPresent (s : State) (p : Fin 16) (l : Layer) : Sum Nat (List Nat) × State :=
  if l.pres = 0 ∨ l.ortho then (.inr (List.range l.blocks), s)
  else
    match s.memRead p s.devId.toNat l.pres (ceilDiv l.blocks 8) with
    | (.ok bs, s1) => (.inr ((List.range l.blocks).filter (fun b => (nth 0#8 bs (b / 8)).getLsbD (b % 8))), s1)
    | (r, s1) => (.inl (r.stop.getD cDataLost), s1)

/-- A block's stamp before the command, none without stamps. -/
def State.updStamp (s : State) (p : Fin 16) (l : Layer) (b : Nat) : Got (Option Nat) × State :=
  if l.stamp = 0 then (.ok none, s)
  else
    match s.memRead p s.devId.toNat (l.stamp + 4 * b) 4 with
    | (.ok bs, s1) => (.ok (some (leNat bs)), s1)
    | (.fail c, s1) => (.fail c, s1)
    | (.wait, s1) => (.wait, s1)

/-- The Δ of R353 and R354. -/
def updDelta (step : Nat) : Option Nat → Nat
  | none => 0
  | some t => if t < step then step - 1 - t else 0

/-- Counts a block on its home unit's page: updated, lazily scaled, or stamped at or after the step (R353, R354, R372). -/
def State.updCount (s : State) (l : Layer) (step b : Nat) (stamp : Option Nat) : State :=
  let pn := pgUpd (s.updHome l b)
  let s1 := s.bump64 pn R.UPD_BLOCKS_LO 1
  let s2 := if l.isLazy && !l.ortho && decide (0 < updDelta step stamp) then s1.bump pn R.UPD_LAZY 1 else s1
  match stamp with
  | some t => if step ≤ t ∧ t ≠ 0xFFFFFFFF then (s2.bump pn R.UPD_STAMP_BACK 1).statusAll pn 5 else s2
  | none => s2

/-- What pass 1 finds of a block: its code when it fails, else its Δ and the new momentum in FP32. -/
abbrev BlockRes := Sum Nat (Nat × List Val)

/-- Pass 1 of one block (R347 to R355): the momentum is written, and in a one-pass layer the parameters too, all or nothing
(R368). -/
def State.updBlock1 (s : State) (p : Fin 16) (ws : List DWord) (l : Layer) (k : UpdK) (b : Nat) : BlockRes × State :=
  let n := l.blockLen b
  let i := 1024 * b
  let (st, s1) := s.updStamp p l b
  let (gs, s2) := s1.updRead p (updFmt l.gF) l.g i n
  let (ms, s3) := s2.updRead p (updFmt l.mF) l.m i n
  let (os, s4) := if l.twoPass then (.ok [], s3) else s3.updRead p (updFmt l.wF) l.w i n
  match st, gs, ms, os with
  | .ok stamp, .ok g, .ok m0, .ok w0 =>
    let dl := if l.isLazy && !l.ortho then updDelta (updStep ws) stamp else 0
    let fm := powT k.beta dl
    let fw := powT k.d dl
    let m1 := m0.map (fun m => let (v, t) := mulT m fm.1; (v, t.or fm.2))
    let m2 := (g.zip m1).map (fun (g, m) => let (v, t) := updMomentum k g m.1; (v, t.or m.2))
    let w2 := (w0.zip m2).map (fun (w, m) =>
      let (x, t0) := mulT w fw.1
      let (v, t) := updParam k (updPhi l Val.zero m.1) x
      (v, (t.or t0).or fw.2))
    let (mc, mt) := l.store (updFmt l.mF) (updSeed ws) (l.elems + i) m2
    let (wc, wt) := l.store (updFmt l.wF) (updSeed ws) i w2
    if l.trap && (mt || wt) then (.inl cNumericTrap, s4)
    else
      let (r1, s5) := s4.updWrite p (updFmt l.mF) l.m i mc
      let (r2, s6) := if l.twoPass then (.ok (), s5) else s5.updWrite p (updFmt l.wF) l.w i wc
      let (r3, s7) := if l.stamp = 0 then (.ok (), s6)
        else s6.memWriteCells p s6.devId.toNat (l.stamp + 4 * b) ((leBytes 4 (updStep ws)).map Cell.known)
      match [r1, r2, r3].findSome? Got.stop with
      | some c => (.inl c, s7)
      | none => (.inr (dl, m2.map (·.1)), s7.updCount l (updStep ws) b stamp)
  | _, _, _, _ => (.inl (((st.stop.or gs.stop).or (ms.stop.or os.stop)).getD cDataLost), s4)

/-! ### The work area (R359) -/

def Layer.xr (l : Layer) : Nat := l.work
def Layer.xc (l : Layer) : Nat := l.work + 2 * l.mm * l.nn
def Layer.af (l : Layer) : Nat := l.work + 4 * l.mm * l.nn
def Layer.ab (l : Layer) : Nat := l.af + 4 * l.mm * l.mm
def Layer.bm (l : Layer) : Nat := l.ab + 2 * l.mm * l.mm

/-- The runs of XR that hold a block's elements of X: one, or, when X is the transpose, one for each column of the layer, with its first
row (R358). -/
def Layer.xRuns (l : Layer) (i n : Nat) : List (Nat × Nat × Nat) :=
  if l.cols < l.rows then
    (List.range l.cols).map (fun c =>
      let r0 := ceilDiv (i - c) l.cols
      (l.xr + 2 * (c * l.nn + r0), 2 * (ceilDiv (i + n - c) l.cols - r0), r0))
  else [(l.xr + 2 * i, 2 * n, i)]

/-- The elements of X that serve `n` elements of the layer from element `i`. -/
def State.updReadX (s : State) (p : Fin 16) (l : Layer) (i n : Nat) : Got (List Val) × State :=
  let (rs, s1) := (l.xRuns i n).foldl (fun (acc, s) r =>
    match s.updRead p .bf16 r.1 0 (r.2.1 / 2), acc with
    | (.ok vs, s1), .ok l => (.ok (l ++ [vs]), s1)
    | (.fail c, s1), .ok _ => (.fail c, s1)
    | (.wait, s1), .ok _ => (.wait, s1)
    | _, a => (a, s)) ((.ok [] : Got (List (List Val))), s)
  match rs with
  | .ok runs =>
    let xs := (l.xRuns i n).zip runs
    (.ok ((span i n).map (fun e =>
      if l.cols < l.rows then
        let x := nth ((0, 0, 0), []) xs (e % l.cols)
        nth Val.zero x.2 (e / l.cols - x.1.2.2)
      else nth Val.zero (nth ((0, 0, 0), []) xs 0).2 (e - i))), s1)
  | .fail c => (.fail c, s1)
  | .wait => (.wait, s1)

/-! ### The passes -/

/-- Φ of a two-pass layer's block in pass 2, from the momentum as stored, or from X (R348, R355). -/
def Layer.phi2 (l : Layer) (rs : Val) (vs : List Val) : List (Val × Traps) :=
  if l.ortho then vs.map (fun v => (v, Traps.none)) else vs.map (updPhi l rs)

/-- Pass 2 of one block (R355): its code when it fails. -/
def State.updBlock2 (s : State) (p : Fin 16) (ws : List DWord) (l : Layer) (k : UpdK) (b dl : Nat) (rs : Val) : Option Nat × State :=
  let n := l.blockLen b
  let i := 1024 * b
  let (ms, s1) := if l.ortho then s.updReadX p l i n else s.updRead p (updFmt l.mF) l.m i n
  let (os, s2) := s1.updRead p (updFmt l.wF) l.w i n
  match ms, os with
  | .ok m, .ok w0 =>
    let fw := powT k.d dl
    let w2 := (w0.zip (l.phi2 rs m)).map (fun (w, u) =>
      let (x, t0) := mulT w fw.1
      let (v, t) := updParam k u x
      (v, (t.or t0).or fw.2))
    let (wc, wt) := l.store (updFmt l.wF) (updSeed ws) i w2
    if l.trap && wt then (some cNumericTrap, s2)
    else
      let (r, s3) := s2.updWrite p (updFmt l.wF) l.w i wc
      (r.stop, s3)
  | _, _ => (some ((ms.stop.or os.stop).getD cDataLost), s2)

/-- The sum of squares so far with a block's behind it: the block's tree, then the fold, in the wide form (R251, R252, R356). -/
def addSquares (acc : Val) (ms : List Val) : Val :=
  match chunkTree wadd (ms.map (fun m => some (wmul m m))) with
  | some x => wadd acc x
  | none => acc

/-- The reciprocal square root of the combination (R348, R358). -/
def Layer.scaleFactor (l : Layer) (q : Val) (n : Nat) : Val :=
  let base := if l.ortho then q else fdiv q (Val.ofInt n)
  (fixedEval 9 (fadd base (of32 l.eps))).val

/-! ### ORTHO (R358 to R361) -/

/-- A product of an iteration, steps 1, 3 and 5 of R358: its depth, its columns, and the arrays of its operands. -/
structure Product where
  k : Nat
  cols : Nat
  a : Nat
  b : Nat
deriving DecidableEq, Repr

def Layer.product (l : Layer) (i : Nat) : Product :=
  if i = 0 then ⟨l.nn, l.mm, l.xr, l.xr⟩ else if i = 1 then ⟨l.mm, l.mm, l.ab, l.ab⟩ else ⟨l.mm, l.nn, l.bm, l.xc⟩

/-- Columns of tiles, and tiles, of a product (R358). -/
def Layer.tileCols (l : Layer) (i : Nat) : Nat := ceilDiv (l.product i).cols 128
def Layer.tileCount (l : Layer) (i : Nat) : Nat := ceilDiv l.mm 128 * l.tileCols i

/-- A tile's first row and column, and its rows and columns. -/
def Layer.tilePlace (l : Layer) (i t : Nat) : Nat × Nat × Nat × Nat :=
  let r := 128 * (t / l.tileCols i)
  let c := 128 * (t % l.tileCols i)
  (r, c, min 128 (l.mm - r), min 128 ((l.product i).cols - c))

/-- The engines that the tiles of each product go to, in turn (R360). -/
def Layer.orthoEngines (l : Layer) : List (Nat × Nat) := l.orthoSquares.flatMap (fun q => [(q, 0), (q, 1)])
def Layer.engineOf (l : Layer) (t : Nat) : Nat × Nat := nth (0, 0) l.orthoEngines (t % l.orthoEngines.length)

/-- The staging area of an engine: A, B and C, each row of an operand behind the one before it (R360; DESIGN CHOICE, assumption
137). -/
def Layer.stageAt (l : Layer) (u i : Nat) : Nat := l.spad + u * (512 * l.nn + 65536) + 256 * l.nn * i

/-- A tile as a tile command (R160, R360). -/
def Layer.tileWords (l : Layer) (p : Product) (u rows cols : Nat) : List DWord :=
  let w (n : Nat) : DWord := BitVec.ofNat 64 n
  [w (1 + Fmt.bf16.code * 2 ^ 16 + Fmt.bf16.code * 2 ^ 22 + Fmt.fp32.code * 2 ^ 28 + b01 l.trap * 2 ^ 38 + (rows - 1) * 2 ^ 40
      + (cols - 1) * 2 ^ 48),
    w (p.k - 1), w (l.stageAt u 0 + 2 * p.k * 2 ^ 32), w (l.stageAt u 1 + 2 * p.k * 2 ^ 32), w (l.stageAt u 2 + 512 * 2 ^ 32),
    0, 0, 0, 0, 0, 0, 0]

/-- FP32 values written as BF16, nearest-even, and whether any met a condition. -/
def bf16Codes (vs : List (Val × Traps)) : List Nat × Bool :=
  let x := vs.map (fun v => let (c, t) := Fmt.bf16.toFloat .nearestEven false 0 v.1; (c, (v.2.or t).any))
  (x.map (·.1), x.any (·.2))

/-- The transpose of a matrix of `r` rows and `c` columns, both held by rows. -/
def transposed {α : Type} (d : α) (r c : Nat) (xs : List α) : List α :=
  (List.range c).flatMap (fun j => (List.range r).map (fun i => nth d xs (i * c + j)))

/-- X₀ = M × rs by rows, from the layer's momentum: transposed when ROWS > COLS (R358). -/
def Layer.startX (l : Layer) (ms : List Val) (rs : Val) : List (Val × Traps) :=
  (if l.cols < l.rows then transposed Val.zero l.rows l.cols ms else ms).map (fun m => mulT m rs)

/-- The units' present command. -/
def State.setUpd (s : State) (e : UpdEng) : State := { s with upd := e }

/-- A command's progress: its own, or none yet. -/
def State.updProgress (s : State) (id : Nat) : UpdEng :=
  if s.upd.job = some id then s.upd else { UpdEng.reset with job := some id }

/-- The tiles that wait for their engines are taken back. -/
def State.dropTiles (s : State) (id : Nat) : State :=
  s.setJobs (s.sch.jobs.filter (fun j => !(decide (j.origin = .unit id) && decide (j.phase = .queued))))

/-- The code and block of `UPD_LAST_FAULT`, on the coordinating unit (R364, R372), with the status bits of such an ending (R373). -/
def State.updLastFault (s : State) (code block : Nat) : State :=
  match s.updCoord with
  | none => s
  | some k =>
    let s1 := s.setReg (pgUpd k) R.UPD_LAST_FAULT (word (code * 2 ^ 24 + block))
    let s2 := if code = cAborted then s1 else s1.statusAll (pgUpd k) 6
    if code = cNumericTrap then s2.statusAll (pgUpd k) 7 else s2

/-- A running update command ends (R368, R373). -/
def State.updEnd (s : State) (id code block : Nat) : State :=
  let s1 := (s.endJob id code).dropTiles id
  let s2 := if s1.upd.job = some id then s1.setUpd UpdEng.reset else s1
  if code = cDone then s2 else s2.updLastFault code block

/-- No block. -/
def noBlock : Nat := 0xFFFFFF

/-- A tile command of the units enters an engine's queue (R153, R360). -/
def State.addTile (s : State) (j : Job) (t q u : Nat) (words : List DWord) : State :=
  let e := engineNo tMxe q u
  let beats := (Tile.parse words).cost
  let fs := max (s.now * fluidScale) (s.fluidLast j.tc e)
  let ff := fs + fluidTime beats (s.tc j.tc).uMe
  let k : Job :=
    { id := s.sch.nextJob, part := j.part, ctx := j.ctx, origin := .unit j.id, target := tMxe, square := q, unit := u, tc := j.tc
      body := words, signal := none, promise := 0, beats := beats, fs := fs, ff := ff, phase := .queued, fell := false, prog := [] }
  let s1 := { s with sch := { s.sch with jobs := s.sch.jobs ++ [k], nextJob := k.id + 1 } }.setFluid j.tc e ff
  s1.setUpd { s1.upd with next := t + 1, tiles := s1.upd.tiles ++ [⟨t, k.id, false⟩] }

/-- Sends a tile of the present product: its operands' rows from the work area into the staging area of its engine (R360). Answers the
code of a read or write that fails. -/
def State.sendTile (s : State) (j : Job) (l : Layer) (t : Nat) : Option Nat × State :=
  let p := l.product s.upd.product
  let (q, u) := l.engineOf t
  let (r, c, rows, cols) := l.tilePlace s.upd.product t
  let row := 2 * p.k
  let (a, s1) := s.memRead j.part s.devId.toNat (p.a + row * r) (row * rows)
  let (b, s2) := s1.memRead j.part s1.devId.toNat (p.b + row * c) (row * cols)
  match a, b with
  | .ok x, .ok y =>
    let (ra, s3) := s2.spadWrite q (l.stageAt u 0) x
    let (rb, s4) := s3.spadWrite q (l.stageAt u 1) y
    let s5 := s4.meshTrip none (some q) (meshFlits x.length + meshFlits y.length) 2
    (match ra.stop.or rb.stop with
      | some _ => (some cUnitFault, s5)
      | none => (none, s5.addTile j t q u (l.tileWords p u rows cols)))
  | _, _ => ((a.stop.or b.stop), s2)

/-- Reads a tile's result back from its staging area. -/
def State.readTile (s : State) (l : Layer) (x : UpdTile) : Option Nat × State :=
  let (q, u) := l.engineOf x.num
  let (r, c, rows, cols) := l.tilePlace s.upd.product x.num
  let w := (l.product s.upd.product).cols
  (List.range rows).foldl (fun (bad, s) i =>
    match s.spadRead q (l.stageAt u 2 + 512 * i) (4 * cols) with
    | (.ok bs, s1) =>
      let got := (unpackElems .fp32 cols bs).zipIdx.foldl (fun m (v, k) => m.set (fun _ => 0) ((r + i) * w + c + k) v) s1.upd.got
      (bad, s1.setUpd { s1.upd with got := got })
    | (_, s1) => (some cUnitFault, s1))
    (none, (s.meshTrip none (some q) 1 (meshFlits (4 * rows * cols))).setUpd
      { s.upd with tiles := s.upd.tiles.filter (fun y => y.num ≠ x.num) })

/-- Sends the next tiles, as long as the engine of each has no other (R360). -/
def State.sendTiles (j : Job) (l : Layer) : Nat → State → Option Nat × State
  | 0, s => (none, s)
  | f + 1, s =>
    let n := l.orthoEngines.length
    if l.tileCount s.upd.product ≤ s.upd.next || s.upd.tiles.any (fun x => x.num % n = s.upd.next % n) then (none, s)
    else
      match s.sendTile j l s.upd.next with
      | (some c, s1) => (some c, s1)
      | (none, s1) => State.sendTiles j l f s1

/-- Writes X by rows and by columns (R358). -/
def State.writeX (s : State) (p : Fin 16) (l : Layer) (codes : List Nat) : Option Nat × State :=
  let (r1, s1) := s.updWrite p .bf16 l.xr 0 codes
  let (r2, s2) := s1.updWrite p .bf16 l.xc 0 (transposed 0 l.mm l.nn codes)
  (r1.stop.or r2.stop, s2)

/-- What the units make of a product that they have read back whole, steps 2, 4 and 6 of R358. Answers the code of a failure. -/
def State.orthoWrite (s : State) (p : Fin 16) (l : Layer) : Option Nat × State :=
  let e := s.upd
  let got := (List.range (l.mm * (l.product e.product).cols)).map (fun i => of32 (e.got.get (fun _ => 0) i))
  if e.product = 0 then
    let (codes, t) := bf16Codes (got.map (fun v => (v, Traps.none)))
    if l.trap && t then (some cNumericTrap, s)
    else
      let (r1, s1) := s.updWrite p .fp32 l.af 0 (got.map to32)
      let (r2, s2) := s1.updWrite p .bf16 l.ab 0 codes
      (r1.stop.or r2.stop, s2)
  else if e.product = 1 then
    match s.updRead p .fp32 l.af 0 (l.mm * l.mm) with
    | (.ok af, s1) =>
      let (codes, t) := bf16Codes ((af.zip got).map (fun (a, a2) =>
        let (x, ta) := mulT (of32 l.ob) a
        let (y, tb) := mulT (of32 l.oc) a2
        let (v, tc) := addT x y
        (v, (ta.or tb).or tc)))
      if l.trap && t then (some cNumericTrap, s1)
      else
        let (r, s2) := s1.updWrite p .bf16 l.bm 0 codes
        (r.stop, s2)
    | (r, s1) => (r.stop, s1)
  else
    match s.updRead p .bf16 l.xr 0 (l.mm * l.nn) with
    | (.ok x, s1) =>
      let (codes, t) := bf16Codes ((x.zip got).map (fun (c, p) =>
        let (y, ta) := mulT (of32 l.oa) c
        let (v, tb) := addT y p
        (v, ta.or tb)))
      if l.trap && t then (some cNumericTrap, s1) else s1.writeX p l codes
    | (r, s1) => (r.stop, s1)

/-- The next product begins, or the next iteration, or pass 2 (R355, R358). -/
def UpdEng.nextProduct (e : UpdEng) (l : Layer) : UpdEng :=
  let e1 := { e with next := 0, tiles := [], got := emptyMap }
  if e.product < 2 then { e1 with product := e.product + 1 }
  else if e.iter < l.iter then { e1 with product := 0, iter := e.iter + 1 }
  else { e1 with product := 0, iter := 0, stage := .pass2 }

/-- The matrix phase goes on (R360): completed tiles are read back; a product read back whole is worked on, and the next begins; else
further tiles are sent. -/
def State.orthoStep (s : State) (j : Job) (l : Layer) : State :=
  let (bad, s1) := (s.upd.tiles.filter (·.ready)).foldl (fun (bad, s) x =>
    let (c, s1) := s.readTile l x; (Option.or bad c, s1)) ((none : Option Nat), s)
  let whole := l.tileCount s1.upd.product ≤ s1.upd.next && s1.upd.tiles.isEmpty
  let (c, s2) := if bad.isSome then (bad, s1)
    else if whole then s1.orthoWrite j.part l
    else State.sendTiles j l l.orthoEngines.length s1
  match c with
  | some code => s2.updEnd j.id code noBlock
  | none => if whole then s2.setUpd (s2.upd.nextProduct l) else s2

/-- A tile command has completed (R368): read back later; a failed one ends its update, ABORTED where its own engine ended it so
(DESIGN CHOICE, assumption 138). -/
def State.tileDone (s : State) (parent id code : Nat) : State :=
  if s.upd.job ≠ some parent ∨ ¬ (s.job? parent).any Job.isRunning then s
  else if code = cDone then
    s.setUpd { s.upd with tiles := s.upd.tiles.map (fun x => if x.job = id then { x with ready := true } else x) }
  else s.updEnd parent (if code = cNumericTrap ∨ code = cAborted then code else cUnitFault) noBlock

/-- Reads the whole momentum, block by block: the values, or the code and block of a read that fails. -/
def State.readMomentum (s : State) (p : Fin 16) (l : Layer) : Sum (Nat × Nat) (List Val) × State :=
  (List.range l.blocks).foldl (fun (acc, s) b =>
    match acc, s.updRead p (updFmt l.mF) l.m (1024 * b) (l.blockLen b) with
    | .inr vs, (.ok ms, s1) => (.inr (vs ++ ms), s1)
    | .inr _, (r, s1) => (.inl (r.stop.getD cDataLost, b), s1)
    | .inl e, _ => (.inl e, s)) (.inr [], s)

/-- X₀ is written, and the first iteration begins (R358). -/
def State.orthoStart (s : State) (j : Job) (l : Layer) : State :=
  match s.readMomentum j.part l with
  | (.inl (c, b), s1) => s1.updEnd j.id c b
  | (.inr ms, s1) =>
    let (codes, t) := bf16Codes (l.startX ms s1.upd.factor)
    if l.trap && t then s1.updEnd j.id cNumericTrap noBlock
    else
      match s1.writeX j.part l codes with
      | (some c, s2) => s2.updEnd j.id c noBlock
      | (none, s2) => s2.setUpd { s2.upd with stage := .product, iter := 1 }

/-! ### Running a command -/

/-- The combination (R356): the coordinating unit rounds Q once and shows it, and the reciprocal square root is formed. -/
def State.updCombine (s : State) (l : Layer) : State :=
  let e := s.upd
  let q := rnd32 e.sum
  let s1 := match s.updCoord with
    | some c => s.setReg (pgUpd c) R.UPD_SUMSQ (word (to32 q))
    | none => s
  s1.setUpd { e with stage := if l.ortho then .start else .pass2, factor := l.scaleFactor q e.count, left := e.delta.map (·.1) }

/-- A command goes on to its next boundary (R355, R370): its bitmap, one block of a pass, the combination, X₀, or a part of the matrix
phase. The command ends DONE after the last block of its last pass. -/
def State.updGo (s : State) (j : Job) (l : Layer) : State :=
  let e := s.upd
  let k := updK j.body l
  match e.stage, e.left with
  | .bitmap, _ =>
    (match s.updPresent j.part l with
      | (.inl c, s1) => s1.updEnd j.id c noBlock
      | (.inr bs, s1) => s1.setUpd { e with stage := .pass1, left := bs })
  | .pass1, [] => if l.twoPass then s.setUpd { e with stage := .combine } else s.updEnd j.id cDone noBlock
  | .pass1, b :: t =>
    (match s.updBlock1 j.part j.body l k b with
      | (.inl c, s1) => s1.updEnd j.id c b
      | (.inr (dl, ms), s1) => s1.setUpd { e with
          left := t, delta := e.delta ++ [(b, dl)], sum := if l.twoPass then addSquares e.sum ms else e.sum
          count := e.count + l.blockLen b })
  | .combine, _ => s.updCombine l
  | .start, _ => s.orthoStart j l
  | .product, _ => s.orthoStep j l
  | .pass2, [] => s.updEnd j.id cDone noBlock
  | .pass2, b :: t =>
    (match s.updBlock2 j.part j.body l k b (((e.delta.find? (fun x => x.1 = b)).map (·.2)).getD 0) e.factor with
      | (some c, s1) => s1.updEnd j.id c b
      | (none, s1) => s1.setUpd { e with left := t })

/-- Whether the queue is served at the coordinating unit's page: RUNNING, or draining under `CTRL.DRAIN` 1 (R370). -/
def State.updServes (s : State) (k : Nat) : Bool :=
  s.running (pgUpd k)
  || (decide (s.updCoord = some k) && decide ((s.page (pgUpd k)).st = .draining) && (s.page (pgUpd k)).drain)

/-- Every unit that is fitted and not RETIRED serves (R370). -/
def State.updReady (s : State) : Bool := !s.updStacks.isEmpty && s.updStacks.all s.updServes

/-- Whether a running command of a partition ends at its next boundary: the partition is being torn down (R481), or the coordinating
unit's page drains under `CTRL.DRAIN` 0 (R370). -/
def State.updAborts (s : State) (p : Fin 16) : Bool :=
  (s.part p).st = .teardown || match s.updCoord with
  | some k => decide ((s.page (pgUpd k)).st = .draining) && !(s.page (pgUpd k)).drain
  | none => false

/-- A running command ends ABORTED at a boundary: between blocks, or once no tile command of its runs (R370). -/
def State.updCut (s : State) (id : Nat) : State :=
  if s.sch.jobs.any (fun j => decide (j.origin = .unit id) && j.isRunning) then s.dropTiles id else s.updEnd id cAborted noBlock

/-- Whether every place the command touches is served: the stacks, and for ORTHO the ways to its squares (R108). -/
def State.updServed (s : State) (l : Layer) : Bool :=
  s.sys.variant.stacks.all (fun k => s.running (pgMem k))
  && l.orthoSquares.all (fun q => s.running (pgMesh q))

/-- UPDATE: the running command goes on to its next boundary, or ends there under a drain (R370). A HOST_RULE command waits for the host
(R362). -/
def State.updateStep (s : State) (id : Nat) : State :=
  match s.job? id with
  | none => s
  | some j =>
    if j.target ≠ tUpd ∨ j.phase ≠ .running ∨ j.layer.host then s
    else if s.updAborts j.part then s.updCut id
    else if !s.updServed j.layer then s
    else (s.setUpd (s.updProgress id)).updGo j j.layer

def execUpdate (id : Nat) (s : State) : Host.Outcome State Fault Refusal := done s (s.updateStep id)

/-! ### The HOST_RULE path (R362 to R364) -/

/-- The command whose group is pending, if any. -/
def State.hostJob (s : State) (group : Nat) : Option Job :=
  s.sch.jobs.find? (fun j => decide (j.target = tUpd) && j.isRunning && j.layer.host && decide (j.layer.group = group))

/-- The engine starts its next command: a HOST_RULE command whose group is free, whatever the units do, which sets its
pending bit and HOST_REQ (R362, R363); else, with no other command running and every unit serving, the next of the queue
(R357, R370). -/
def State.updStart (s : State) : State :=
  match s.nextFor 512 (fun j => j.layer.host && (s.hostJob j.layer.group).isNone) with
  | some j =>
    let s1 := s.startJob j.id
    (match s1.updCoord with
      | some k => s1.statusAll (pgUpd k) 4
      | none => s1)
  | none =>
    if s.sch.jobs.any (fun j => decide (j.target = tUpd) && j.isRunning && !j.layer.host) || !s.updReady then s
    else
      match s.nextFor 512 (fun j => !j.layer.host) with
      | some j => s.startJob j.id
      | none => s

/-- HOST_BUDGET_EXPIRY: the group is still pending HOST_BUDGET after the promise (R364). -/
def execHostBudgetExpiry (group : Nat) (s : State) : Host.Outcome State Fault Refusal :=
  done s (match s.hostJob group with
    | none => s
    | some j => ((s.reach (j.promise + j.layer.budget)).updEnd j.id cAborted noBlock))

/-- The host's answer for a group (R362, R363), on the page of unit k; other units ignore it. -/
def State.hostDone (s : State) (p : Fin 16) (k group : Nat) : State :=
  if s.updCoord ≠ some k then s
  else
    match s.hostJob group with
    | none => s.cmdIgnored p (pgUpd k)
    | some j => s.updEnd j.id cDone noBlock

/-- UPD_HOST_DONE: a write of a group to the coordinating unit's register. -/
def execUpdHostDone (r : Req) (v : Word) (s : State) : Host.Outcome State Fault Refusal :=
  done s (match s.updCoord with
    | none => s
    | some k => s.asWrite r (pgUpd k) R.UPD_HOST_DONE false (fun s => s.hostDone (s.reqPart r) k (wbits v 7 0)))

/-- The command that the units run. -/
def State.updJob (s : State) : Option Job := s.sch.jobs.find? (fun j => decide (j.target = tUpd) && j.isRunning && !j.layer.host)

/-- The block that a command's next step of a pass works on. -/
def UpdEng.block (e : UpdEng) : Nat := if e.stage = .pass1 ∨ e.stage = .pass2 then e.left.headD noBlock else noBlock

/-- A parity fault in unit k's lanes or buffers: the running command ends UNIT_FAULT at the block it works on, counted on the unit
(R368, R369). -/
def State.updParity (s : State) (k : Nat) : State :=
  let s1 := match s.updJob with
    | some j => s.updEnd j.id cUnitFault (s.updProgress j.id).block
    | none => s
  s1.countFault (errUpd k) 1

/-- The update queue's abort under `CTRL.DRAIN` = 0 (R370): queued and HOST_RULE commands end at once, the running one at its next
boundary. -/
def State.updAbort (s : State) : State :=
  (s.sch.jobs.filter (fun j => decide (j.target = tUpd) && j.live)).foldl (fun s j =>
    if j.isRunning && !j.layer.host then s.updCut j.id else s.updEnd j.id cAborted noBlock) s

end Sys2Proof.Machine
end

