-- ==== Sys2Proof/Machine/Admit.lean ====
section
/-!
DEFINITION. The context table, time controls and the arithmetic of admission (R330, R375 to R377, R384 to R388, R395,
R396, R432, R433).
-/

namespace Sys2Proof.Machine

open Sys2Proof

/-! ### Contexts and time controls -/

/-- SLOTS of the link reservation (R432). -/
def Tc.slots (t : Tc) : Nat := wbits t.link 5 0

/-- Units that price a command (R387): for ORTHO the smaller of U_UPD and U_ME, every ORTHO square in SQUARES. -/
def Tc.unitsFor (t : Tc) (target square : Nat) (prog : List DWord) : Nat :=
  let l := Layer.parse prog
  if target = tUpd ∧ l.ortho ∧ ¬ l.host then
    (if l.orthoSquares.all t.hasSquare then min t.uUpd t.uMe else 0)
  else t.units target square

/-- LAT of an engine in beats: the largest CMD_LIMIT among the other time controls that hold units on it (R386). -/
def State.latBeats (s : State) (tcn target square : Nat) : Nat :=
  ((s.sch.tcs.keys.filter (fun n => decide (n ≠ tcn) && decide (0 < (s.tc n).units target square))).map
    (fun n => (s.tc n).cmdLimit)).foldl max 0

/-! ### Memory, tag and link terms -/

/-- Granules of one run on one channel, at most (R330). -/
def conc (n nst : Nat) : Nat := ceilDiv (ceilDiv n 128 + 1) nst + 1

/-- The memory time of some runs in whole nanoseconds, rounded up (R330). -/
def memTime (runs : List (Nat × Nat × Bool)) (p nst : Nat) : Nat :=
  let w (r : Nat × Nat × Bool) : Nat := if r.2.2 then 2 else 1
  let spread := (runs.map (fun r => r.1 * w r * r.2.1)).sum
  let worst := (runs.map (fun r => r.1 * w r * conc r.2.1 nst)).sum
  max (ceilDiv (spread * 180000) (p * 128 * nst * 922)) (ceilDiv (worst * 180000) (p * 922)) + 500

/-- Memory transactions of some runs: 128 granules of one run each (R395, R396). -/
def memTags (runs : List (Nat × Nat × Bool)) : Nat := (runs.map (fun r => r.1 * ceilDiv r.2.1 128)).sum

/-- The frame of a link of `lanes` live lanes, as admission counts it (R433). -/
def frameOf (lanes : Nat) : Nat := if lanes = 4 then 622 else if lanes = 3 then 830 else 1244

/-- H and F of a command's destinations (R433); none when an entry has no UP candidate. -/
def State.pathCost (s : State) (dests : List (BitVec 16)) : Option (Nat × Nat) :=
  let es := dests.map s.routeEntry
  let ups := es.map (fun e => (routeCandidates e).filter s.linkUp)
  if ups.any List.isEmpty then none
  else
    let lanes := ups.flatten.map (fun n => (s.link n).lanes)
    some ((es.map routeMaxHops).foldl max 0, frameOf (lanes.foldl min 4))

def linkTime (b slots h f : Nat) : Nat :=
  let p := ceilDiv b 2048
  let n := ceilDiv (b + 32 * p) 1008 + 1
  ceilDiv n slots * f + h * (f + 408)

def linkTagTerm (packets tags h f : Nat) : Nat := ceilDiv packets tags * (2 * h * (f + 408) + 600)

/-! ### Admission (R386) -/

/-- What an accepted command changes: its promise, and the new BUSY values of its engine, of memory and of the links. -/
structure Admission where
  promise : Nat
  busy : Option Nat
  busyMem : Option Nat
  busyLink : Option Nat
deriving DecidableEq, Repr

def State.busyAt (s : State) (tcn e : Nat) : Nat := s.sch.busy.get (fun _ => 0) (tcn * 4096 + e)
def State.busyMemAt (s : State) (tcn : Nat) : Nat := s.sch.busyMem.get (fun _ => 0) tcn
def State.busyLinkAt (s : State) (tcn : Nat) : Nat := s.sch.busyLink.get (fun _ => 0) tcn

/-- R386: the promise of a command of a context at local time `now`, and what its acceptance changes, but for the budget
test. None when the command fails the tests of units, CMD_LIMIT, memory slots, tags or links. -/
def State.admitRaw (s : State) (ctx tcn target square unit : Nat) (prog : List DWord) (c : Cost) (now : Nat) :
    Option Admission :=
  let t := s.tc tcn
  let sch : Bool := target = tSch
  let u := t.unitsFor target square prog
  let e := engineNo target square unit
  let total := c.lbytes.sum
  if !sch && (u = 0 || decide (t.cmdLimit < c.beats)) then none
  else if !c.runs.isEmpty && (t.p = 0 || t.tags = 0) then none
  else if decide (0 < total) && (t.slots = 0 || t.tags = 0) then none
  else
    match (if total = 0 then some (0, 0) else s.pathCost c.dests) with
    | none => none
    | some (h, f) =>
      let ready := max now (s.ctx ctx).promise
      let te := if sch then 0 else ceilDiv (c.beats * 64 * 20) (u * 29)
      let le := if sch then 0 else ceilDiv (s.latBeats tcn target square * 20) 29
      let se := max ready (s.busyAt tcn e)
      let tm := if c.runs.isEmpty then 0 else memTime c.runs t.p s.nStacks
      let sm := max ready (s.busyMemAt tcn)
      let tl := if total = 0 then 0 else (c.lbytes.map (fun b => if b = 0 then 0 else linkTime b t.slots h f)).foldl max 0
      let sl := max ready (s.busyLinkAt tcn)
      let tags := (if c.runs.isEmpty then 0 else ceilDiv (memTags c.runs) t.tags * 600)
        + (if total = 0 then 0 else linkTagTerm ((c.lbytes.map (fun b => ceilDiv b 2048)).sum) t.tags h f)
      let fin := max (max (se + te + le) (if c.runs.isEmpty then 0 else sm + tm))
        (max (if total = 0 then 0 else sl + tl) (ready + tags))
      some ⟨fin + c.ns + 100, some (se + te),
        if c.runs.isEmpty then none else some (sm + tm - 500), if total = 0 then none else some (sl + tl)⟩

/-- Raises a BUSY value; it never falls (R386). -/
def raise (m : FMap Nat) (k : Nat) (v : Option Nat) (more : Nat) : FMap Nat :=
  match v with
  | none => m
  | some t => m.set (fun _ => 0) k (max (m.get (fun _ => 0) k) (t + more))

/-- Enters an acceptance, every BUSY value advanced `more` further (R386, R456), and the context's PROMISE. -/
def State.enterAdmission (s : State) (ctx tcn e : Nat) (a : Admission) (more : Nat) : State :=
  let s1 := { s with sch := { s.sch with
    busy := raise s.sch.busy (tcn * 4096 + e) a.busy more
    busyMem := raise s.sch.busyMem tcn a.busyMem more
    busyLink := raise s.sch.busyLink tcn a.busyLink more } }
  s1.setCtx ctx { s1.ctx ctx with promise := a.promise + more }

end Sys2Proof.Machine
end

