-- ==== Sys2Proof/Machine/Complete.lean ====
section
/-!
DEFINITION. How a command completes (R382, R383, R131), whatever brought it: the completion record or `RESULT`, the context's
tally and state, the signal, and the counts of the SCH page (R400, R401); and shared tallies with their waits (R391 to R394).
-/

namespace Sys2Proof.Machine

open Sys2Proof

/-! ### Pawns and their ports -/

/-- A port's completed command (R130, R382): `RESULT` is filled and PORT_DONE is set. -/
def Pawn.result (w : Pawn) (port : Fin 6) (seq code : Nat) : Pawn :=
  { w with
    ports := setNth w.ports port.val { nth Port.reset w.ports port.val with resultSeq := seq, resultCode := BitVec.ofNat 8 code }
    irqPend := w.irqPend ||| BitVec.ofNat 8 (2 ^ port.val) }

/-! ### Tallies -/

def State.tally (s : State) (n : Nat) : Word := s.sch.tallies.get (fun _ => 0) n

/-- A tally has reached a value (R392). -/
def tallyReached (t v : Word) : Bool := decide ((t - v).toNat < 2 ^ 31)

/-- The waits that a tally's new value releases: the context is ACTIVE again, and its head slot will be admitted at this
local time (R392, R393). -/
def State.releaseWaits (s : State) (n : Nat) : State :=
  let hit (w : Wait) : Bool := decide (w.tally = n) && w.reachedAt.isNone && tallyReached (s.tally n) w.value
  let ctxs := (s.sch.waits.filter hit).map (·.ctx)
  let s1 := { s with sch := { s.sch with
    waits := s.sch.waits.map (fun w => if hit w then { w with reachedAt := some s.now } else w) } }
  ctxs.foldl (fun s c => if (s.ctx c).st = .parked then s.setCtx c { s.ctx c with st := .active } else s) s1

/-- A tally's value alone, with the waits it releases. -/
def State.putTally (s : State) (n : Nat) (v : Word) : State :=
  ({ s with sch := { s.sch with tallies := s.sch.tallies.set (fun _ => 0) n v } }).releaseWaits n

/-- A partition's adjournment before any (R556, R557). -/
def Adj.reset : Adj := ⟨0, 0, .none, [], [], [], 0, 0, 60, 0, none, none, [none, none], [], 0⟩

def State.adjOf (s : State) (p : Fin 16) : Adj := s.rcv.adj.get (fun _ => Adj.reset) p.val

/-- Between saves the Arbiter of a member holds GO_TALLY at STEP_TALLY + 2^30 (R555). -/
def State.holdGo (s : State) (n : Nat) (v : Word) : State :=
  match (if s.rcv.role = .standby ∨ s.rcv.role = .none then none else s.rcv.plan) with
  | none => s
  | some pl => pl.adjs.foldl (fun s a =>
      if a.stepTally = n ∧ (s.adjOf a.part).goAt.isNone then s.putTally a.goTally (v + 0x40000000) else s) s

/-- A tally takes a value (R393). -/
def State.setTally (s : State) (n : Nat) (v : Word) : State := (s.putTally n v).holdGo n v

/-- A tally advances by 1; the change is held while the SCH page is not RUNNING (R401). -/
def State.advanceTally (s : State) (n : Nat) : State :=
  if s.running pgSch then s.setTally n (s.tally n + 1)
  else { s with sch := { s.sch with heldOps := s.sch.heldOps ++ [.tallyAdd n 1] } }

/-- A dropped remote advance (R394, R402, R403). -/
def State.dropSignal (s : State) (p : Packet) (reason : Nat) : State :=
  ((s.bumpB p.part pgStx R.STX_SIG_DROP 1).setRegB p.part pgStx R.STX_LAST_DROP
    (word (reason * 2 ^ 16 + p.src.toNat))).statusOne p.part pgStx 4

/-- A remote advance arrives (R394, R402, R403, R428): held while the STX page is not RUNNING, or for its epoch (R430); dropped and
counted when a check fails; else applied. -/
def State.signalArrives (s : State) (p : Packet) : Verdict × State :=
  if !s.running pgStx then (.held, { s with sch := { s.sch with heldOps := s.sch.heldOps ++ [.signal p] } })
  else
    match (if p.src = s.devId then (.ok, s) else s.epochVerdict p) with
    | (.held, s1) => (.held, s1)
    | (.refused c, s1) => (.refused c, s1.dropSignal p 2)
    | (.ok, s1) =>
      match s1.peerVerdict p with
      | (.refused c, s2) => (.refused c, s2.dropSignal p 1)
      | (_, s2) =>
        let n := bitsOf p.arg.toNat 13 0
        if !s2.holdsTally p.part n then (.refused cPartitionFault, (s2.countDenied p.part p.src.toNat).dropSignal p 3)
        else (.ok, (s2.bumpB p.part pgStx R.STX_SIG_RX 1).advanceTally n)

/-- REMAIN of a packet of a command that leaves now (R423). -/
def State.remainOf (s : State) : Option Nat → Word
  | none => 0xFFFFFFFF
  | some d => word (min (d - s.now) 0xFFFFFFFE)

/-- The signal of a completed command (R382, R394): a tally of this device, or a SIGNAL packet, with the REMAIN of the command's
promise (R423). -/
def State.sendSignal (s : State) (part : Fin 16) (ctx : Nat) (promise : Option Nat) : Option (Nat × Option (BitVec 16)) → State
  | none => s
  | some (n, none) => s.advanceTally n
  | some (n, some dev) =>
    let p := { s.mkPacket ptSignal part dev with
      det := true, stream := BitVec.ofNat 16 ctx, addr := sigAddr, arg := word n, tag := 131071#17, remain := s.remainOf promise }
    let s1 := s.bumpB part pgStx R.STX_SIG_TX 1
    if dev = s.devId then (s1.signalArrives p).2 else (s1.forward p).2

/-! ### Completion -/

/-- Whether a code faults its context (R383). -/
def faults (code : Nat) : Bool :=
  !(code = cDone || code = cRefused || code = cAborted || code = cFlagFallen)

/-- Ring slots of a context (R376). -/
def Ctx.slots (c : Ctx) : Nat := 2 ^ (c.ringLog2 + 4)

/-- HEAD passes a slot (R380). -/
def Ctx.past (c : Ctx) : Ctx := { c with head := (c.head + 1) % c.slots }

/-- The context after a completion (R377, R383). -/
def Ctx.after (c : Ctx) (code : Nat) : Ctx :=
  let live : Bool := c.st = .active || c.st = .parked
  if faults code then (if live || c.st = .stopped then { c with st := .faulted } else c)
  else if code = cAborted then (if live then { c with st := .stopped } else c)
  else if code = cRefused then (if c.st = .active && c.stopOnRefuse then { c with st := .stopped } else c)
  else c

/-- Whether a held command is a slot of a context's ring. -/
def Held.ofRing (h : Held) (ctx : Nat) : Bool :=
  decide (h.ctx = ctx) && (match h.origin with
    | .ring _ => true
    | _ => false)

/-- A slot held before admission is no longer taken: it stays at its context's head, to be taken anew (R377, R380). -/
def State.dropRing (s : State) (c : Nat) : State :=
  { s with sch := { s.sch with held := s.sch.held.filter (fun h => !h.ofRing c) } }

/-- A wait ends when its context no longer waits. -/
def State.dropWaits (s : State) (c : Nat) : State :=
  { s with sch := { s.sch with waits := s.sch.waits.filter (fun w => w.ctx ≠ c) } }

/-- Writes bytes to device memory for the scheduler, or leaves them waiting for their stack (R108). -/
def State.writeOrHold (s : State) (p : Fin 16) (a : Nat) (bs : List Byte) : State :=
  match s.memWriteCells p s.devId.toNat a (bs.map Cell.known) with
  | (.wait, s1) => { s1 with mem := { s1.mem with held := s1.mem.held ++ [⟨p, a, bs.length, some bs⟩] } }
  | (_, s1) => s1

/-- The completion record (R382). -/
def recordBytes (code target seq finish : Nat) : List Byte :=
  leBytes 8 (code + target * 2 ^ 8 + seq % 2 ^ 32 * 2 ^ 32) ++ leBytes 8 finish

/-- Step 1 of R382: the record of a ring slot, or `RESULT` of a port. -/
def State.recordEnd (s : State) (part : Fin 16) (ctx : Nat) (o : Origin) (target code : Nat) : State :=
  match o with
  | .ring slot =>
    let c := s.ctx ctx
    s.writeOrHold part (c.cqBase + 16 * slot) (recordBytes code target (c.ctally.toNat + 1) s.now)
  | .port ph k port seq => s.setPawn ph k.val ((s.pawn ph k.val).result port seq code)
  | _ => s

/-- Steps 1 to 3 of R382, and what the completion does to its context and the SCH page (R383, R401). -/
def State.finishHere (s : State) (part : Fin 16) (ctx : Nat) (o : Origin) (target : Nat)
    (sig : Option (Nat × Option (BitVec 16))) (promise : Option Nat) (code : Nat) : State :=
  let s1 := s.recordEnd part ctx o target code
  let c := s1.ctx ctx
  let c1 : Ctx := { c with ctally := c.ctally + 1, lastCode := BitVec.ofNat 8 code }
  let s2 := s1.setCtx ctx (c1.after code)
  let s3 := if code = cDone ∨ code = cFlagFallen then s2.sendSignal part ctx promise sig else s2
  let s4 := if c.intOnComplete then s3.statusOne part pgSch 7 else s3
  let s5 := if code = cRefused then (s4.bumpB part pgSch R.SCH_REFUSED 1).statusOne part pgSch 6 else s4
  let s6 := if (c1.after code).st = .faulted ∧ c.st ≠ .faulted then
    (s5.setRegB part pgSch R.SCH_FAULT_CTX (word (code * 2 ^ 24 + ctx))).statusOne part pgSch 5 else s5
  if (c1.after code).st = .faulted ∨ (c1.after code).st = .stopped then (s6.dropWaits ctx).dropRing ctx else s6

/-- A completion, unless the context has passed to another holder in the meantime (R480, R481): then only a port's `RESULT`
tells of it. -/
def State.finish (s : State) (part : Fin 16) (ctx : Nat) (o : Origin) (target : Nat)
    (sig : Option (Nat × Option (BitVec 16))) (promise : Option Nat) (code : Nat) : State :=
  if s.ctxPart ctx = part then s.finishHere part ctx o target sig promise code
  else
    match o with
    | .port .. => s.recordEnd part ctx o target code
    | _ => s

/-! ### Recording (R398) -/

def Seg.reset : Seg := ⟨false, false, false, 0, 0, 0, 0⟩

def State.seg (s : State) (n : Nat) : Seg := s.sch.segs.get (fun _ => Seg.reset) n

def State.setSeg (s : State) (n : Nat) (x : Seg) : State :=
  { s with sch := { s.sch with segs := s.sch.segs.set (fun _ => Seg.reset) n x } }

/-- The words as bytes. -/
def wordBytes (ws : List DWord) : List Byte := ws.flatMap (fun w => leBytes 8 w.toNat)

/-- Copies an admitted ring slot into the segment open on its context, or marks the segment OVERFLOW (R398). -/
def State.recordSlot (s : State) (part : Fin 16) (ctx : Nat) (ws : List DWord) : State :=
  let c := s.ctx ctx
  if ws.isEmpty || !c.segOpen then s
  else
    let g := s.seg c.seg
    if g.count < g.cap then
      (s.writeOrHold part (g.base + 256 * g.count) (wordBytes ws)).setSeg c.seg { g with count := g.count + 1 }
    else s.setSeg c.seg { g with overflow := true }

/-- A command outside any held context completes at once: a port's command that names a context of another partition, or
one whose context takes no commands (R131, R375, R381). Only `RESULT` tells of it. -/
def State.finishPort (s : State) (o : Origin) (code : Nat) : State := s.recordEnd 0 0 o 0 code

end Sys2Proof.Machine
end

