-- ==== Sys2Proof/Machine/ColCmd.lean ====
section
/-!
DEFINITION. Collective commands and groups (R447 to R453, R466): fields, validation, the tree, price and reduction
arithmetic.
-/

namespace Sys2Proof.Machine

open Sys2Proof

/-! ### Groups -/

def Grp.reset : Grp := ⟨0, 0, 0, false, 0, 0, []⟩

def State.grp (s : State) (n : Nat) : Grp := s.col.groups.get (fun _ => Grp.reset) n

def State.setGrp (s : State) (n : Nat) (g : Grp) : State :=
  { s with col := { s.col with groups := s.col.groups.set (fun _ => Grp.reset) n g } }

/-- The tree width of a code (R447). -/
def Grp.w (g : Grp) : Nat := 2 * 2 ^ g.width

/-- The device of a rank, and the rank of a device. -/
def Grp.dev (g : Grp) (r : Nat) : BitVec 16 := BitVec.ofNat 16 (nth (0, 0) g.ids r).1
def Grp.ctxOf (g : Grp) (r : Nat) : Nat := (nth (0, 0) g.ids r).2
def Grp.rankOf (g : Grp) (d : BitVec 16) : Option Nat := findIdxFrom (fun e => decide (e.1 = d.toNat)) 0 g.ids

/-- The other ranks. -/
def Grp.others (g : Grp) : List Nat := (List.range g.size).filter (· ≠ g.rank)

/-! ### The tree (R453, R460) -/

/-- Nodes of a level: level 0 is the ranks. -/
def treeLen (n w : Nat) : Nat → Nat
  | 0 => n
  | l + 1 => ceilDiv (treeLen n w l) w

/-- Levels above the ranks: the least D with W^D at least N. -/
def treeDepth (n w : Nat) : Nat := ((List.range 15).find? (fun d => decide (n ≤ w ^ d))).getD 15

/-- The children of node (l, b), as blocks of level l − 1. -/
def treeChildren (n w l b : Nat) : List Nat := (span (b * w) w).filter (fun c => decide (c < treeLen n w (l - 1)))

/-- The rank that bears node (l, b) of chunk c; level 0 is the ranks themselves. -/
def treeHome (n w c l b : Nat) : Nat := if l = 0 then b else (b * w ^ l + c) % n

/-- The children to whom member x of a tree relabelled to its owner (0) sends a DOWN stream onward: the first leaves of
the sibling blocks below every node it bears. -/
def downTo (n w x : Nat) : List Nat :=
  ((List.range (treeDepth n w)).reverse.filter (fun l => x % w ^ (l + 1) = 0)).flatMap (fun l =>
    (span 1 (w - 1)).map (fun i => x + i * w ^ l) |>.filter (fun y => decide (y < n)))

/-! ### The command (R449) -/

structure ColCmd where
  op : Nat
  redOp : Nat
  fmt : Nat
  pf : Nat
  wire : Bool
  round : Nat
  sat : Bool
  trap : Bool
  grp : Nat
  root : Nat
  count : Nat
  src : Nat
  dst : Nat
  aux : Nat
  cap : Nat
  seed : DWord
deriving DecidableEq, Repr

def ColCmd.parse (ws : List DWord) : ColCmd :=
  let w0 := wd ws 0
  ⟨bitsOf w0 7 0, bitsOf w0 10 8, bitsOf w0 15 11, bitsOf w0 20 16, bitOf w0 21, bitsOf w0 23 22, bitOf w0 24,
    bitOf w0 25, bitsOf w0 41 32, bitsOf w0 55 42, bitsOf (wd ws 1) 39 0, bitsOf (wd ws 2) 47 0, bitsOf (wd ws 3) 47 0,
    bitsOf (wd ws 4) 47 0, bitsOf (wd ws 5) 39 0, nth 0#64 ws 6⟩

/-- Opcodes (R450). -/
def cAllGather : Nat := 1
def cReduceScatter : Nat := 2
def cAllReduce : Nat := 3
def cBroadcast : Nat := 4
def cReduce : Nat := 5
def cAllToAll : Nat := 6
def cAllToAllv : Nat := 7
def cBarrier : Nat := 8

def ColCmd.reduces (c : ColCmd) : Bool := c.op = cReduceScatter || c.op = cAllReduce || c.op = cReduce
def ColCmd.rooted (c : ColCmd) : Bool := c.op = cBroadcast || c.op = cReduce
def ColCmd.f (c : ColCmd) : Fmt := (Fmt.ofCode c.fmt).getD .fp32
def ColCmd.p (c : ColCmd) : Fmt := (Fmt.ofCode c.pf).getD .fp32
def ColCmd.rnd (c : ColCmd) : Rnd := (Rnd.ofCode c.round).getD .nearestEven

/-- Bytes of `n` elements of source or destination (R451): under WIRE a scaled tensor is whole units of R50, and an unscaled
one has its stored layout (R52), of 4-bit elements in whole units of 256. -/
def ColCmd.bytes (c : ColCmd) (n : Nat) : Nat :=
  if c.wire && c.f.mayScale then ceilDiv n 256 * wireBytes c.f 8
  else if c.f.subByte then ceilDiv n 256 * (32 * c.f.width)
  else n * (c.f.width / 8)

/-- The format in which partial results travel: PART_FMT, or FP32 where a BF16 partial would narrow a source that no op has
yet rounded (R453). -/
def ColCmd.transit (c : ColCmd) : Fmt := if c.p = .bf16 && c.f ≠ .bf16 then .fp32 else c.p

/-- Bytes of `n` elements in transit, as priced (R466). -/
def ColCmd.priceBytes (c : ColCmd) (n : Nat) : Nat := if c.reduces then n * (c.p.width / 8) else c.bytes n

/-- Bits that no field uses, and fields that the opcode does not use (R449). -/
def ColCmd.unusedOk (ws : List DWord) (c : ColCmd) : Bool :=
  bitsOf (wd ws 0) 31 26 = 0 && bitsOf (wd ws 0) 63 56 = 0 && bitsOf (wd ws 1) 63 40 = 0
  && [2, 3, 4].all (fun i => bitsOf (wd ws i) 63 48 = 0) && bitsOf (wd ws 5) 63 40 = 0
  && (c.rooted || c.root = 0)
  && (c.op = cAllToAllv || (c.aux = 0 && c.cap = 0))
  && (c.reduces || (c.redOp = 0 && c.pf = 0 && c.round = 0 && !c.sat && !c.trap && c.seed = 0))
  && (!(c.op = cAllToAllv || c.op = cBarrier) || c.count = 0)
  && (c.op ≠ cBarrier || (c.fmt = 0 && !c.wire && c.src = 0 && c.dst = 0))

/-- The formats of R451. -/
def ColCmd.formatsOk (c : ColCmd) : Bool :=
  if c.reduces then
    !c.wire && (match Fmt.ofCode c.fmt, Fmt.ofCode c.pf with
      | some .i32, some .i32 => true
      | some f, some p => (f = .fp32 || f = .bf16 || f = .fp16) && (p = .fp32 || p = .bf16)
      | _, _ => false)
  else
    match Fmt.ofCode c.fmt with
    | none => false
    | some f => if c.wire && (f.mayScale || f.subByte) then c.op = cAllToAllv || c.count % 256 = 0
      else c.wire || !f.subByte

def ColCmd.encodingOk (ws : List DWord) (c : ColCmd) : Bool :=
  ws.length = 7 && decide (1 ≤ c.op) && decide (c.op ≤ 8) && decide (c.redOp ≤ 2) && decide (c.round ≤ 2)
  && c.unusedOk ws && c.formatsOk

/-- Elements of this member's source and destination (R450); the source of ALL_TO_ALLV is sized by its counts. -/
def ColCmd.srcElems (c : ColCmd) (g : Grp) : Nat :=
  if c.op = cReduceScatter ∨ c.op = cAllToAll then g.size * c.count
  else if c.op = cBroadcast then (if g.rank = c.root then c.count else 0)
  else if c.op = cAllToAllv ∨ c.op = cBarrier then 0
  else c.count

def ColCmd.dstElems (c : ColCmd) (g : Grp) : Nat :=
  if c.op = cAllGather ∨ c.op = cAllToAll then g.size * c.count
  else if c.op = cReduce then (if g.rank = c.root then c.count else 0)
  else if c.op = cAllToAllv then c.cap
  else if c.op = cBarrier then 0
  else c.count

/-- R452, in order: encodings, the group, the group's bounds and overlap, the addresses. -/
def State.colValidate (s : State) (p : Fin 16) (ws : List DWord) : Option Nat :=
  let c := ColCmd.parse ws
  let g := s.grp c.grp
  let sn := c.bytes (c.srcElems g)
  let dn := c.bytes (c.dstElems g)
  let place (a n : Nat) : Bool := n = 0 || s.localAllowed p a n
  if !c.encodingOk ws then some cBadDescriptor
  else if !s.holdsGrp p c.grp || !g.valid then some cPartitionFault
  else if (c.rooted && decide (g.size ≤ c.root))
      || (c.op ≠ cAllToAllv && c.op ≠ cBarrier && c.count = 0)
      || (c.op = cAllToAllv && decide (256 < g.size))
      || (runsMeet c.src sn c.dst dn && !(c.op = cAllReduce && c.src = c.dst)) then some cBadDescriptor
  else if !(place c.src sn && place c.dst dn && (c.op ≠ cAllToAllv || place c.aux (8 * g.size))) then some cPartitionFault
  else none

/-! ### Chunks -/

/-- The chunks that travel: one a rank, or ROOT's alone. -/
def ColCmd.chunkIds (c : ColCmd) (g : Grp) : List Nat :=
  if c.rooted then [c.root] else if c.op = cBarrier then [] else List.range g.size

/-- Elements of a chunk (R450). -/
def ColCmd.chunkLen (c : ColCmd) (g : Grp) (k : Nat) : Nat :=
  if c.op = cAllReduce then
    let n := ceilDiv c.count g.size
    min n (c.count - k * n)
  else c.count

/-- The first element of a chunk within a buffer of all chunks. -/
def ColCmd.chunkStart (c : ColCmd) (g : Grp) (k : Nat) : Nat :=
  if c.rooted then 0 else if c.op = cAllReduce then k * ceilDiv c.count g.size else k * c.count

/-- Bytes of a chunk in transit. -/
def ColCmd.chunkBytes (c : ColCmd) (g : Grp) (k : Nat) : Nat :=
  if c.reduces then c.chunkLen g k * (c.transit.width / 8) else c.bytes (c.chunkLen g k)

/-- The nodes of a chunk that this member combines: level and block. -/
def ColCmd.myNodes (c : ColCmd) (g : Grp) (k : Nat) : List (Nat × Nat) :=
  if !c.reduces then []
  else (span 1 (treeDepth g.size g.w)).flatMap (fun l =>
    ((List.range (treeLen g.size g.w l)).filter (fun b => treeHome g.size g.w k l b = g.rank)).map (fun b => (l, b)))

/-! ### The price (R466) -/

/-- Bytes with the payload prefix of R459. -/
def padBytes (b : Nat) : Nat := b + 16 * ceilDiv b 2032

/-- Candidate 0 of a route entry, if it is valid (R444). -/
def State.candidate0 (s : State) (d : BitVec 16) : Option Nat :=
  let e := s.routeEntry d
  if bitOf e 6 then some (bitsOf e 5 0) else none

/-- Bytes sent to peer r (R466). -/
def ColCmd.sentTo (c : ColCmd) (g : Grp) (counts : List Nat) (r : Nat) : Nat :=
  if c.op = cAllReduce then 2 * c.priceBytes (ceilDiv c.count g.size)
  else if c.op = cBroadcast then (if g.rank = c.root then c.priceBytes c.count else 0)
  else if c.op = cReduce then (if r = c.root then c.priceBytes c.count else 0)
  else if c.op = cAllToAllv then c.bytes (nth 0 counts r)
  else if c.op = cBarrier then 0
  else c.priceBytes c.count

/-- T of R466. -/
def ColCmd.total (c : ColCmd) (g : Grp) : Nat :=
  if c.op = cAllReduce then 2 * c.priceBytes c.count
  else if c.op = cBroadcast ∨ c.op = cReduce then c.priceBytes c.count
  else if c.op = cBarrier then 0
  else g.size * c.priceBytes c.count

/-- Adds bytes to a link's sum. -/
def addTo (m : List (Nat × Nat)) (k b : Nat) : List (Nat × Nat) :=
  if m.any (fun x => x.1 = k) then m.map (fun x => if x.1 = k then (k, x.2 + b) else x) else m ++ [(k, b)]

/-- The member toward whom a deep tree's traffic is priced: the home of its first node borne elsewhere. -/
def Grp.parent (g : Grp) : Nat :=
  (((span 1 (treeDepth g.size g.w)).map (fun l => g.rank / g.w ^ l * g.w ^ l)).find? (· ≠ g.rank)).getD
    (nth 0 g.others 0)

/-- L[k] of R466, one entry a link. -/
def State.colLinks (s : State) (c : ColCmd) (g : Grp) (counts : List Nat) : List Nat :=
  let d := treeDepth g.size g.w
  if d ≤ 1 ∨ c.op = cAllToAll ∨ c.op = cAllToAllv then
    (g.others.foldl (fun m r => addTo m ((s.candidate0 (g.dev r)).getD 64) (padBytes (c.sentTo g counts r))) []).map (·.2)
  else [padBytes (2 * d * (g.w - 1) * c.total g)]

/-- G of R455: 2 × D × H × (F + 408). -/
def roundBound (d h f : Nat) : Nat := 2 * d * h * (f + 408)

/-- G of a group, if every route has an UP candidate. -/
def State.colG (s : State) (g : Grp) : Option Nat :=
  (s.pathCost (g.others.map g.dev)).map (fun (h, f) => roundBound (treeDepth g.size g.w) h f)

/-- Bytes this device's nodes combine, their children's streams taken together (R466, R470). -/
def ColCmd.combined (c : ColCmd) (g : Grp) : Nat :=
  ((c.chunkIds g).map (fun k => ((c.myNodes g k).map (fun (l, b) =>
    (treeChildren g.size g.w l b).length * c.priceBytes (c.chunkLen g k))).sum)).sum

/-- `col_cost` (R466); none when a route has no UP candidate (R433). -/
def State.colCost (s : State) (p : Fin 16) (c : ColCmd) (g : Grp) (counts : List Nat) : Option Cost :=
  match s.colG g with
  | none => none
  | some bound =>
    let sb := if c.op = cAllToAllv then c.bytes counts.sum else c.bytes (c.srcElems g)
    let db := c.bytes (c.dstElems g)
    let run (a n : Nat) (wr : Bool) : List (Nat × Nat × Bool) :=
      if n = 0 || decide (s.memSize ≤ a) then [] else [(1, ceilDiv n 64 + 1, wr)]
    let beats := 128 + 32 + ceilDiv (sb + db) (64 * s.meshSlots p) + 48
    some ⟨withMargin beats, bound + ceilDiv (c.combined g) 1792 + 17, run c.src sb false ++ run c.dst db true,
      s.colLinks c g counts, g.others.map g.dev⟩

/-! ### Reduction arithmetic (R453) -/

/-- One op, its result rounded to PART_FMT with nearest-even. -/
def ColCmd.op2 (c : ColCmd) (a b : Val) : Val × Traps :=
  if c.p = .i32 then
    if c.redOp = 0 then
      let (code, t) := Fmt.i32.toInt .nearestEven 0 (a.add b)
      (Fmt.i32.decode code, t)
    else if c.redOp = 1 then (a.max b, Traps.none)
    else (a.min b, Traps.none)
  else
    let (v, t) : Val × Traps :=
      if c.redOp = 0 then (fadd a b, opTraps [a, b] (a.add b) (fadd a b))
      else if c.redOp = 1 then (a.max b, Traps.none)
      else (a.min b, Traps.none)
    let (w, t2) := c.p.convert .nearestEven false 0 v
    (c.p.decode w, t.or t2)

/-- The result of a node over its children, in order, with the conditions it meets. -/
def ColCmd.combine (c : ColCmd) : List Val → Val × Traps
  | [] => (Val.zero, Traps.none)
  | v :: vs => vs.foldl (fun (acc, t) x => let (y, t2) := c.op2 acc x; (y, t.or t2)) (v, Traps.none)

/-- A node's result over its children's pieces, element by element. -/
def ColCmd.combineBytes (c : ColCmd) (pieces : List (List Byte)) : List Byte × Bool :=
  let f := c.transit
  let n := (pieces.headD []).length / (f.width / 8)
  let cols := pieces.map (fun bs => (unpackElems f n bs).map f.decode)
  let outs := (List.range n).map (fun i => c.combine (cols.map (fun col => nth Val.zero col i)))
  (packElems f (outs.map (fun o => (f.convert .nearestEven false 0 o.1).1)), outs.any (fun o => o.2.any))

/-- The destination's bytes of a piece of a final result, from element `i0` of the whole logical result (R453). -/
def ColCmd.deliver (c : ColCmd) (i0 : Nat) (bs : List Byte) : List Byte × Bool :=
  let f := c.transit
  let n := bs.length / (f.width / 8)
  let outs := ((unpackElems f n bs).map f.decode).zipIdx.map (fun (v, i) =>
    c.f.convert c.rnd c.sat (if c.rnd = Rnd.stochastic then srBits c.seed (i0 + i) else 0) v)
  (packElems c.f (outs.map (·.1)), outs.any (fun o => o.2.any))

/-- A source's elements in transit form: widened exactly (R39). -/
def ColCmd.widen (c : ColCmd) (n : Nat) (bs : List Byte) : List Byte :=
  packElems c.transit (((unpackElems c.f n bs).map c.f.decode).map (fun v => (c.transit.convert .nearestEven false 0 v).1))

end Sys2Proof.Machine
end

