-- ==== Sys2Proof/Machine/Collective.lean ====
section
/-!
DEFINITION. Collectives among the members of a group (R455 to R465, R469, R471): joining, the joint admission, the traffic
and its combination in the tree, and how a collective ends.
-/

namespace Sys2Proof.Machine

open Sys2Proof

/-! ### The engine's collectives -/

def State.colls (s : State) : List Coll := s.col.colls

def State.setColls (s : State) (cs : List Coll) : State := { s with col := { s.col with colls := cs } }

def State.coll? (s : State) (job : Nat) : Option Coll := s.colls.find? (fun c => c.job = job)

def State.modColl (s : State) (job : Nat) (f : Coll → Coll) : State :=
  s.setColls (s.colls.map (fun c => if c.job = job then f c else c))

/-- Whether a command is a collective that has not been accepted: it joins, and is not yet admitted (R455). -/
def State.joins (s : State) (id : Nat) : Bool := s.colls.any (fun c => decide (c.job = id) && decide (c.phase ≠ .accepted))

/-- The command of a collective. -/
def State.colCmd (s : State) (co : Coll) : ColCmd :=
  match s.job? co.job with
  | some j => ColCmd.parse j.body
  | none => ColCmd.parse []

/-- Whether the COL page serves collectives: RUNNING, or draining to their end (R465). -/
def State.colServes (s : State) : Bool :=
  let p := s.page pgCol
  p.st = .running || (p.st = .draining && p.drain)

/-- A status bit of the COL page in a partition's bank. -/
def State.colStatus (s : State) (p : Fin 16) (bit : Nat) : State := s.statusOne p pgCol bit

/-! ### Packets (R459) -/

def kJoin : Nat := 0
def kOffer : Nat := 1
def kUp : Nat := 2
def kDown : Nat := 3
def kPeer : Nat := 4
def kAbort : Nat := 5

/-- The level that marks the completed join round on its way back to the members. -/
def joinedLevel : Nat := 15

/-- The tag of packets that hold no transaction. -/
def colTag : BitVec 17 := 131071

/-- The 16-byte prefix. -/
def colPrefix (kind level chunk offset : Nat) : List Byte :=
  leBytes 4 (kind + level * 2 ^ 4 + chunk * 2 ^ 8) ++ leBytes 8 offset ++ leBytes 4 0

def colKind (p : Packet) : Nat := bitsOf (leNat (p.payload.take 4)) 3 0
def colLevel (p : Packet) : Nat := bitsOf (leNat (p.payload.take 4)) 7 4
def colChunk (p : Packet) : Nat := bitsOf (leNat (p.payload.take 4)) 21 8
def colOffset (p : Packet) : Nat := leNat ((p.payload.drop 4).take 8)
def colData (p : Packet) : List Byte := p.payload.drop 16
def colGroup (p : Packet) : Nat := bitsOf p.arg.toNat 9 0
def colSeq (p : Packet) : Nat := bitsOf p.arg.toNat 31 10

/-- A packet of a collective. -/
def State.colPacket (s : State) (co : Coll) (dst : BitVec 16) (kind level chunk offset : Nat) (bs : List Byte) : Packet :=
  let (ctx, promise) := match s.job? co.job with
    | some j => (j.ctx, if co.phase = .accepted then some j.promise else none)
    | none => (0, none)
  { withPayload (s.mkPacket ptCollective co.part dst) (colPrefix kind level chunk offset ++ bs) with
    det := true, stream := BitVec.ofNat 16 ctx, tag := colTag, arg := word (co.grp + co.seq * 2 ^ 10)
    remain := s.remainOf promise }

/-- Sends a packet of a collective to a rank; what is for this member itself joins the packets to be taken. Answers whether
it could leave. -/
def State.colSend (s : State) (job : Nat) (r kind level chunk offset : Nat) (bs : List Byte) : Bool × State :=
  match s.coll? job with
  | none => (true, s)
  | some co =>
    let g := s.grp co.grp
    if r = g.rank then
      let p := s.colPacket co s.devId kind level chunk offset bs
      (true, s.modColl job (fun c => { c with early := c.early ++ [p] }))
    else s.forward (s.colPacket co (g.dev r) kind level chunk offset bs)

/-- A message to send: rank, kind, level, chunk, offset, data. -/
structure ColMsg where
  dest : Nat
  kind : Nat
  level : Nat
  chunk : Nat
  offset : Nat
  bytes : List Byte
deriving DecidableEq, Repr

/-- Sends messages in order; the answer tells whether all could leave. -/
def State.colSendAll (s : State) (job : Nat) (ms : List ColMsg) : Bool × State :=
  ms.foldl (fun (ok, s) m => let (k, s1) := s.colSend job m.dest m.kind m.level m.chunk m.offset m.bytes; (ok && k, s1)) (true, s)

/-- The pieces of a chunk's stream to one rank (R459). -/
def colPieces (dest kind level chunk : Nat) (bs : List Byte) : List ColMsg :=
  (chunks 2032 bs).zipIdx.map (fun (b, i) => ⟨dest, kind, level, chunk, 2032 * i, b⟩)

/-! ### Endings (R456, R458, R464, R471) -/

/-- A context whose collective has been decided is no longer parked by it, and HEAD passes the slot (R380, R455). -/
def State.colUnpark (s : State) (j : Job) : State :=
  match j.origin with
  | .ring _ =>
    let c := s.ctx j.ctx
    let c1 := c.past
    s.setCtx j.ctx (if c.st = .parked then { c1 with st := .active } else c1)
  | _ => s

/-- Removes a collective, its node buffers and the packets kept for it (R461). -/
def State.colRemove (s : State) (co : Coll) : State :=
  { s with col := { s.col with
    colls := s.col.colls.filter (fun c => c.job ≠ co.job)
    held := s.col.held.filter (fun p => !(colGroup p = co.grp && colSeq p = co.seq && p.part = co.part)) } }

/-- Ends the command of a collective. One that was never accepted completes at once (R382). -/
def State.colEndJob (s : State) (co : Coll) (code : Nat) : State :=
  match s.job? co.job with
  | none => s
  | some j =>
    match co.phase, j.origin with
    | .accepted, _ => s.endJob co.job code
    | _, .replay _ => s.endJob co.job code
    | _, o =>
      let s1 := (s.colUnpark j).setJobs (s.sch.jobs.filter (fun k => k.id ≠ co.job))
      s1.finish j.part j.ctx o tCol j.signal none code

/-- `COL_LAST_FAULT`, CMD_FAULT and PEER_ABORT (R470, R471). -/
def State.colFaultRegs (s : State) (p : Fin 16) (code rank grp : Nat) (peer : Bool) : State :=
  let s1 := s.setRegB p pgCol R.COL_LAST_FAULT (word (code * 2 ^ 24 + rank * 2 ^ 10 + grp))
  let s2 := if code = cRefused ∨ code = cAborted then s1 else s1.colStatus p 4
  if peer then s2.colStatus p 5 else s2

/-- A collective's end with a code other than DONE, found by `rank`. `tell` sends ABORT to every member (R464); an
accepted collective leaves its destination unspecified. -/
def State.colEnd (s : State) (job code rank : Nat) (tell peer : Bool) : State :=
  match s.coll? job with
  | none => s
  | some co =>
    let g := s.grp co.grp
    let s1 := if tell then
        (s.colSendAll job (g.others.map (fun r => ⟨r, kAbort, 0, 0, 0, [BitVec.ofNat 8 code]⟩))).2
      else s
    let c := s1.colCmd co
    let (n, s2) := s1.fresh
    let s3 := if co.phase = .accepted then s2.openLocal n c.dst (c.bytes (c.dstElems g)) else s1
    ((s3.colRemove co).colEndJob co code).colFaultRegs co.part code rank co.grp peer

/-- A failure that this member detects (R464). -/
def State.colFail (s : State) (job code : Nat) : State :=
  match s.coll? job with
  | none => s
  | some co => s.colEnd job code (s.grp co.grp).rank true false

/-- Sends messages; a member that cannot be reached ends the collective LINK_DOWN (R429, R464). -/
def State.colSendOrFail (s : State) (job : Nat) (ms : List ColMsg) : State :=
  let (ok, s1) := s.colSendAll job ms
  if ok then s1 else s1.colFail job cLinkDown

/-! ### Joining (R455, R457) -/

/-- Whether node (l, b) of the join tree has heard from everything below it. -/
def colNodeJoined (n w : Nat) (joined : List (Nat × Nat)) : Nat → Nat → Bool
  | 0, _ => true
  | l + 1, b =>
    colNodeJoined n w joined l (b * w)
    && (treeChildren n w (l + 1) b).all (fun c => c = b * w || joined.contains (l + 1, c))

/-- The highest node that this member bears in the join tree (chunk 0): its level and block. -/
def colTop (n w rank : Nat) : Nat × Nat :=
  let l := (((span 0 (treeDepth n w + 1)).filter (fun l => rank % w ^ l = 0)).getLast?).getD 0
  (l, rank / w ^ l)

/-- The counts of an ALL_TO_ALLV (R463). -/
def Offer.count (o : Offer) (r : Nat) : Int := signed 32 (nth 0 o.counts r).toNat

/-- An OFFER's data: d (all ones for ∞), the budget, the command's body, the counts. -/
def Offer.encode (o : Offer) : List Byte :=
  leBytes 8 (o.d.getD (2 ^ 64 - 1)) ++ leBytes 8 o.budget ++ wordBytes o.body ++ o.counts.flatMap (fun w => leBytes 4 w.toNat)

def Offer.decode (rank : Nat) (bs : List Byte) : Offer :=
  let d := leNat (bs.take 8)
  ⟨rank, if d = 2 ^ 64 - 1 then none else some d, leNat ((bs.drop 8).take 8),
    (chunks 8 ((bs.drop 16).take 56)).map (fun b => BitVec.ofNat 64 (leNat b)),
    (chunks 4 (bs.drop 72)).map (fun b => word (leNat b))⟩

/-- Reads this member's send counts, for the command that has them (R463). -/
def State.colCounts (s : State) (co : Coll) (c : ColCmd) : Got (List Word) × State :=
  if c.op ≠ cAllToAllv then (.ok [], s)
  else
    match s.localRead co.part none s.devId.toNat c.aux (4 * (s.grp co.grp).size) with
    | (.ok bs, s1) => (.ok ((chunks 4 bs).map (fun b => word (leNat b))), s1)
    | (.fail k, s1) => (.fail k, s1)
    | (.wait, s1) => (.wait, s1)

/-- Step 3 of R455: this member prices its command at g, and sends its OFFER to every member. A recorded command of a replay has
been priced with it (R399): it offers what is left until its promise, and no budget of its own binds it (DEDUCED, assumption
133). -/
def State.colOffer (s : State) (job : Nat) : State :=
  match s.coll? job, s.job? job with
  | some co, some j =>
    let c := ColCmd.parse j.body
    let g := s.grp co.grp
    match s.colCounts co c with
    | (.wait, _) => s
    | (.fail k, s1) => s1.colFail job k
    | (.ok counts, s1) =>
      let cost := s1.colCost co.part c g (counts.map (fun w => w.toNat % 2 ^ 31))
      let adm := match cost with
        | none => none
        | some x => s1.admitRaw j.ctx j.tc tCol 0 0 [] x co.g
      let d := if j.replayOf.isSome then cost.map (fun _ => j.promise - co.g) else adm.map (fun a => a.promise - co.g)
      let o : Offer := ⟨g.rank, d, co.budget, j.body, counts⟩
      let s2 := s1.modColl job (fun k => { k with
        phase := .offering, d := o.d, offers := k.offers ++ [o], bound := (s1.colG g).getD 0
        beats := (cost.map (·.beats)).getD 0
        busy := adm.bind (·.busy), busyMem := adm.bind (·.busyMem), busyLink := adm.bind (·.busyLink) })
      s2.colSendOrFail job (g.others.map (fun r => ⟨r, kOffer, 0, 0, 0, o.encode⟩))
  | _, _ => s

/-- Whether OFFERs agree in every field that must agree (R456). -/
def offersAgree (os : List Offer) : Bool :=
  match os with
  | [] => true
  | o :: t => t.all (fun x => nth 0#64 x.body 0 = nth 0#64 o.body 0 && nth 0#64 x.body 1 = nth 0#64 o.body 1
      && nth 0#64 x.body 6 = nth 0#64 o.body 6)

/-- What rank `r` receives in all (R463). -/
def received (os : List Offer) (r : Nat) : Int := (os.map (fun o => o.count r)).sum

/-- Whether some member's receive total exceeds its DST_CAP; a negative count fails the same way. -/
def countsOverflow (os : List Offer) : Bool :=
  os.any (fun o => decide (((ColCmd.parse o.body).cap : Int) < received os o.rank))
  || os.any (fun o => o.counts.any (fun w => w.getLsbD 31))

/-- The counts this member received, in rank order. -/
def colReceived (os : List Offer) (n rank : Nat) : List Word :=
  (List.range n).map (fun r => match os.find? (fun o => o.rank = r) with
    | some o => nth 0 o.counts rank
    | none => 0)

/-- Writes the received counts into their places (R463). -/
def State.colWriteCounts (s : State) (co : Coll) (c : ColCmd) : Got Unit × State :=
  let g := s.grp co.grp
  if c.op ≠ cAllToAllv then (.ok (), s)
  else s.localWrite co.part none s.devId.toNat (c.aux + 4 * g.size)
    ((colReceived co.offers g.size g.rank).flatMap (fun w => leBytes 4 w.toNat))

/-- Step 4 of R455: every OFFER is here, and R456 decides. The promise and the BUSY values of a replayed command stand as the replay
entered them (R399). -/
def State.colDecide (s : State) (job : Nat) : State :=
  match s.coll? job, s.job? job with
  | some co, some j =>
    let c := ColCmd.parse j.body
    let g := s.grp co.grp
    let ds := co.offers.map (·.d)
    let least := (co.offers.map (·.budget)).foldl min co.budget
    let most := (ds.map (·.getD 0)).foldl max 0
    let finite := ds.all (·.isSome)
    let own := co.d.getD 0
    let enter (s : State) : State :=
      if j.replayOf.isSome then s else s.enterAdmission j.ctx j.tc (engineNo tCol 0 0) ⟨co.g + own, co.busy, co.busyMem, co.busyLink⟩
        (2 * co.bound + most - own)
    if !offersAgree co.offers then s.colEnd job cBadDescriptor g.rank false false
    else if !finite || decide (least < 2 * co.bound + most) then
      let s1 := if finite then enter s else s
      let s2 := if co.d.isSome && decide (own ≤ co.budget) then s1.colStatus co.part 6 else s1
      (s2.bumpB co.part pgCol R.COL_REFUSED 1).colEnd job cRefused g.rank false false
    else if c.op = cAllToAllv && countsOverflow co.offers then
      match s.colWriteCounts co c with
      | (.wait, _) => s
      | (_, s1) => (enter s1).colEnd job cIndexRange g.rank false false
    else
      let s1 := enter s
      let fs := max (co.g * fluidScale) (s1.fluidLast j.tc (engineNo tCol 0 0))
      let ff := fs + fluidTime co.beats ((s1.tc j.tc).uCol)
      let s2 := if j.replayOf.isSome then s1 else (s1.modJob job (fun k => { k with
        promise := co.g + 2 * co.bound + most, beats := co.beats, fs := fs, ff := ff })).setFluid j.tc (engineNo tCol 0 0) ff
      let s3 := (s2.colUnpark j).recordSlot co.part j.ctx co.record
      s3.modColl job (fun k => { k with phase := .accepted })
  | _, _ => s

/-- What a join or offer round that has completed lets this member do next. While the SCH page is not RUNNING the scheduler admits
nothing, and the decision waits (R401). -/
def State.colAdvance (s : State) (job : Nat) : State :=
  match s.coll? job with
  | none => s
  | some co =>
    if co.lost then s.colFail job cLinkDown
    else
    let g := s.grp co.grp
    let (l, b) := colTop g.size g.w g.rank
    let up := co.phase = .joining && !co.sentUp && !co.complete && colNodeJoined g.size g.w co.joined l b
    let s1 := if !up then s
      else if l = treeDepth g.size g.w then
        (s.modColl job (fun k => { k with complete := true, sentUp := true, g := s.now })).colSendOrFail job
          (g.others.map (fun r => ⟨r, kJoin, joinedLevel, 0, 0, []⟩))
      else (s.modColl job (fun k => { k with sentUp := true })).colSendOrFail job
        [⟨b / g.w * g.w ^ (l + 1), kJoin, l + 1, b, 0, []⟩]
    let ready := (s1.coll? job).any (fun k => k.phase = .joining && k.complete)
    let s2 := if ready then s1.colOffer job else s1
    match s2.coll? job with
    | some k => if k.phase = .offering && decide (g.size ≤ k.offers.length) && s2.running pgSch then s2.colDecide job else s2
    | none => s2

/-! ### Traffic (R460, R463) -/

/-- Where a piece of a final result or of a moved chunk goes on this member, and its bytes there: the destination address,
the bytes, and whether a condition of R41 was met. -/
def ColCmd.landing (c : ColCmd) (g : Grp) (co : Coll) (from_ : Nat) (p : Packet) : Nat × List Byte × Bool :=
  let off := colOffset p
  let k := colChunk p
  if c.reduces then
    let e0 := off / (c.transit.width / 8)
    let start := if c.op = cAllReduce then c.chunkStart g k else 0
    let i0 := if c.op = cReduceScatter then g.rank * c.count + e0 else start + e0
    let (bs, t) := c.deliver i0 (colData p)
    (c.dst + (start + e0) * (c.f.width / 8), bs, t)
  else if c.op = cAllToAllv then
    let before := ((List.range from_).map (fun r =>
      c.bytes (((co.offers.find? (fun o => o.rank = r)).map (fun o => (o.count g.rank).toNat)).getD 0))).sum
    (c.dst + before + off, colData p, false)
  else if c.op = cAllToAll then (c.dst + from_ * c.bytes c.count + off, colData p, false)
  else (c.dst + c.bytes (c.chunkStart g k) + off, colData p, false)

/-- A piece that has arrived for this member: written to the destination, and for a chunk that every member receives, sent
on down the tree. Answers whether it was taken; a place not ready keeps it (R108). -/
def State.colLand (s : State) (job : Nat) (co : Coll) (c : ColCmd) (from_ : Nat) (p : Packet) : Bool × State :=
  let g := s.grp co.grp
  let (a, bs, t) := c.landing g co from_ p
  if t && c.trap then (true, s.colFail job cNumericTrap)
  else
    match s.localWrite co.part none s.devId.toNat a bs with
    | (.wait, _) => (false, s)
    | (.fail k, s1) => (true, s1.colFail job k)
    | (.ok _, s1) =>
      let s2 := s1.modColl job (fun k => { k with owed := k.owed - 1 })
      if colKind p = kDown ∧ (c.op = cAllGather ∨ c.op = cBroadcast ∨ c.op = cAllReduce) then
        let x := (g.rank + g.size - colChunk p % g.size) % g.size
        (true, s2.colSendOrFail job ((downTo g.size g.w x).map (fun y =>
          ⟨(y + colChunk p) % g.size, kDown, 0, colChunk p, colOffset p, colData p⟩)))
      else (true, s2)

/-- A child's piece reaches a node of this member (R460): kept until its siblings are here, then combined in the order of
R453 and sent on. -/
def State.colCombine (s : State) (job : Nat) (co : Coll) (c : ColCmd) (from_ : Nat) (p : Packet) : State :=
  let g := s.grp co.grp
  let l := colLevel p
  let k := colChunk p
  let o := colOffset p
  let child := if l = 1 then from_ else (from_ + g.size - k % g.size) % g.size / g.w ^ (l - 1)
  let b := child / g.w
  let mine (x : NodePart) : Bool := x.chunk = k && x.level = l && x.offset = o && x.child / g.w = b
  let all := co.nodes ++ [⟨k, l, child, o, colData p⟩]
  let kids := treeChildren g.size g.w l b
  let pieces := kids.filterMap (fun i => (all.find? (fun x => mine x && x.child = i)).map (·.bytes))
  if pieces.length < kids.length then s.modColl job (fun x => { x with nodes := all })
  else
    let (bs, t) := c.combineBytes pieces
    let s1 := (s.modColl job (fun x => { x with nodes := all.filter (fun y => !mine y), owed := x.owed - 1 })).bump64B
      co.part pgCol R.COL_BYTES_LO ((pieces.map List.length).sum)
    if t && c.trap then s1.colFail job cNumericTrap
    else if l = treeDepth g.size g.w then s1.colSendOrFail job [⟨g.rank, kDown, 0, k, o, bs⟩]
    else s1.colSendOrFail job [⟨treeHome g.size g.w k (l + 1) (b / g.w), kUp, l + 1, k, o, bs⟩]

/-- Counts a packet dropped (R461). -/
def State.colDrop (s : State) (p : Packet) : State := s.bumpB p.part pgCol R.COL_DROP 1

/-- Takes one data packet of a collective whose data moves. Answers whether it was taken. -/
def State.colData1 (s : State) (job : Nat) (p : Packet) : Bool × State :=
  match s.coll? job with
  | none => (true, s)
  | some co =>
    let c := s.colCmd co
    let g := s.grp co.grp
    let rank := if p.src = s.devId then some g.rank else g.rankOf p.src
    match rank with
    | none => (true, s.colDrop p)
    | some r =>
      let here : Bool := g.rank = treeHome g.size g.w (colChunk p) (colLevel p)
        ((if colLevel p = 1 then r else (r + g.size - colChunk p % g.size) % g.size / g.w ^ (colLevel p - 1)) / g.w)
      if colKind p = kUp then
        if c.reduces && decide (0 < colLevel p) && here then (true, s.colCombine job co c r p) else (true, s.colDrop p)
      else s.colLand job co c r p

/-- Takes the packets that wait for a moving collective, until none can be taken; `kept` are those whose place is not
ready. -/
def State.colDrain (job : Nat) : Nat → List Packet → State → State
  | 0, kept, s => s.modColl job (fun k => { k with early := kept ++ k.early })
  | f + 1, kept, s =>
    match s.coll? job with
    | none => s
    | some co =>
      match co.early with
      | [] => s.modColl job (fun k => { k with early := kept })
      | p :: t =>
        let (taken, s1) := (s.modColl job (fun k => { k with early := t })).colData1 job p
        State.colDrain job f (if taken then kept else kept ++ [p]) s1

/-- A moving collective takes what it can; with nothing more owed it ends DONE (R464). -/
def State.colMove (s : State) (job : Nat) : State :=
  match s.coll? job with
  | none => s
  | some co =>
    if co.lost then s.colFail job cLinkDown
    else if !co.moving then s
    else
      let s1 := State.colDrain job (2 * (co.early.length + co.owed) + 4) [] s
      match s1.coll? job with
      | none => s1
      | some k => if k.owed = 0 && k.early.isEmpty then (s1.colRemove k).endJob job cDone else s1

/-- Pieces of a stream of some bytes. -/
def pieceCount (n : Nat) : Nat := ceilDiv n 2032

/-- What a member waits for: the pieces its destination receives and the pieces its nodes send on. -/
def ColCmd.owes (c : ColCmd) (g : Grp) (os : List Offer) : Nat :=
  let per (k : Nat) : Nat := pieceCount (c.chunkBytes g k)
  let nodes := ((c.chunkIds g).map (fun k => (c.myNodes g k).length * per k)).sum
  let dst := if c.op = cAllToAllv then ((colReceived os g.size g.rank).map (fun w => pieceCount (c.bytes w.toNat))).sum
    else if c.op = cReduceScatter then per g.rank
    else if c.op = cReduce then (if g.rank = c.root then per c.root else 0)
    else if c.op = cAllToAll then g.size * per 0
    else ((c.chunkIds g).map per).sum
  nodes + dst

/-- What a member sends first (R460): its element streams into the tree, its own chunk down the tree, or its chunks to their
ranks. -/
def ColCmd.firstMsgs (c : ColCmd) (g : Grp) (counts : List Nat) (src : List Byte) : List ColMsg :=
  let part (a n : Nat) : List Byte := (src.drop a).take n
  if c.reduces then
    (c.chunkIds g).flatMap (fun k =>
      let fw := c.f.width / 8
      let n := c.chunkLen g k
      let bs := c.widen n (part (c.chunkStart g k * fw) (n * fw))
      if treeDepth g.size g.w = 0 then colPieces g.rank kDown 0 k bs
      else colPieces (treeHome g.size g.w k 1 (g.rank / g.w)) kUp 1 k bs)
  else if c.op = cAllToAllv then
    (List.range g.size).flatMap (fun r =>
      colPieces r kPeer 0 r (part (((counts.take r).map c.bytes).sum) (c.bytes (nth 0 counts r))))
  else if c.op = cAllToAll then
    (List.range g.size).flatMap (fun r => colPieces r kPeer 0 r (part (r * c.bytes c.count) (c.bytes c.count)))
  else if c.op = cAllGather then colPieces g.rank kDown 0 g.rank src
  else if c.op = cBroadcast ∧ g.rank = c.root then colPieces g.rank kDown 0 c.root src
  else []

/-- The data movement of a running collective of the named operation (step 5 of R455): the source is read once, the
member's streams are sent, and what has arrived is taken. -/
def State.colRun (s : State) (job op : Nat) : State :=
  match s.coll? job, s.job? job with
  | some co, some j =>
    let c := ColCmd.parse j.body
    let g := s.grp co.grp
    if !j.isRunning || co.phase ≠ .accepted || c.op ≠ op || !s.colServes then s
    else if co.moving then s.colMove job
    else
      let counts := match co.offers.find? (fun o => o.rank = g.rank) with
        | some o => o.counts.map (·.toNat)
        | none => []
      let n := if c.op = cAllToAllv then (counts.map c.bytes).sum else c.bytes (c.srcElems g)
      match (if n = 0 then (.ok [], s) else s.localRead co.part none s.devId.toNat c.src n : Got (List Byte) × State) with
      | (.wait, _) => s
      | (.fail k, s1) => s1.colFail job k
      | (.ok src, s1) =>
        match s1.colWriteCounts co c with
        | (.wait, _) => s
        | (.fail k, s2) => s2.colFail job k
        | (.ok _, s2) =>
          let s3 := s2.modColl job (fun k => { k with moving := true, owed := c.owes g co.offers })
          (s3.colSendOrFail job (c.firstMsgs g counts src)).colMove job
  | _, _ => s

def execAllGather (id : Nat) (s : State) : Host.Outcome State Fault Refusal := done s (s.colRun id cAllGather)
def execReduceScatter (id : Nat) (s : State) : Host.Outcome State Fault Refusal := done s (s.colRun id cReduceScatter)
def execAllReduce (id : Nat) (s : State) : Host.Outcome State Fault Refusal := done s (s.colRun id cAllReduce)
def execBroadcast (id : Nat) (s : State) : Host.Outcome State Fault Refusal := done s (s.colRun id cBroadcast)
def execReduce (id : Nat) (s : State) : Host.Outcome State Fault Refusal := done s (s.colRun id cReduce)
def execAllToAll (id : Nat) (s : State) : Host.Outcome State Fault Refusal := done s (s.colRun id cAllToAll)
def execAllToAllv (id : Nat) (s : State) : Host.Outcome State Fault Refusal := done s (s.colRun id cAllToAllv)
def execBarrier (id : Nat) (s : State) : Host.Outcome State Fault Refusal := done s (s.colRun id cBarrier)

/-! ### Arriving packets (R457, R461, R464) -/

/-- Keeps a packet for later. -/
def State.colHold (s : State) (p : Packet) : State := { s with col := { s.col with held := s.col.held ++ [p] } }

/-- Whether a packet names a SEQ its group has not yet taken here. -/
def State.colFuture (s : State) (p : Packet) : Bool :=
  let g := s.grp (colGroup p)
  s.holdsGrp p.part (colGroup p) && g.valid && decide ((colSeq p + 2 ^ 22 - g.seq) % 2 ^ 22 < 2 ^ 21)

/-- Takes a packet of a collective that this member has taken, keeps one of a later SEQ, and drops any other. -/
def State.colTake (s : State) (p : Packet) : State :=
  match s.colls.find? (fun c => c.part = p.part && c.grp = colGroup p && c.seq = colSeq p) with
  | none => if s.colFuture p then s.colHold p else s.colDrop p
  | some co =>
    match (s.grp co.grp).rankOf p.src with
    | none => s.colDrop p
    | some r =>
      let k := colKind p
      if k = kJoin then
        if colLevel p = joinedLevel then
          (s.modColl co.job (fun c => if c.complete then c else { c with complete := true, g := s.now })).colAdvance co.job
        else (s.modColl co.job (fun c => { c with joined := c.joined ++ [(colLevel p, colChunk p)] })).colAdvance co.job
      else if k = kOffer then
        (s.modColl co.job (fun c => { c with offers := c.offers.filter (fun o => o.rank ≠ r) ++ [Offer.decode r (colData p)] })).colAdvance
          co.job
      else if k = kAbort then s.colEnd co.job (colData p |>.headD 0#8).toNat r false true
      else if k ≤ kPeer then
        (s.modColl co.job (fun c => { c with early := c.early ++ [p] })).colMove co.job
      else s.colDrop p

/-- A COLLECTIVE packet arrives (R428, R465): checked, held while the COL page is not RUNNING, else taken. -/
def State.colArrives (s : State) (p : Packet) : State :=
  s.checked p (fun s => if s.colServes then s.colTake p else s.colHold p)

/-- A packet of the named kind. -/
def State.colOfKind (s : State) (p : Packet) (kind : Nat) : State :=
  if p.type = ptCollective && colKind p = kind then s.colArrives p else s

def execJoin (p : Packet) (s : State) : Host.Outcome State Fault Refusal := done s (s.colOfKind p kJoin)
def execOffer (p : Packet) (s : State) : Host.Outcome State Fault Refusal := done s (s.colOfKind p kOffer)
def execUp (p : Packet) (s : State) : Host.Outcome State Fault Refusal := done s (s.colOfKind p kUp)
def execDown (p : Packet) (s : State) : Host.Outcome State Fault Refusal := done s (s.colOfKind p kDown)
def execPeer (p : Packet) (s : State) : Host.Outcome State Fault Refusal := done s (s.colOfKind p kPeer)
def execAbort (p : Packet) (s : State) : Host.Outcome State Fault Refusal := done s (s.colOfKind p kAbort)

/-- The packets kept while the COL page was not RUNNING, or for a collective now taken, are looked at again. -/
def State.colServeHeld (s : State) : State :=
  s.col.held.foldl State.colTake { s with col := { s.col with held := [] } }

/-! ### Taking a collective (R455 step 1, R457, R458, R462) -/

/-- Whether the engine can take a collective of a group: fewer than 16 active, none of the group (R462). -/
def State.colRoom (s : State) (grp : Nat) : Bool :=
  s.colServes && decide (s.colls.length < 16) && !(s.colls.any (fun c => c.grp = grp))

/-- This member takes a collective command: it gets its group's next SEQ, JOIN goes up the tree, and what has already
arrived for it is taken. A kept ABORT ends it LINK_DOWN at once (R458). -/
def State.colJoin (s : State) (job budget : Nat) (record : List DWord) : State :=
  match s.job? job with
  | none => s
  | some j =>
    let n := (ColCmd.parse j.body).grp
    let g := s.grp n
    let co : Coll :=
      { job := job, part := j.part, grp := n, seq := g.seq, startAt := s.now, phase := .joining, joined := []
        sentUp := false, complete := false, g := 0, bound := 0, beats := 0, d := none, busy := none, busyMem := none
        busyLink := none, budget := budget, offers := [], nodes := [], early := [], moving := false, owed := 0
        record := record, lost := false }
    let mine (p : Packet) : Bool := p.part = j.part && colGroup p = n && colSeq p = co.seq
    let kept := s.col.held.filter mine
    let s1 := (s.setGrp n { g with seq := (g.seq + 1) % 2 ^ 22 }).setColls (s.colls ++ [co])
    match kept.find? (fun p => colKind p = kAbort) with
    | some p => s1.colEnd job cLinkDown ((g.rankOf p.src).getD 0) false true
    | none =>
      let s2 := { s1 with col := { s1.col with held := s1.col.held.filter (fun p => !mine p) } }
      kept.foldl State.colTake (s2.colAdvance job)

/-- JOIN_TIMEOUT: the join round has not completed within `COL_JOIN_TIMEOUT` of this member's step 1 (R458). -/
def execJoinTimeout (id : Nat) (s : State) : Host.Outcome State Fault Refusal :=
  done s (match s.coll? id with
    | none => s
    | some co =>
      if co.phase = .joining && !co.complete then
        (s.reach (co.startAt + 1000 * wbits (s.regB co.part pgCol R.COL_JOIN_TIMEOUT) 23 0)).colFail id cLinkDown
      else s)

/-- The engine's start (R388, R455): a round that waited for its counts goes on, a replayed collective is taken when there
is room (R469), and the next accepted command whose turn it is runs. -/
def State.colStart (s : State) : State :=
  if !s.colServes then s
  else
    let s1 := s.colls.foldl (fun s c => s.colAdvance c.job) s
    let fresh (j : Job) : Bool := (s1.coll? j.id).isNone && s1.colRoom (ColCmd.parse j.body).grp
    match s1.nextFor (engineNo tCol 0 0) fresh with
    | some j => s1.colJoin j.id (2 ^ 63) []
    | none =>
      match s1.nextFor (engineNo tCol 0 0) (fun j => (s1.coll? j.id).any (fun c => c.phase = .accepted)) with
      | some j => s1.startJob j.id
      | none => s1

/-- A parity fault of the engine (R464): the collective whose data moves ends UNIT_FAULT, and the event counts on the COL
page. Once the engine is retired, every collective ends so (R531). -/
def State.colParity (s : State) : State :=
  let s1 := match s.colls.find? (·.moving) with
    | some co => s.colFail co.job cUnitFault
    | none => s
  let s2 := s1.countFault errCol 1
  if (s2.page pgCol).st = .retired then s2.colls.foldl (fun s c => s.colFail c.job cUnitFault) s2 else s2

/-- Collectives end ABORTED (R465). -/
def State.colAbort (s : State) (p : Coll → Bool) : State :=
  (s.colls.filter p).foldl (fun s c => s.colFail c.job cAborted) s

/-- The COL page drains with DRAIN 0: every collective ends ABORTED, also a replayed one that has not joined (R465, R470). -/
def State.colDrainAbort (s : State) : State :=
  let s1 := s.colAbort (fun _ => true)
  (s1.sch.jobs.filter (fun j => decide (j.target = tCol) && j.live)).foldl (fun s j =>
    let n := (ColCmd.parse j.body).grp
    (s.endJob j.id cAborted).colFaultRegs j.part cAborted (s.grp n).rank n false) s1

/-! ### Committing a group (R448) -/

/-- The member list of an entry: device and context of each rank. -/
def State.readMembers (s : State) (p : Fin 16) (a n : Nat) : Option (List (Nat × Nat)) × State :=
  match s.memRead p s.devId.toNat a (4 * n) with
  | (.ok bs, s1) => (some ((chunks 4 bs).map (fun b => (leNat (b.take 2), leNat (b.drop 2)))), s1)
  | (_, s1) => (none, s1)

/-- Whether a list may stand (R448): RANK names this device, no device twice, every other member admitted. -/
def State.membersOk (s : State) (p : Fin 16) (rank : Nat) (ids : List (Nat × Nat)) : Bool :=
  let me := s.devId.toNat
  decide ((nth (65536, 0) ids rank).1 = me) && decide ((ids.map (·.1)).Nodup)
  && ids.all (fun e => e.1 = me || s.peerOk p e.1)

/-- Applies the held data words to group `n` of a partition, or ignores the commit (R448). -/
def State.grpCommit (s : State) (p : Fin 16) (n : Nat) (d : List Word) : State :=
  let w (i : Nat) : Nat := (nth 0 d (2 * i)).toNat + (nth 0 d (2 * i + 1)).toNat * 2 ^ 32
  let g : Grp := ⟨bitsOf (w 0) 14 0, bitsOf (w 0) 29 16, bitsOf (w 0) 34 32, bitOf (w 0) 35, bitsOf (w 1) 47 0, 0, []⟩
  let bad := !s.holdsGrp p n || s.colls.any (fun c => c.grp = n)
    || s.sch.jobs.any (fun j => decide (j.target = tCol) && (ColCmd.parse j.body).grp = n)
    || decide (5 < g.width) || g.size = 0 || decide (16384 < g.size) || decide (g.size ≤ g.rank) || g.listAddr % 64 ≠ 0
  if bad || !s.memAllowed p g.listAddr (4 * g.size) then s.cmdIgnored p pgCol
  else
    match s.readMembers p g.listAddr g.size with
    | (none, s1) => s1.cmdIgnored p pgCol
    | (some ids, s1) =>
      if s1.membersOk p g.rank ids then s1.setGrp n { g with ids := ids } else s1.cmdIgnored p pgCol

/-- COL_GRP_COMMIT: GO applies the entry that COL_GRP_SEL names, in the requester's bank (R447, R448). -/
def execColGrpCommit (r : Req) (v : Word) (s : State) : Host.Outcome State Fault Refusal :=
  let p := s.reqPart r
  done s (s.asWrite r pgCol R.COL_GRP_COMMIT false (fun s =>
    if v.getLsbD 0 then
      s.grpCommit p (wbits (s.regB p pgCol R.COL_GRP_SEL) 9 0)
        ((List.range 6).map (fun i => s.regB p pgCol (R.COL_GRP_DATA + 4 * i)))
    else s))

end Sys2Proof.Machine
end

