-- ==== Sys2Proof/Machine/Stage.lean ====
section
/-!
DEFINITION. Staging a command: its header (R378, R379), validation and price by its target (R160, R190, R216, R239, R311,
R360, R397, R452), holding before admission (R131, R191, R388), and admission (R386, R390, R398, R399).
-/

namespace Sys2Proof.Machine

open Sys2Proof

/-! ### The header (R379) -/

structure Hdr where
  target : Nat
  square : Nat
  unit : Nat
  record : Bool
  length : Nat
  wait : Bool
  signal : Bool
  remote : Bool
  dev : Nat
  budget : Nat
  waitTally : Nat
  signalTally : Nat
  waitValue : Nat
deriving DecidableEq, Repr

def Hdr.parse (ws : List DWord) : Hdr :=
  let w0 := wd ws 0
  let w1 := wd ws 1
  ⟨bitsOf w0 7 0, bitsOf w0 13 8, bitsOf w0 14 14, bitOf w0 15, bitsOf w0 20 16, bitOf w0 21, bitOf w0 22, bitOf w0 23,
    bitsOf w0 39 24, bitsOf w0 63 40, bitsOf w1 13 0, bitsOf w1 29 16, bitsOf w1 63 32⟩

/-- The body: words 2 to LENGTH + 1 (R378). -/
def Hdr.body (h : Hdr) (ws : List DWord) : List DWord := (ws.drop 2).take h.length

/-- Whether the header is well formed (R379). -/
def Hdr.ok (ws : List DWord) (h : Hdr) : Bool :=
  decide (1 ≤ h.target) && decide (h.target ≤ 7) && decide (1 ≤ h.length) && decide (h.length ≤ 30)
  && (decide (h.target ≤ tSft) || h.square = 0) && (decide (h.target ≤ tVxe) || h.unit = 0)
  && (h.remote || h.dev = 0) && bitsOf (wd ws 1) 15 14 = 0 && bitsOf (wd ws 1) 31 30 = 0

/-- The tallies that a header names on this device lie in the partition's range (R391). -/
def State.hdrTalliesOk (s : State) (p : Fin 16) (h : Hdr) : Bool :=
  (!h.wait || s.holdsTally p h.waitTally) && (!h.signal || h.remote || s.holdsTally p h.signalTally)

/-- The code that a header alone earns a command, if any. -/
def State.hdrFault (s : State) (p : Fin 16) (ws : List DWord) (h : Hdr) : Option Nat :=
  if !h.ok ws then some cBadDescriptor
  else if !s.hdrTalliesOk p h then some cPartitionFault
  else none

def Hdr.sig (h : Hdr) : Option (Nat × Option (BitVec 16)) :=
  if h.signal then some (h.signalTally, if h.remote then some (BitVec.ofNat 16 h.dev) else none) else none

/-- A recorded slot: WAIT, SIGNAL and RECORD cleared (R398). -/
def unlinked (ws : List DWord) : List DWord :=
  match ws with
  | [] => []
  | w :: t => (w &&& ~~~(BitVec.ofNat 64 (2 ^ 15 + 2 ^ 21 + 2 ^ 22))) :: t

/-! ### Commands -/

/-- A command on its way to admission. `record` is the slot to record, empty for none. -/
structure Cmd where
  part : Fin 16
  ctx : Nat
  origin : Origin
  target : Nat
  square : Nat
  unit : Nat
  body : List DWord
  signal : Option (Nat × Option (BitVec 16))
  budget : Nat
  record : List DWord
deriving DecidableEq, Repr

/-- The command of a ring slot, a COMMAND packet or a recorded slot. A header BUDGET of 0 takes the context's (R379). -/
def State.slotCmd (s : State) (p : Fin 16) (ctx : Nat) (o : Origin) (ws : List DWord) : Cmd :=
  let h := Hdr.parse ws
  ⟨p, ctx, o, h.target, h.square, h.unit, h.body ws, h.sig,
    if h.budget = 0 then (s.ctx ctx).budget else h.budget * 256, if h.record then unlinked ws else []⟩

/-- The target and unit of a command port (R124). -/
def portTarget (port : Fin 6) : Nat × Nat :=
  if port.val < 2 then (tMxe, port.val) else if port.val < 4 then (tVxe, port.val - 2)
  else if port.val = 4 then (tMov, 0) else (tSft, 0)

/-- The command of a port (R130, R131). -/
def State.portCmd (s : State) (p : Fin 16) (ctx : Nat) (o : Origin) (q : Nat) (port : Fin 6) (ws : List DWord) : Cmd :=
  ⟨p, ctx, o, (portTarget port).1, q, (portTarget port).2, ws, none, (s.ctx ctx).budget, []⟩

/-! ### Scheduler commands (R397) -/

def schOp (b : List DWord) : Nat := bitsOf (wd b 0) 7 0
def schSeg (b : List DWord) : Nat := bitsOf (wd b 0) 17 8
def schBase (b : List DWord) : Nat := bitsOf (wd b 1) 47 0
def schCap (b : List DWord) : Nat := bitsOf (wd b 2) 15 0

/-- Validation of a scheduler command. -/
def State.schValidate (s : State) (p : Fin 16) (b : List DWord) : Option Nat :=
  let op := schOp b
  let seg := s.seg (schSeg b)
  if !(decide (op ≤ 3) && bitsOf (wd b 0) 63 18 = 0 && b.length = (if op = 1 then 3 else 1)
      && (op ≠ 1 || (bitsOf (wd b 1) 63 48 = 0 && schBase b % 4096 = 0 && bitsOf (wd b 2) 63 16 = 0 && schCap b ≠ 0))
      && (op ≠ 0 || schSeg b = 0)) then some cBadDescriptor
  else if op = 0 then none
  else if !s.holdsSeg p (schSeg b) || (op = 1 && !s.memAllowed p (schBase b) (256 * schCap b)) then some cPartitionFault
  else if op = 3 && (!seg.closed || seg.overflow) then some cBadDescriptor
  else none

/-! ### Validation and price -/

/-- What validation makes of a command: its program copy and price, the code it fails with, or a wait for a place that is
not ready (R108). -/
inductive Staged where
  | ok (prog : List DWord) (cost : Cost)
  | fail (code : Nat)
  | wait
deriving DecidableEq, Repr

/-- Reads 64-bit words of a square's own scratchpad. -/
def State.spadWordsAt (s : State) (q a n : Nat) : Got (List DWord) × State :=
  match s.spadRead q a (8 * n) with
  | (.ok bs, s1) => (.ok ((chunks 8 bs).map (fun b => BitVec.ofNat 64 (leNat b))), s1)
  | (.fail c, s1) => (.fail c, s1)
  | (.wait, s1) => (.wait, s1)

/-- The words of a run command's program and of its descriptors (R190). -/
def State.vxeCopy (s : State) (q : Nat) (b : List DWord) : Got (List DWord) × State :=
  match s.spadWordsAt q (runBase b) (2 * runLen b) with
  | (.ok ps, s1) =>
    (match s1.spadWordsAt q (runDescBase b) (16 * runDescCount b) with
      | (.ok ds, s2) => (.ok (ps ++ ds), s2)
      | (.fail c, s2) => (.fail c, s2)
      | (.wait, s2) => (.wait, s2))
  | (.fail c, s1) => (.fail c, s1)
  | (.wait, s1) => (.wait, s1)

/-- A program that ends at its submission: `VXE_LAST_FAULT` and PROG_FAULT (R216, R222, R223). -/
def State.vxeRefuse (s : State) (q u code operand pc : Nat) : Staged × State :=
  (.fail code, (s.vxeLastFault q u code operand pc).statusAll (pgVxe q u) 6)

/-- A run command: its program and descriptors are copied, validated and priced (R190, R216). A copy that meets
uncorrectable words counts one UNIT_FAULT. -/
def State.stageVxe (s : State) (q u : Nat) (b : List DWord) : Staged × State :=
  if !runOk b then s.vxeRefuse q u cBadDescriptor 15 0
  else
    let (r, _, s1) := s.atMostOneFault q false (fun s => s.vxeCopy q b)
    match r with
    | .ok ws =>
      let p : VProg := ⟨ws, runLen b⟩
      (match s1.progCheck q p p.len 0 ⟨[], [], 0⟩ with
        | some (c, o, i) => s1.vxeRefuse q u c o i
        | none => (.ok p.words (Cost.ofBeats p.cost), s1))
    | .fail c => s1.vxeRefuse q u c 15 0
    | .wait => (.wait, s)

/-- The chain that a load of a bank can wait for, in the price of a port 5 command: the longest of the programs that have been
admitted and not completed (R245). -/
def State.funcWait (s : State) (q : Nat) : Nat :=
  ((s.sch.jobs.filter (fun j => decide (j.target = tVxe) && decide (j.square = q))).map
    (fun j => j.vprog.funcChain)).foldl max 0

/-- `sft_cost` (R245). -/
def sftPrice (b : List DWord) (held : Nat) : Cost :=
  let op := sftOp b
  Cost.ofBeats (withMargin (64 + (if op = 1 then 72 * sftCount b + held else if op = 2 then 16 else 128 + held)))

/-- Validation and price by target, with what a failed validation leaves on the engine's page. -/
def State.stageOf (s : State) (c : Cmd) : Staged × State :=
  let q := c.square
  let b := c.body
  if c.target = tMxe then
    match Tile.validate b with
    | some e => (.fail e, s.setReg (pgMxe q c.unit) R.MXE_LAST_FAULT (word (e * 2 ^ 24 + 0xFFFF)))
    | none => (.ok [] (Cost.ofBeats (Tile.parse b).cost), s)
  else if c.target = tVxe then s.stageVxe q c.unit b
  else if c.target = tMov then
    let (ready, s0) := s.movHeaders c.part q b
    if !ready then (.wait, s)
    else
    match s0.movValidate c.part q b with
    | some e =>
      let m := MovCmd.parse b
      let side := s0.movSide c.part q b e
      (.fail e, (((s0.setReg (pgMov q) R.MOV_LAST_FAULT (word (e * 2 ^ 24 + m.chan * 2 ^ 22 + m.op * 2 ^ 8 + side))).setReg
        (pgMov q) R.MOV_FAULT_POS_LO 0).setReg (pgMov q) R.MOV_FAULT_POS_HI 0).statusAll (pgMov q) 7)
    | none => (.ok (s0.movHeads c.part q (MovCmd.parse b)) (s0.movCost c.part q b), s0)
  else if c.target = tSft then
    match sftValidate b with
    | some e => (.fail e, s.sftLastErr q e (sftFirst b) 255 (s.sftTarget q))
    | none => (.ok [] (sftPrice b (s.funcWait q)), s)
  else if c.target = tUpd then
    match s.updValidate c.part b with
    | (.ok ds, s1) => (.ok ds (s1.updCost c.part ds), s1)
    | (.fail e, s1) => (.fail e, s1.updLastFault e noBlock)
    | (.wait, s1) => (.wait, s1)
  else if c.target = tCol then
    match s.colValidate c.part b with
    | some e => (.fail e, s.colFaultRegs c.part e (s.grp (ColCmd.parse b).grp).rank (ColCmd.parse b).grp false)
    | none =>
      (match s.colCost c.part (ColCmd.parse b) (s.grp (ColCmd.parse b).grp) [] with
        | some x => (.ok [] x, s)
        | none => (.fail cRefused, s))
  else
    match s.schValidate c.part b with
    | some e => (.fail e, s)
    | none => (.ok [] (Cost.ofBeats 0), s)

/-- Whether the scheduler refuses a command before pricing: the partition is not ACTIVE, the square is another's, or the
engine is RETIRED with no promotion to come (R472, R532, R536). DESIGN CHOICE: a command that would also fail its validation (R8,
R161) ends REFUSED here, before it is validated; the spec does not say which of the two comes first (assumption 135). -/
def State.refusedOutright (s : State) (c : Cmd) : Bool :=
  decide ((s.part c.part).st ≠ .active)
  || (decide (c.target ≤ tSft) && (decide (s.sqOwner c.square ≠ c.part)
    || (decide (s.pstate (enginePage c.target c.square c.unit) = .retired)
      && !(s.squares.promotions.any (fun q => q.val = c.square)))))
  || (decide (c.target = tCol) && decide (s.pstate pgCol = .retired))
  || (decide (c.target = tUpd) && s.updStacks.isEmpty)

/-- Whether there is an entry for a command (R191, R388). -/
def State.hasRoom (s : State) (tcn : Nat) (c : Cmd) : Bool := s.entryFree tcn c.target c.square c.unit

/-! ### Admission -/

/-- The job of an accepted command. -/
def State.addJob (s : State) (c : Cmd) (tcn : Nat) (prog : List DWord) (promise beats now : Nat) : State :=
  let e := engineNo c.target c.square c.unit
  let fs := max (now * fluidScale) (s.fluidLast tcn e)
  let u := (s.tc tcn).unitsFor c.target c.square prog
  let j : Job :=
    { id := s.sch.nextJob, part := c.part, ctx := c.ctx, origin := c.origin, target := c.target, square := c.square
      unit := c.unit, tc := tcn, body := c.body, signal := c.signal, promise := promise, beats := beats, fs := fs
      ff := fs + fluidTime beats u, phase := .queued, fell := false, prog := prog }
  { s with sch := { s.sch with jobs := s.sch.jobs ++ [j], nextJob := s.sch.nextJob + 1 } }.setFluid tcn e j.ff

/-- What admission makes of a command at a local time: accepted, with the state that holds it; ended at once with a code;
or nothing yet. -/
inductive Verd where
  | accepted
  | ended (code : Nat)
  | notYet
deriving DecidableEq, Repr

/-- One recorded command of a replay (R399): validated and priced after the one before it. The answer carries the code that
ends the replay, if any. -/
def State.replayOne (s : State) (p : Fin 16) (ctx tcn parent now : Nat) (ws : List DWord) : Verd × State :=
  let h := Hdr.parse ws
  let c := { s.slotCmd p ctx (.replay parent) ws with signal := none, record := [] }
  match s.hdrFault p ws h with
  | some e => (.ended e, s)
  | none =>
    if c.target = tSch && schOp c.body = 3 then (.ended cBadDescriptor, s)
    else if s.refusedOutright c then (.ended cRefused, s)
    else
      match s.stageOf c with
      | (.wait, _) => (.notYet, s)
      | (.fail e, s1) => (.ended e, s1)
      | (.ok prog cost, s1) =>
        match s1.admitRaw ctx tcn c.target c.square c.unit prog cost now with
        | none => (.ended cRefused, s1)
        | some a =>
          let s2 := s1.enterAdmission ctx tcn (engineNo c.target c.square c.unit) a 0
          (.accepted, s2.addJob c tcn prog a.promise cost.beats now)

/-- The recorded commands of a segment, from place `i` (R399). -/
def State.replayAll (p : Fin 16) (ctx tcn parent base now : Nat) : Nat → Nat → State → Verd × State
  | 0, _, s => (.accepted, s)
  | f + 1, i, s =>
    match s.memRead p s.devId.toNat (base + 256 * i) 256 with
    | (.wait, _) => (.notYet, s)
    | (.fail e, s1) => (.ended e, s1)
    | (.ok bs, s1) =>
      match s1.replayOne p ctx tcn parent now ((chunks 8 bs).map (fun b => BitVec.ofNat 64 (leNat b))) with
      | (.accepted, s2) => State.replayAll p ctx tcn parent base now f (i + 1) s2
      | (v, s2) => (v, s2)

/-- Whether each matrix engine of an ORTHO update has an entry for its tiles (R153, R388; assumption 136). -/
def State.orthoRoom (s : State) (tcn target : Nat) (prog : List DWord) : Bool :=
  let l := Layer.parse prog
  target ≠ tUpd || !l.ortho || l.host || l.orthoEngines.all (fun e => s.entryFree tcn tMxe e.1 e.2)

/-- Whether every engine that the recorded commands of a replay use has an entry for the replay, as the queues stood before it
(R191, R388; assumption 132). -/
def State.replayRoom (s : State) (tcn : Nat) (js : List Job) : Bool :=
  js.all (fun j => s.entryFree tcn j.target j.square j.unit && s.orthoRoom tcn j.target j.prog)

/-- Admission of a SEG_REPLAY (R399): whole, or not at all, once each of its engines has an entry for it. The parent's job stands
before its commands. Its own slot is recorded like any other (R398). -/
def State.admitReplay (s : State) (c : Cmd) (tcn now : Nat) : Verd × State :=
  let g := s.seg (schSeg c.body)
  let parent := s.sch.nextJob
  let s0 := s.addJob c tcn [] 0 0 now
  match State.replayAll c.part c.ctx tcn parent g.base now g.count 0 s0 with
  | (.accepted, s1) =>
    let last := max (now + 100) (s1.ctx c.ctx).promise
    if !s.replayRoom tcn (s1.sch.jobs.filter (fun j => j.replayOf = some parent)) then (.notYet, s)
    else if now + c.budget < last then (.ended cRefused, s)
    else (.accepted, ((s1.modJob parent (fun j => { j with promise := last })).setCtx c.ctx
      { s1.ctx c.ctx with promise := last }).recordSlot c.part c.ctx c.record)
  | (.ended e, s1) => (.ended e, { s1 with sch := s.sch })
  | (.notYet, _) => (.notYet, s)

/-- Admission of any command at local time `now` (R386): validated, priced, tested against its budget, and entered. A
collective joins its group instead (R455). -/
def State.admitCmd (s : State) (c : Cmd) (now : Nat) : Verd × State :=
  let tcn := (s.ctx c.ctx).tc
  if s.refusedOutright c then (.ended cRefused, s)
  else
    match s.stageOf c with
    | (.wait, _) => (.notYet, s)
    | (.fail e, s1) => (.ended e, s1)
    | (.ok prog cost, s1) =>
      if c.target = tSch && schOp c.body = 3 then s1.admitReplay c tcn now
      else if !s.orthoRoom tcn c.target prog then (.notYet, s)
      else
        match s1.admitRaw c.ctx tcn c.target c.square c.unit prog cost now with
        | none => (.ended cRefused, s1)
        | some a =>
          if now + c.budget < a.promise then (.ended cRefused, s1)
          else
            let s2 := s1.enterAdmission c.ctx tcn (engineNo c.target c.square c.unit) a 0
            (.accepted, (s2.addJob c tcn prog a.promise cost.beats now).recordSlot c.part c.ctx c.record)

end Sys2Proof.Machine
end

