-- ==== Sys2Proof/Machine/Sched.lean ====
section
/-!
DEFINITION. The scheduler's commands (R131, R166, R377 to R403): contexts, doorbells, ring slots, command ports, tallies, time
controls, engines' starts, completions and fallen flags.
-/

namespace Sys2Proof.Machine

open Sys2Proof

/-! ### Held admissions -/

def State.addHeld (s : State) (h : Held) : State := { s with sch := { s.sch with held := s.sch.held ++ [h] } }

def State.dropHeld (s : State) (i : Nat) : State :=
  { s with sch := { s.sch with held := s.sch.held.eraseIdx i } }

/-! ### Ring slots (R380, R381, R392) -/

/-- Commands of a port that have not completed. -/
def State.portBusy (s : State) (ph : Nat) (k : Fin 4) (port : Fin 6) : Nat :=
  (s.sch.jobs.filter (fun j => match j.origin with
    | .port ph' k' port' _ => decide (ph' = ph) && decide (k' = k) && decide (port' = port)
    | _ => false)).length

/-- `SPACE.FREE` (R130). -/
def State.portFree (s : State) (ph : Nat) (k : Fin 4) (port : Fin 6) : Nat := 16 - s.portBusy ph k port

/-- Whether a held command has arrived: a SUBMIT that its full port keeps back has not (R131). -/
def State.hasArrived (s : State) (h : Held) : Bool :=
  match h.origin with
  | .port ph k port _ => decide (0 < s.portFree ph k port)
  | _ => true

/-- A held command as the scheduler stages it. -/
def State.heldCmd (s : State) (h : Held) : Cmd :=
  match h.origin with
  | .port ph _ port _ =>
    s.portCmd h.part h.ctx h.origin ((allSquares.find? (fun q => s.phys q = ph)).getD 64) port h.words
  | o => s.slotCmd h.part h.ctx o h.words

/-- The queue that a command waits for: its engine, and its time control's part of it. -/
def State.queueOf (s : State) (c : Cmd) : Nat × Nat := (engineNo c.target c.square c.unit, (s.ctx c.ctx).tc)

/-- Whether a command must wait before admission: behind an earlier one of its context (R381), else, unless it is refused outright,
behind one that is held for the same queue, or for the same program store (R191), or until an entry is free (R388). `ahead` lists the
commands held before it. -/
def State.mustWait (s : State) (ahead : List Held) (c : Cmd) : Bool :=
  let xs := ahead.filter s.hasArrived
  xs.any (fun h => decide (h.ctx = c.ctx))
  || (!s.refusedOutright c && (!s.hasRoom (s.ctx c.ctx).tc c || xs.any (fun h => decide (s.queueOf (s.heldCmd h) = s.queueOf c))))

/-! ### Ring slots, taken (R380 to R382) -/

/-- A slot that is never admitted completes at once (R382). -/
def State.endSlot (s : State) (p : Fin 16) (ctx slot target code : Nat) (sig : Option (Nat × Option (BitVec 16))) : State :=
  ((s.setCtx ctx (s.ctx ctx).past).dropWaits ctx).finish p ctx (.ring slot) target sig none code

/-- A collective's slot (R455): validated; with room in the engine, its context is parked and the group is joined. -/
def State.ringCollective (s : State) (c : Cmd) (slot : Nat) (now : Nat) : Option State :=
  match (if s.refusedOutright c then some cRefused else s.colValidate c.part c.body) with
  | some e =>
    let n := (ColCmd.parse c.body).grp
    let s1 := s.colFaultRegs c.part e (s.grp n).rank n false
    some (s1.endSlot c.part c.ctx slot c.target e c.signal)
  | none =>
    if !s.colRoom (ColCmd.parse c.body).grp then none
    else
      let job := s.sch.nextJob
      let s1 := (s.addJob c (s.ctx c.ctx).tc [] 0 0 now).dropWaits c.ctx
      some ((s1.setCtx c.ctx { s1.ctx c.ctx with st := .parked }).colJoin job c.budget c.record)

/-- The slot at a context's head is staged at local time `now`, behind the commands `ahead` that are held: admitted or completed,
with HEAD past it, or not yet. -/
def State.ringGo (s : State) (ahead : List Held) (p : Fin 16) (ctx slot : Nat) (ws : List DWord) (now : Nat) : Option State :=
  let c := s.slotCmd p ctx (.ring slot) ws
  if c.target = tCol then s.ringCollective c slot now
  else if s.mustWait ahead c then none
  else
    match s.admitCmd c now with
    | (.accepted, s1) => some ((s1.setCtx ctx (s1.ctx ctx).past).dropWaits ctx)
    | (.ended e, s1) => some (s1.endSlot p ctx slot c.target e c.signal)
    | (.notYet, _) => none

/-- Whether a context's ring has a slot to take: the scheduler admits, the context is ACTIVE, slots wait between HEAD and
TAIL, and no command of the context is held (R381). -/
def State.ringReady (s : State) (ctx : Nat) : Bool :=
  let c := s.ctx ctx
  s.running pgSch && decide (c.st = .active) && decide (c.head ≠ c.tail % c.slots)
  && !(s.sch.held.any (fun h => decide (h.ctx = ctx)))

/-- The wait of a context, if it has one. -/
def State.waitOf (s : State) (ctx : Nat) : Option Wait := s.sch.waits.find? (fun w => w.ctx = ctx)

/-- RING_SLOT_TAKEN: the scheduler takes the slot at a context's head (R380, R381, R392). -/
def State.takeSlot (s : State) (ctx : Nat) : State :=
  if !s.ringReady ctx then s
  else
    let p := s.ctxPart ctx
    let c := s.ctx ctx
    let slot := c.head
    match s.memRead p s.devId.toNat (c.ringBase + 256 * slot) 256 with
    | (.wait, _) => s
    | (.fail e, s1) => s1.endSlot p ctx slot 0 e none
    | (.ok bs, s1) =>
      let ws := (chunks 8 bs).map (fun b => BitVec.ofNat 64 (leNat b))
      let h := Hdr.parse ws
      match s1.hdrFault p ws h with
      | some e => s1.endSlot p ctx slot h.target e none
      | none =>
        let since := (s1.waitOf ctx).bind (·.reachedAt)
        if h.wait && since.isNone && !tallyReached (s1.tally h.waitTally) (word h.waitValue) then
          let w : Wait := ⟨ctx, h.waitTally, word h.waitValue, none⟩
          { s1.setCtx ctx { c with st := .parked } with sch := { (s1.setCtx ctx { c with st := .parked }).sch with
            waits := s1.sch.waits.filter (fun x => x.ctx ≠ ctx) ++ [w] } }
        else
          match s1.ringGo s1.sch.held p ctx slot ws (since.getD s1.now) with
          | some s2 => s2
          | none =>
            if h.target = tCol ∨ ¬ s1.mustWait s1.sch.held (s1.slotCmd p ctx (.ring slot) ws) then s
            else s1.addHeld { ctx := ctx, part := p, origin := .ring slot, words := ws }

def execRingSlotTaken (ctx : BitVec 16) (s : State) : Host.Outcome State Fault Refusal := done s (s.takeSlot ctx.toNat)

/-! ### Command ports (R130, R131) -/

/-- A port's command is taken, or must be held: no free entry, no room before its engine, an earlier held command, or a scheduler that
takes nothing in (R131, R191, R381, R388, R401). -/
def State.portGo (s : State) (ahead : List Held) (q ph : Nat) (k : Fin 4) (port : Fin 6) (ctx : Nat) (ws : List DWord) :
    Option State :=
  let p := s.sqOwner q
  let w := s.pawn ph k.val
  let pt := nth Port.reset w.ports port.val
  let seq := (pt.issued + 1) % 2 ^ 24
  let o := Origin.port ph k port seq
  let c := s.portCmd p ctx o q port ws
  let s0 := s.setPawn ph k.val { w with ports := setNth w.ports port.val { pt with issued := seq } }
  if !s.running pgSch || s.portFree ph k port = 0 then none
  else if !s.holdsCtx p ctx then some (s0.finishPort o cPartitionFault)
  else if (s.ctx ctx).st ≠ .active then some (s0.finish p ctx o c.target none none cRefused)
  else if s.mustWait ahead c then none
  else
    match s0.admitCmd c s.now with
    | (.accepted, s1) => some s1
    | (.ended e, s1) => some (s1.finish p ctx o c.target none none e)
    | (.notYet, _) => none

/-- SUBMIT (R131): the first LENGTH words of the port's CMD buffer, as they stand, for stream context STREAM. -/
def State.submit (s : State) (q : Nat) (k : Fin 4) (port : Fin 6) (v : Word) : State :=
  let ph := s.phys q
  let n := wbits v 21 16
  let ctx := wbits v 15 0
  let ws := (List.range (min n 32)).map (fun i =>
    s.squares.cmdBuf.get (fun _ => 0) (((4 * ph + k.val) * 6 + port.val) * 32 + i))
  match s.portGo s.sch.held q ph k port ctx ws with
  | some s1 => s1
  | none => s.addHeld { ctx := ctx, part := s.sqOwner q, origin := .port ph k port 0, words := ws }

def execSubmit (q : Fin 64) (k : Fin 4) (port : Fin 6) (v : Word) (s : State) : Host.Outcome State Fault Refusal :=
  done s (s.submit q.val k port v)

/-! ### COMMAND packets (R423) -/

/-- A COMMAND that has passed the checks of R428, `since` its arrival: one slot for context STREAM, with REMAIN, from its arrival on,
as its budget (R374, R423). It is answered when admission has decided it; none while it has to wait for that (R381, R388, R401). -/
def State.remoteGo (s : State) (ahead : List Held) (pk : Packet) (since : Nat) : Option State :=
  let p := pk.part
  let ctx := pk.stream.toNat
  let ws := ((chunks 8 pk.payload).map (fun b => BitVec.ofNat 64 (leNat b)))
  let h := Hdr.parse ws
  let o := Origin.remote pk.src pk.tag
  let left := pk.remain.toNat - (s.now - since)
  let c := { s.slotCmd p ctx o ws with budget := left }
  let stop (s : State) (e : Nat) : State := (s.finish p ctx o h.target h.sig none e).nack pk e
  if !s.holdsCtx p ctx then some ((s.countDenied p pk.src.toNat).nack pk cPartitionFault)
  else
    match s.hdrFault p ws h with
    | some e => some (stop s e)
    | none =>
      let late := h.wait && !tallyReached (s.tally h.waitTally) (word h.waitValue)
      if left = 0 || late || decide ((s.ctx ctx).st ≠ .active) || h.target = tCol then some (stop s cRefused)
      else if !s.running pgSch || s.mustWait ahead c then none
      else
        match s.admitCmd c s.now with
        | (.accepted, s1) => some ((s1.bumpB p pgStx R.STX_REMOTE_CMDS 1).answer ptAck pk 0 [])
        | (.ended e, s1) => some (stop s1 e)
        | (.notYet, _) => none

/-- A COMMAND packet is taken, or held before admission. -/
def State.takeCommand (s : State) (pk : Packet) : State :=
  match s.remoteGo s.sch.held pk s.now with
  | some s1 => s1
  | none => s.addHeld
      { ctx := pk.stream.toNat, part := pk.part, origin := .remote pk.src pk.tag
        words := (chunks 8 pk.payload).map (fun b => BitVec.ofNat 64 (leNat b)), packet := some pk, since := s.now }

/-! ### Held admissions go on (R131, R191, R388) -/

/-- Whether no command is held ahead of number `i` for its context or its queue. -/
def State.heldHead (s : State) (i : Nat) (h : Held) : Bool :=
  ((s.sch.held.take i).filter s.hasArrived).all (fun g =>
    decide (g.ctx ≠ h.ctx) && decide (s.queueOf (s.heldCmd g) ≠ s.queueOf (s.heldCmd h)))

/-- When a held command would finish in the fluid schedule of its time control, were it admitted now (R388): 0 for one that admission
would end. -/
def State.heldFinish (s : State) (h : Held) : Nat :=
  let c := s.heldCmd h
  let (e, tcn) := s.queueOf c
  if s.refusedOutright c then 0
  else
    match (s.stageOf c).1 with
    | .ok prog x =>
      max (s.now * fluidScale) (s.fluidLast tcn e) + fluidTime x.beats ((s.tc tcn).unitsFor c.target c.square prog)
    | _ => 0

/-- Whether held command `i` is the next that its engine's entries go to: the first of its queue and, of the programs held for one
vector engine, the one whose time control R388 puts first (R191). -/
def State.heldFirst (s : State) (i : Nat) (h : Held) : Bool :=
  s.heldHead i h &&
  ((s.heldCmd h).target ≠ tVxe || s.sch.held.zipIdx.all (fun (g, k) =>
    k = i || decide ((s.queueOf (s.heldCmd g)).1 ≠ (s.queueOf (s.heldCmd h)).1) || !s.heldHead k g || !s.hasArrived g
      || (if k < i then decide (s.heldFinish h < s.heldFinish g) else decide (s.heldFinish h ≤ s.heldFinish g))))

/-- HELD_ADMISSION: held command `i` is staged again, with `now` this moment. -/
def State.heldGo (s : State) (i : Nat) : State :=
  match s.sch.held[i]? with
  | none => s
  | some h =>
    let ahead := s.sch.held.take i
    if !s.heldFirst i h then s
    else
      match h.origin, h.packet with
      | .port ph k port _, _ =>
        (match allSquares.find? (fun q => s.phys q = ph) with
          | none => s.dropHeld i
          | some q => ((s.dropHeld i).portGo ahead q ph k port h.ctx h.words).getD s)
      | .ring slot, _ =>
        if (s.ctx h.ctx).st ≠ .active then s.dropHeld i
        else if !s.running pgSch then s
        else ((s.dropHeld i).ringGo ahead h.part h.ctx slot h.words s.now).getD s
      | .remote _ _, some pk => ((s.dropHeld i).remoteGo ahead pk h.since).getD s
      | _, _ => s.dropHeld i

def execHeldAdmission (i : Nat) (s : State) : Host.Outcome State Fault Refusal := done s (s.heldGo i)

/-! ### Engines start commands (R163, R172, R192, R312, R357, R388) -/

/-- Whether a page serves its engine: RUNNING, or draining with DRAIN 1 (R71). -/
def State.serves (s : State) (pn : Nat) : Bool :=
  s.running pn || (decide ((s.page pn).st = .draining) && (s.page pn).drain)

/-- The self-gating bit of an engine (R145). -/
def gateBit : Engine → Option (Nat × Nat)
  | .mxe q u => some (q.val, u.val)
  | .vxe q u => some (q.val, 2 + u.val)
  | .mov q _ => some (q.val, 4)
  | _ => none

/-- A command wakes its engine. -/
def State.wake (s : State) (e : Engine) : State :=
  match gateBit e with
  | some (q, b) => s.setGated q b false
  | none => s

/-- The scheduler's own engine: the next SCH command whose turn has come. -/
def State.schStart (s : State) : State :=
  match (s.sch.jobs.filter (fun j => decide (j.target = tSch) && decide (j.phase = .queued))).find? s.eligible with
  | some j => if s.serves pgSch then s.startJob j.id else s
  | none => s

/-- ENGINE_COMMAND_START: the engine starts its next command, if it can start one. -/
def State.engineStart (s : State) (e : Engine) : State :=
  match e with
  | .mxe q u => if s.serves (pgMxe q.val u.val) then s.mxeStart q.val u.val else s
  | .vxe q u =>
    if !s.serves (pgVxe q.val u.val) || s.engineBusy (engineNum e) (fun _ => true) then s
    else
      (match s.nextFor (engineNum e) (fun _ => true) with
        | some j => s.startJob j.id
        | none => s)
  | .mov q c =>
    let here (j : Job) : Bool := decide (j.movCmd.chan = c.val)
    if !s.serves (pgMov q.val) || s.engineBusy (engineNum e) here then s
    else
      (match s.nextFor (engineNum e) (fun _ => true) with
        | some j => if here j then s.startJob j.id else s
        | none => s)
  | .sft q =>
    if !s.serves (pgSft q.val) || s.engineBusy (engineNum e) (fun _ => true) then s
    else
      (match s.nextFor (engineNum e) (fun _ => true) with
        | some j => s.startJob j.id
        | none => s)
  | .upd => s.updStart
  | .col => s.colStart
  | .sch => s.schStart

def execEngineCommandStart (e : Engine) (s : State) : Host.Outcome State Fault Refusal :=
  done s (if (s.engineStart e).sch.jobs = s.sch.jobs then s.engineStart e else (s.engineStart e).wake e)

/-- The idle-beat register of an engine, 0 for one that never gates itself. -/
def State.idleBeats (s : State) : Engine → Nat
  | .mxe q u => wbits (s.reg (pgMxe q.val u.val) R.MXE_GATE) 15 0
  | .vxe q u => wbits (s.reg (pgVxe q.val u.val) R.VXE_GATE) 15 0
  | .mov q _ => wbits (s.reg (pgMov q.val) R.MOV_GATE) 15 0
  | _ => 0

/-- ENGINE_SELF_GATE: a RUNNING engine without work has been idle for its IDLE_BEATS (R145, R166, R316). -/
def State.selfGate (s : State) (e : Engine) : State :=
  match gateBit e with
  | none => s
  | some (q, b) =>
    let pn := pgSq q (b + 1 + b01 (decide (b = 4)))
    if s.running pn && decide (0 < s.idleBeats e) && !(s.sch.jobs.any (fun j => decide (j.engine = engineNum e) && j.live)) then
      s.setGated q b true
    else s

def execEngineSelfGate (e : Engine) (s : State) : Host.Outcome State Fault Refusal := done s (s.selfGate e)

/-! ### Parity faults (R169, R170, R218, R248, R314, R369, R464) -/

/-- A parity fault of a vector engine: its program ends UNIT_FAULT, counted once against the square (R218). -/
def State.vxeParity (s : State) (q u : Nat) : State :=
  match s.vxeJob q u with
  | none => s.unitFault q
  | some j => (s.vxeBreak q u j.id j.vprog cUnitFault 15 (s.vxeEng q u).pc).unitFault q

/-- A parity fault of a mover channel: its command ends UNIT_FAULT, its window unspecified (R314). -/
def State.movParity (s : State) (q ch : Nat) : State :=
  match s.sch.jobs.find? (fun j => decide (j.target = tMov) && decide (j.square = q) && j.isRunning
      && decide (j.movCmd.chan = ch)) with
  | none => s.unitFault q
  | some j => (s.movBreak j cUnitFault sideNone (s.movAt j)).unitFault q

/-- A wrong bit in a stored word, whose mark is `m`: two make it uncorrectable (R118). -/
def worse (m : Nat) (double : Bool) : Nat := if double || decide (m ≠ 0) then 2 else 1

/-- A flit has failed its CRC on a hop from physical position p in `n` attempts (R139): each is resent, and every third failure
counts one UNIT_FAULT against the sending router's square (assumption 126). A router whose position bears no name has no page
to count on. -/
def State.hopFails (s : State) (p n : Nat) : State :=
  match s.nameAt p with
  | none => s
  | some q =>
    let s1 := s.bump (pgMesh q) R.MESH_RETRY n
    if n < 3 then s1 else s1.countFault (errSq q) (n / 3)

/-- An uncorrectable fault of the load path of port 5: its page enters FAULTED, and its work ends UNIT_FAULT (R70, R248). -/
def State.sftParity (s : State) (q : Nat) : State :=
  let mine (j : Job) : Bool := decide (j.target = tSft) && decide (j.square = q)
  (((s.endNoted mine cUnitFault).setSftWritten q 0).faultPage (pgSft q)).unitFault q

def State.parity (s : State) : ParityPlace → State
  | .mxeCell q u row col => s.mxeParity q.val u.val (s.parityHits q.val u.val row.val col.val true) (s.cellSlot q.val u.val row.val col.val)
    row.val 255 false
  | .mxeCol q u row col => s.mxeParity q.val u.val (s.parityHits q.val u.val row.val col.val false)
    (s.cellSlot q.val u.val row.val col.val) 255 col.val false
  | .mxeShared q u => s.mxeParity q.val u.val ((s.mxeEng q.val u.val).slots.map (·.2)) 0 255 255 true
  | .vxe q u => s.vxeParity q.val u.val
  | .mov q c => s.movParity q.val c.val
  | .sft q => s.sftParity q.val
  | .upd k => s.updParity k.val
  | .col => s.colParity
  | .spadWord p w d =>
    let k := p.val * (spadSize / 8) + w.val
    s.setSpadMark k (worse (s.spadMark k) d)
  | .pawnWord p k w d =>
    let i := 4 * p.val + k.val
    s.setPawnMark i (8 * w.val) (worse (s.pawnMark i (8 * w.val)) d)
  | .sftWord p b n w d =>
    let k := ((p.val * 2 + b.val) * 32 + n.val) * 512 + w.val
    { s with sft := { s.sft with mark := s.sft.mark.set (fun _ => 0) k (worse (s.sft.mark.get (fun _ => 0) k) d) } }
  | .memGranule g n => if g.toNat < s.memSize / 64 then s.setMemMark g.toNat (min 3 (s.memMark g.toNat + n.val)) else s
  | .meshHop p n => s.hopFails p.val n

/-- PARITY_FAULT: an error arises or is detected at a place. -/
def execParityFault (p : ParityPlace) (s : State) : Host.Outcome State Fault Refusal := done s (s.parity p)

/-! ### Completions (R382) and fallen flags (R389) -/

/-- What a completed command counts on its engine's page. -/
def State.countEnd (s : State) (j : Job) (code beats : Nat) : State :=
  let d := b01 (decide (code = cDone))
  let s := if code = cFlagFallen then s.noteEnd j code else s
  if j.target = tMxe then (s.bump (pgMxe j.square j.unit) R.MXE_DONE d).bump64 (pgMxe j.square j.unit) R.MXE_BUSY_LO beats
  else if j.target = tVxe then (s.bump (pgVxe j.square j.unit) R.VXE_DONE d).bump64 (pgVxe j.square j.unit) R.VXE_BUSY_LO beats
  else if j.target = tMov then (s.bump (pgMov j.square) R.MOV_DONE d).bump64 (pgMov j.square) R.MOV_BUSY_LO beats
  else if j.target = tSft then (if sftOp j.body = 2 then s else s.bump (pgSft j.square) R.SFT_LOADS d)
  else if j.target = tCol then
    let g := (ColCmd.parse j.body).grp
    if code = cFlagFallen then s.colFaultRegs j.part code (s.grp g).rank g false else s.bumpB j.part pgCol R.COL_DONE d
  else s

/-- The commands of a replay that have not completed. -/
def State.replayLeft (s : State) (parent : Nat) : List Job :=
  s.sch.jobs.filter (fun j => match j.origin with
    | .replay p => decide (p = parent)
    | _ => false)

/-- A recorded command of a replay has completed (R399): with a code other than DONE the replay ends with it, and the rest
never runs. -/
def State.replayEnd (s : State) (parent code : Nat) : State :=
  if code = cDone then s
  else
    let s1 := s.setJobs (s.sch.jobs.filter (fun j => match j.origin with
      | .replay p => decide (p ≠ parent)
      | _ => true))
    s1.endJob parent code

/-- A copy of the Arbiter's is over: one that fills a standby is made again until it succeeds, since the standby may not have its
partition yet (R539; DESIGN CHOICE, assumption 88). It leaves no record, and its context as it is. -/
def State.copyDone (s : State) (x : ArbCopy) (code : Nat) : State :=
  if x.fill && code ≠ cDone then { s with rcv := { s.rcv with copies := s.rcv.copies ++ [x] } } else s

/-- The completion of an ended command, of which its engine was busy for `beats`. -/
def State.completeNow (s : State) (id beats : Nat) : State :=
  match s.job? id with
  | none => s
  | some j =>
    match j.phase with
    | .ended c =>
      let code := if j.fell && c = cDone then cFlagFallen else c
      let s1 := s.setJobs (s.sch.jobs.filter (fun k => k.id ≠ id))
      let s2 := s1.countEnd j code beats
      (match j.origin with
        | .replay parent => s2.replayEnd parent code
        | .unit parent => s2.tileDone parent id code
        | .arbiter x => s2.copyDone x code
        | o =>
          let s3 := if j.fell then s2.record 0x12 j.part j.ctx (s2.now - j.promise) else s2
          s3.finish j.part j.ctx o j.target j.signal (some j.promise) code)
    | _ => s

/-- Whether command `k` completes before `j` on their engine: a vector engine's programs in the order of its queue (R192), a matrix
engine's commands of FULL mode in the order they started (R163). -/
def Job.before (k j : Job) : Bool :=
  decide (k.engine = j.engine) &&
  (if j.target = tVxe then
    (if k.order = 0 then j.order = 0 && !k.live && decide (k.id < j.id) else j.order = 0 || decide (k.order < j.order))
  else if j.target = tMxe then
    decide (0 < k.order) && decide (k.order < j.order) && k.tile.shape = 0 && j.tile.shape = 0
  else false)

/-- The members of a command's joined run, in the order they started; of any other command, itself (R173). -/
def State.runMates (s : State) (j : Job) : List Job :=
  if j.run = 0 then [j]
  else
    let ms := s.sch.jobs.filter (fun k => k.run = j.run)
    ((ms.map (fun k => (k.order, k.id))).foldr insertRun []).filterMap (fun x => s.job? x.2)

/-- The passes of the matrix engines end when nothing is left for them (R167). -/
def State.endPasses (s : State) : State := s.mxe.keys.foldl (fun s k => s.endPass (k / 2) (k % 2)) s

/-- A command completes, unless another of its engine has to before it; a joined run completes as one, its records in queue order
(R163, R173, R192). -/
def State.complete (s : State) (id beats : Nat) : State :=
  match s.job? id with
  | none => s
  | some j =>
    let ms := s.runMates j
    if ms.any Job.live || s.sch.jobs.any (fun k => !(ms.any (fun m => m.id = k.id)) && k.before j) then s
    else ((ms.zipIdx).foldl (fun s (m, i) => s.completeNow m.id (if i = 0 then beats else 0)) s).endPasses

/-- COMMAND_COMPLETION: command `id`, whose last write has been acknowledged, completes; its engine was busy with it for
`beats`. -/
def execCommandCompletion (id beats : Nat) (s : State) : Host.Outcome State Fault Refusal := done s (s.complete id beats)

/-- FLAG_FALLS: local time reaches the promise of a command that has not completed (R389). -/
def State.flagFalls (s : State) (id : Nat) : State :=
  match s.job? id with
  | none => s
  | some j =>
    let own : Bool := match j.origin with
      | .replay _ | .unit _ => false
      | _ => true
    if j.fell || j.promise = 0 || !own then s
    else
      (((((s.reach j.promise).modJob id (fun k => { k with fell := true })).statusOne j.part pgSch 4).setRegB j.part pgSch
        R.SCH_FLAG_CTX (word j.ctx)).bumpB j.part pgSch R.SCH_FLAGS 1)

def execFlagFalls (id : Nat) (s : State) : Host.Outcome State Fault Refusal := done s (s.flagFalls id)

/-! ### Scheduler commands run (R397 to R399) -/

/-- The running scheduler command with an opcode. -/
def State.schJob (s : State) (id op : Nat) : Option Job :=
  (s.job? id).filter (fun j => j.isRunning && decide (j.target = tSch) && decide (schOp j.body = op))

def execSchNop (id : Nat) (s : State) : Host.Outcome State Fault Refusal :=
  done s (match s.schJob id 0 with
    | some _ => s.endJob id cDone
    | none => s)

/-- SEG_OPEN (R397, R398). -/
def State.segOpen (s : State) (j : Job) : State :=
  let n := schSeg j.body
  if (s.ctx j.ctx).segOpen ∨ (s.seg n).isOpen then s.endJob j.id cBadDescriptor
  else
    ((s.setSeg n ⟨true, false, false, schBase j.body, schCap j.body, 0, j.ctx⟩).setCtx j.ctx
      { s.ctx j.ctx with seg := n, segOpen := true }).endJob j.id cDone

def execSegOpen (id : Nat) (s : State) : Host.Outcome State Fault Refusal :=
  done s (match s.schJob id 1 with
    | some j => s.segOpen j
    | none => s)

/-- SEG_CLOSE of the segment open on the command's context. -/
def State.segClose (s : State) (j : Job) : State :=
  let n := schSeg j.body
  let c := s.ctx j.ctx
  if !c.segOpen || decide (c.seg ≠ n) then s.endJob j.id cBadDescriptor
  else
    ((s.setSeg n { s.seg n with isOpen := false, closed := true }).setCtx j.ctx { c with seg := 0, segOpen := false }).endJob
      j.id cDone

def execSegClose (id : Nat) (s : State) : Host.Outcome State Fault Refusal :=
  done s (match s.schJob id 2 with
    | some j => s.segClose j
    | none => s)

/-- SEG_REPLAY completes DONE when the last of its recorded commands has (R399). -/
def execSegReplay (id : Nat) (s : State) : Host.Outcome State Fault Refusal :=
  done s (match s.schJob id 3 with
    | some j => if (s.replayLeft j.id).isEmpty then s.endJob id cDone else s
    | none => s)

/-! ### Context operations (R377) -/

/-- The context that a partition's window reaches, if it lies in the partition's range. -/
def State.selCtx (s : State) (p : Fin 16) : Option Nat :=
  let n := wbits (s.regB p pgSch R.SCH_CTX_SEL) 15 0
  if s.holdsCtx p n then some n else none

/-- A context operation by a requester. -/
def State.onCtx (s : State) (r : Req) (f : Fin 16 → Nat → State → State) : State :=
  s.asWrite r pgSch R.SCH_CTX_OP false (fun s =>
    match s.selCtx (s.reqPart r) with
    | none => s.cmdIgnored (s.reqPart r) pgSch
    | some n => f (s.reqPart r) n s)

/-- Whether an IDLE context may start: its rings in the partition's regions, its time control in its range. -/
def State.mayStart (s : State) (p : Fin 16) (c : Ctx) : Bool :=
  decide (c.ringLog2 ≤ 12) && c.ringBase % 4096 = 0 && c.cqBase % 4096 = 0
  && s.memAllowed p c.ringBase (256 * c.slots) && s.memAllowed p c.cqBase (16 * c.slots) && s.holdsTc p c.tc

def State.startCtx (p : Fin 16) (n : Nat) (s : State) : State :=
  let c := s.ctx n
  if c.st = .stopped ∨ (c.st = .idle ∧ s.mayStart p c) then s.setCtx n { c with st := .active } else s.cmdIgnored p pgSch

/-- STOP. A collective that has not been accepted ends ABORTED; admitted commands run on. -/
def State.stopCtx (p : Fin 16) (n : Nat) (s : State) : State :=
  let c := s.ctx n
  if c.st = .active ∨ c.st = .parked then
    let s1 := (s.colls.filter (fun co => decide (co.phase ≠ .accepted) && (s.job? co.job).any (fun j => j.ctx = n))).foldl
      (fun s co => s.colFail co.job cAborted) s
    ((s1.setCtx n { s1.ctx n with st := if (s1.ctx n).st = .faulted then .faulted else .stopped }).dropWaits n).dropRing n
  else s.cmdIgnored p pgSch

def State.outstanding (s : State) (n : Nat) : Bool := s.sch.jobs.any (fun j => j.ctx = n)

def State.resetCtx (p : Fin 16) (n : Nat) (s : State) : State :=
  let c := s.ctx n
  if (c.st = .stopped ∨ c.st = .faulted) ∧ ¬ s.outstanding n then
    s.setCtx n { c with st := .idle, head := 0, tail := 0, promise := 0 }
  else s.cmdIgnored p pgSch

def execStart (r : Req) (s : State) : Host.Outcome State Fault Refusal := done s (s.onCtx r State.startCtx)
def execStop (r : Req) (s : State) : Host.Outcome State Fault Refusal := done s (s.onCtx r State.stopCtx)
def execReset (r : Req) (s : State) : Host.Outcome State Fault Refusal := done s (s.onCtx r State.resetCtx)

/-! ### Windows (R376, R384, R447) -/

def CtxState.code : CtxState → Nat
  | .idle => 0
  | .active => 1
  | .parked => 2
  | .stopped => 3
  | .faulted => 4

/-- A context's entry as eight 64-bit words (R376). -/
def Ctx.words (c : Ctx) : List Nat :=
  [c.st.code + b01 c.stopOnRefuse * 2 ^ 3 + b01 c.intOnComplete * 2 ^ 4 + c.tc * 2 ^ 16 + c.ringLog2 * 2 ^ 28
      + c.budget * 2 ^ 32, c.ringBase, c.cqBase, c.head + c.tail * 2 ^ 16 + c.ctally.toNat * 2 ^ 32, c.promise,
    c.lastCode.toNat + c.seg * 2 ^ 8 + b01 c.segOpen * 2 ^ 18, 0, 0]

/-- Half `n` of a list of 64-bit words. -/
def halfOf (ws : List Nat) (n : Nat) : Word := word (nth 0 ws (n / 2) / 2 ^ (32 * (n % 2)))

/-- A context's RW fields after word `n` of its window is written. -/
def Ctx.write (c : Ctx) (n : Nat) (v : Word) : Ctx :=
  let x := v.toNat
  match n with
  | 0 => { c with stopOnRefuse := bitOf x 3, intOnComplete := bitOf x 4, tc := bitsOf x 27 16, ringLog2 := bitsOf x 31 28 }
  | 1 => { c with budget := x }
  | 2 => { c with ringBase := putBits c.ringBase 31 0 x }
  | 3 => { c with ringBase := putBits c.ringBase 47 32 x }
  | 4 => { c with cqBase := putBits c.cqBase 31 0 x }
  | 5 => { c with cqBase := putBits c.cqBase 47 32 x }
  | _ => c

/-- A write of word `n` of the context window: the RW fields, only while IDLE (R376). -/
def State.ctxData (s : State) (p : Fin 16) (n : Nat) (v : Word) : State :=
  match s.selCtx p with
  | none => s.cmdIgnored p pgSch
  | some i =>
    let c := s.ctx i
    if 5 < n then s else if c.st ≠ .idle then s.cmdIgnored p pgSch else s.setCtx i (c.write n v)

def execSchCtxData (r : Req) (n : Fin 16) (v : Word) (s : State) : Host.Outcome State Fault Refusal :=
  done s (s.asWrite r pgSch (R.SCH_CTX_DATA + 4 * n.val) false (fun s => s.ctxData (s.reqPart r) n.val v))

/-- A time control's entry as four 64-bit words (R384). -/
def Tc.words (t : Tc) : List Nat :=
  [t.uMe + t.uVe * 2 ^ 8 + t.uMov * 2 ^ 16 + t.uSft * 2 ^ 24 + t.uUpd * 2 ^ 32 + t.uCol * 2 ^ 40 + t.p * 2 ^ 48,
    t.squares.toNat, t.cmdLimit + t.tags * 2 ^ 32, t.link.toNat]

def Tc.ofWords (w : Nat → Nat) : Tc :=
  ⟨bitsOf (w 0) 6 0, bitsOf (w 0) 14 8, bitsOf (w 0) 22 16, bitsOf (w 0) 30 24, bitsOf (w 0) 38 32, bitsOf (w 0) 46 40,
    bitsOf (w 0) 53 48, BitVec.ofNat 64 (w 1), bitsOf (w 2) 23 0, bitsOf (w 2) 49 32, word (w 3)⟩

/-- A group's entry as three 64-bit words (R447). -/
def Grp.words (g : Grp) : List Nat :=
  [g.size + g.rank * 2 ^ 16 + g.width * 2 ^ 32 + b01 g.valid * 2 ^ 35, g.listAddr, g.seq]

/-- Puts words into the held data of a window in a partition's bank. -/
def State.loadWindow (s : State) (p : Fin 16) (pn off n : Nat) (ws : List Nat) : State :=
  (List.range n).foldl (fun s i => s.setRegB p pn (off + 4 * i) (halfOf ws i)) s

/-- A selector write (R400): outside its range, ignored; else the window shows the entry named. -/
def State.selector (s : State) (p : Fin 16) (pn off : Nat) (v : Word) : State :=
  let n := v.toNat
  if pn = pgSch ∧ off = R.SCH_CTX_SEL then
    if s.holdsCtx p (n % 2 ^ 16) then s.setRegB p pn off (word (n % 2 ^ 16)) else s.cmdIgnored p pn
  else if pn = pgSch ∧ off = R.SCH_TC_SEL then
    if s.holdsTc p (n % 2 ^ 12) then
      (s.setRegB p pn off (word (n % 2 ^ 12))).loadWindow p pn R.SCH_TC_DATA 8 (s.tc (n % 2 ^ 12)).words
    else s.cmdIgnored p pn
  else if pn = pgSch ∧ off = R.SCH_TALLY_SEL then
    if s.holdsTally p (n % 2 ^ 14) then s.setRegB p pn off (word (n % 2 ^ 14)) else s.cmdIgnored p pn
  else if pn = pgCol ∧ off = R.COL_GRP_SEL then
    if s.holdsGrp p (n % 2 ^ 10) then
      (s.setRegB p pn off (word (n % 2 ^ 10))).loadWindow p pn R.COL_GRP_DATA 6 (s.grp (n % 2 ^ 10)).words
    else s.cmdIgnored p pn
  else s

/-- The first numbers of a partition's ranges become its selectors on the SCH page, and on the COL page ("first of range", R400,
R470). -/
def State.firstSch (s : State) (p : Fin 16) : State :=
  let e := s.part p
  ((s.setRegB p pgSch R.SCH_CTX_SEL (word e.ctx.first)).setRegB p pgSch R.SCH_TC_SEL (word e.tc.first)).setRegB p pgSch
    R.SCH_TALLY_SEL (word e.tally.first)
def State.firstCol (s : State) (p : Fin 16) : State := s.setRegB p pgCol R.COL_GRP_SEL (word (s.part p).grp.first)

/-- The selectors of a page that has been reset stand at the first of each tenant's range. -/
def State.resetSelectors (s : State) (b : Block) : State :=
  match b with
  | .sch => tenants.foldl State.firstSch s
  | .col => tenants.foldl State.firstCol s
  | _ => s

def execSelectorWrite (r : Req) (off : BitVec 24) (v : Word) (s : State) : Host.Outcome State Fault Refusal :=
  let pn := off.toNat / 4096
  let o := off.toNat % 4096
  done s (s.asWrite r pn o false (fun s => s.selector (s.reqPart r) pn o v))

/-! ### Time-control commits (R385, R507) -/

/-- Input maximum in W and FIXED in 0.1 W of a variant (R3, R505). -/
def Variant.maxWatt : Variant → Nat
  | .kl8s4i => 2600
  | .kl8s2i => 2380
  | .kl6s4i => 2480
  | .kl4s4i => 2360

def Variant.fixedDw : Variant → Nat
  | .kl8s4i => 12560
  | .kl8s2i => 10320
  | .kl6s4i => 11320
  | .kl4s4i => 10080

/-- The 64ths of engines that a time control holds, weighted by 36 and 12 tenths of a watt (R505). -/
def Tc.weight (t : Tc) : Nat := 2 * popCount 64 t.squares.toNat * (36 * t.uMe + 12 * t.uVe)

/-- PR in 64ths of 0.1 W (R505). -/
def State.reserved64 (s : State) : Nat :=
  64 * s.sys.variant.fixedDw + (s.sch.tcs.keys.map (fun n => (s.tc n).weight)).sum

/-- Units of an engine kind over all time controls, on one square where the kind has squares. -/
def State.sumUnits (s : State) (f : Tc → Nat) (q : Option Nat) : Nat :=
  (s.sch.tcs.keys.map (fun n =>
    let t := s.tc n
    if (match q with
      | some q => t.hasSquare q
      | none => true) then f t else 0)).sum

/-- A sum over the time controls of a partition. -/
def State.sumMine (s : State) (p : Fin 16) (f : Tc → Nat) : Nat :=
  ((s.sch.tcs.keys.filter (s.holdsTc p)).map (fun n => f (s.tc n))).sum

/-- `RTE_TRANSIT` of a partition (R418). -/
def State.transitOf (s : State) (p : Fin 16) : Nat :=
  wbits (s.reg pgRte (R.RTE_TRANSIT + 4 * (p.val / 4))) (8 * (p.val % 4) + 5) (8 * (p.val % 4))

/-- The tests of R385 and R507 on the table as the commit would leave it. -/
def State.tcsOk (s : State) (before : State) (p : Fin 16) : Bool :=
  allSquares.all (fun q => [Tc.uMe, Tc.uVe, Tc.uMov, Tc.uSft].all (fun f => decide (s.sumUnits f (some q) ≤ 64)))
  && decide (s.sumUnits Tc.uUpd none ≤ 64) && decide (s.sumUnits Tc.uCol none ≤ 64)
  && decide (s.sumMine p Tc.p ≤ s.memSlots p) && decide (s.sumMine p Tc.tags ≤ s.tagQuota p)
  && decide (s.sumMine p Tc.slots + s.transitOf p ≤ s.linkSlots p)
  && (decide (s.reserved64 ≤ before.reserved64) || decide (s.reserved64 ≤ 640 * wbits (s.reg pgPwr R.PWR_CAP) 11 0))

/-- The reserved bits of the data words, and fields within their ranges. -/
def tcWordsOk (w : Nat → Nat) (t : Tc) : Bool :=
  [7, 15, 23, 31, 39, 47].all (fun i => !bitOf (w 0) i) && bitsOf (w 0) 63 54 = 0
  && bitsOf (w 2) 31 24 = 0 && bitsOf (w 2) 63 50 = 0 && bitsOf (w 3) 63 6 = 0
  && [t.uMe, t.uVe, t.uMov, t.uSft, t.uUpd, t.uCol].all (fun u => decide (u ≤ 64)) && decide (t.tags ≤ 131072)

/-- SCH_TC_COMMIT: the held words become time control `n`'s entry, or the commit is ignored (R385). A collective that joins has not
been admitted yet (R455). -/
def State.tcCommit (s : State) (p : Fin 16) (n : Nat) : State :=
  let d (i : Nat) : Nat := (s.regB p pgSch (R.SCH_TC_DATA + 4 * i)).toNat
  let w (i : Nat) : Nat := d (2 * i) + d (2 * i + 1) * 2 ^ 32
  let t := Tc.ofWords w
  let s1 := s.setTc n t
  if s.holdsTc p n && tcWordsOk w t && allSquares.all (fun q => !t.hasSquare q || decide (s.sqOwner q = p))
      && !(s.sch.jobs.any (fun j => decide (j.tc = n) && !s.joins j.id)) && s1.tcsOk s p then s1
  else s.cmdIgnored p pgSch

def execSchTcCommit (r : Req) (v : Word) (s : State) : Host.Outcome State Fault Refusal :=
  let p := s.reqPart r
  done s (s.asWrite r pgSch R.SCH_TC_COMMIT false (fun s =>
    if v.getLsbD 0 then s.tcCommit p (wbits (s.regB p pgSch R.SCH_TC_SEL) 11 0) else s))

/-! ### Doorbells and tallies (R380, R391, R393, R401) -/

/-- Runs a change now, or keeps it while the SCH page is not RUNNING (R401). -/
def State.orHold (s : State) (op : HeldOp) (f : State → State) : State :=
  if s.running pgSch then f s else { s with sch := { s.sch with heldOps := s.sch.heldOps ++ [op] } }

def State.ringBell (s : State) (ctx tail : Nat) : State := s.setCtx ctx { s.ctx ctx with tail := tail }

def execSchDoorbell (r : Req) (v : Word) (s : State) : Host.Outcome State Fault Refusal :=
  let p := s.reqPart r
  let c := wbits v 15 0
  let t := wbits v 31 16
  done s (s.asWrite r pgSch R.SCH_DOORBELL false (fun s =>
    if s.holdsCtx p c then s.orHold (.doorbell c t) (fun s => s.ringBell c t) else s.cmdIgnored p pgSch))

/-- The tally that a partition's selector names. -/
def State.selTally (s : State) (p : Fin 16) : Option Nat :=
  let n := wbits (s.regB p pgSch R.SCH_TALLY_SEL) 13 0
  if s.holdsTally p n then some n else none

def execSchTallyVal (r : Req) (v : Word) (s : State) : Host.Outcome State Fault Refusal :=
  let p := s.reqPart r
  done s (s.asWrite r pgSch R.SCH_TALLY_VAL false (fun s =>
    match s.selTally p with
    | some n => s.orHold (.tallySet n v) (fun s => s.setTally n v)
    | none => s.cmdIgnored p pgSch))

def execSchTallyAdd (r : Req) (v : Word) (s : State) : Host.Outcome State Fault Refusal :=
  let p := s.reqPart r
  done s (s.asWrite r pgSch R.SCH_TALLY_ADD false (fun s =>
    match s.selTally p with
    | some n => s.orHold (.tallyAdd n v) (fun s => s.setTally n (s.tally n + v))
    | none => s.cmdIgnored p pgSch))

/-- One change that was kept. A signal waits for the STX page alone (R403). -/
def State.applyHeld (s : State) (op : HeldOp) : State :=
  match op with
  | .doorbell c t => if s.running pgSch then s.ringBell c t else { s with sch := { s.sch with heldOps := s.sch.heldOps ++ [op] } }
  | .tallySet n v => s.orHold op (fun s => s.setTally n v)
  | .tallyAdd n v => s.orHold op (fun s => s.setTally n (s.tally n + v))
  | .signal p =>
    match s.signalArrives p with
    | (.refused c, s1) => if p.src = s.devId then s1 else s1.nack p c
    | (.held, s1) => s1
    | (.ok, s1) => if p.src = s.devId then s1 else s1.answer ptAck p 0 []

/-- The kept changes are applied when the SCH or the STX page reaches RUNNING (R401, R403). -/
def State.serveHeldOps (s : State) : State :=
  s.sch.heldOps.foldl State.applyHeld { s with sch := { s.sch with heldOps := [] } }

/-- Under DRAIN 0 of the SCH page, commands admitted but not dispatched end ABORTED (R401): an accepted collective with its group
(R465); one that joins has not been admitted. -/
def State.schAbort (s : State) : State :=
  let waits (j : Job) : Bool := decide (j.phase = .queued) && !s.joins j.id
  (s.colAbort (fun c => (s.job? c.job).any waits)).endNoted waits cAborted

end Sys2Proof.Machine
end

