-- ==== Sys2Proof/Machine/Pages.lean ====
section
/-!
DEFINITION. What a page's state machine does to its block (R65 to R74, R85, R144, R145, R147): enabling, draining, aborting
under DRAIN 0, resetting, owner changes and zeroing; and the header's interrupt and fault-counting registers (R68, R76, R77).
-/

namespace Sys2Proof.Machine

open Sys2Proof

/-! ### WRITE and READ packets at memory and scratchpads (R137, R342, R428) -/

/-- A request fails at its destination with a code: NACK, and a count on the scoresheet, which a denial has had where it was
found (R428). -/
def State.failPacket (s : State) (p : Packet) (code : Nat) : State :=
  (if code = cDataLost then s.countDenied p.part p.src.toNat else s).nack p code

/-- Serves a request to device memory or a scratchpad, and answers it; or finds that it must wait for a stack or a square's
mesh (R108). -/
def State.servePacket (s : State) (p : Packet) : Bool × State :=
  if p.type = ptRead then
    match s.localRead p.part none p.src.toNat p.addr.toNat p.len.toNat with
    | (.ok bs, s1) => (true, s1.answer ptData p 0 bs)
    | (.fail c, s1) => (true, s1.failPacket p c)
    | (.wait, s1) => (false, s1)
  else
    match s.localWrite p.part none p.src.toNat p.addr.toNat p.payload with
    | (.ok _, s1) => (true, s1.answer ptAck p 0 [])
    | (.fail c, s1) => (true, s1.failPacket p c)
    | (.wait, s1) => (false, s1)

/-- Serves a request, or keeps it. -/
def State.packetIn (s : State) (p : Packet) : State :=
  let (served, s1) := s.servePacket p
  if served then s1 else { s1 with fab := { s1.fab with heldIn := s1.fab.heldIn ++ [p] } }

/-- The kept requests are tried again, in order. -/
def State.serveIn (s : State) : State :=
  s.fab.heldIn.foldl State.packetIn { s with fab := { s.fab with heldIn := [] } }

/-- The kept requests of a stack end ABORTED (R345, `CTRL.DRAIN` = 0). -/
def State.abortIn (s : State) (k : Nat) : State :=
  let mine (p : Packet) : Bool :=
    match s.placeOf p.addr.toNat p.len.toNat with
    | .mem a => (granules a p.len.toNat).any (fun g => s.granStack g = k)
    | _ => false
  (s.fab.heldIn.filter mine).foldl (fun s p => s.nack p cAborted)
    { s with fab := { s.fab with heldIn := s.fab.heldIn.filter (fun p => !mine p) } }

/-! ### Aborting work under DRAIN 0 (R71 and each block's boundaries) -/

/-- Under DRAIN 0 a matrix engine's commands end ABORTED at once and write nothing to C, the open window's members with them (R184):
a started command that has not run stands at a boundary between K blocks, and one whose drain of C has begun has its result already
(`State.tileStep`). A running one is the last to fail (R186). -/
def State.mxeAbort (s : State) (q u : Nat) : State :=
  let e := s.mxeEng q u
  let mine (j : Job) : Bool := decide (j.engine = engineNo tMxe q u)
  let slot := if e.shape = 0 then 0 else (e.slots.getLast?.map (·.1)).getD 0
  let s1 := (s.endJobs mine cAborted).setMxeEng q u MxeEng.reset
  if s.sch.jobs.any (fun j => mine j && j.live) then s1.mxeLastFault q u cAborted slot 255 255 else s1

/-- A vector engine's queued programs end ABORTED, and the running one at a chain's end (R219). -/
def State.vxeAbort (s : State) (q u : Nat) : State :=
  let e := s.vxeEng q u
  let s1 := s.endNoted (fun j => decide (j.engine = engineNo tVxe q u) && decide (some j.id ≠ e.job)) cAborted
  match s1.vxeJob q u with
  | some j => if e.chain.isNone then s1.vxeEnd q u j.id cAborted 15 e.pc else s1
  | none => s1

/-- A mover's queued commands end ABORTED, and a running one that stands between two windows or chunks; any other ends at its
next boundary (R315). -/
def State.movAbort (s : State) (q : Nat) : State :=
  let mine (j : Job) : Bool := decide (j.engine = engineNo tMov q 0)
  let s1 := s.endNoted (fun j => mine j && decide (j.phase = .queued)) cAborted
  (s1.sch.jobs.filter (fun j => mine j && j.isRunning && decide (j.movCmd.op ≠ mPlan) && s1.atBoundary j)).foldl
    (fun s j => s.movEnd j cAborted sideNone (s.movAt j)) s1

/-- Port 5's load and queued commands end ABORTED; a running restore or sync completes first (R246). -/
def State.sftAbort (s : State) (q : Nat) : State :=
  let mine (j : Job) : Bool := decide (j.target = tSft) && decide (j.square = q)
  (s.endNoted (fun j => mine j && (decide (j.phase = .queued) || decide (sftOp j.body ≤ 1))) cAborted).setSftWritten q 0

/-- The commands of a pawn's ports that wait end ABORTED (R147). -/
def State.portsAbort (s : State) (ph : Nat) (k : Nat) : State :=
  s.endNoted (fun j => decide (j.phase = .queued) &&
    (match j.origin with
      | .port p k' _ _ => decide (p = ph) && decide (k'.val = k)
      | _ => false)) cAborted

/-- The square and the engine index of a square's page. -/
def sqOf (pn : Nat) : Nat := (pn - 0x100) / 16

/-- The coordinating update unit's page (R370). -/
def State.isCoord (s : State) (pn : Nat) : Bool :=
  match s.updCoord with
  | some k => decide (pn = pgUpd k)
  | none => false

/-- The work of a page ends ABORTED, as its block gives. -/
def State.pageAbort (s : State) (pn : Nat) : State :=
  match blockAt pn with
  | .mxe => s.mxeAbort (sqOf pn) (pn % 16 - 1)
  | .vxe => s.vxeAbort (sqOf pn) (pn % 16 - 3)
  | .mov => s.movAbort (sqOf pn)
  | .sft => s.sftAbort (sqOf pn)
  | .pwn => s.portsAbort (s.phys (sqOf pn)) (pn % 16 - 8)
  | .upd => if s.isCoord pn then s.updAbort else s
  | .mem => (s.discardHeld ((pn - 0x800) / 32)).abortIn ((pn - 0x800) / 32)
  | .col => s.colDrainAbort
  | .sch => s.schAbort
  | _ => s

/-- Whether a page's drain has nothing left to end (R71, R145, R184). -/
def State.drained (s : State) (pn : Nat) : Bool :=
  let q := sqOf pn
  let none (f : Job → Bool) : Bool := s.sch.jobs.all (fun j => !(f j && j.live))
  match blockAt pn with
  | .sq => ((sqPages q).drop 1).all (fun x => (s.page x).st = .off || (s.page x).st = .faulted || (s.page x).st = .retired)
  | .mxe => none (fun j => decide (j.engine = engineNo tMxe q (pn % 16 - 1)))
  | .vxe => none (fun j => decide (j.engine = engineNo tVxe q (pn % 16 - 3)))
  | .mov => none (fun j => decide (j.engine = engineNo tMov q 0))
  | .sft => none (fun j => decide (j.engine = engineNo tSft q 0))
  | .pwn => (s.pawn (s.phys q) (pn % 16 - 8)).halted && none (fun j =>
      match j.origin with
      | .port p k _ _ => decide (p = s.phys q) && decide (k.val = pn % 16 - 8)
      | _ => false)
  | .upd => !s.isCoord pn || none (fun j => decide (j.target = tUpd))
  | .col => none (fun j => decide (j.target = tCol))
  | .sch => none (fun j => decide (j.phase = .queued) && !s.joins j.id)
  | .hbr => s.fab.bars.isEmpty
  | _ => true

/-! ### Entering and leaving states -/

/-- A pawn halts (R147). -/
def State.haltPawn (s : State) (ph k : Nat) : State := s.setPawn ph k { s.pawn ph k with halted := true }

/-- A pawn waits for the answer of another device: its present instruction has not ended (R126). -/
def State.pawnOpen (s : State) (ph k : Nat) : Bool := s.fab.txs.any (fun t => t.owner = .pawn ph (Fin.ofNat 4 k))

/-- A pawn that drains halts, unless it is in the midst of an instruction, at whose end it will (R147). -/
def State.drainPawn (s : State) (ph k : Nat) : State := if s.pawnOpen ph k then s else s.haltPawn ph k

/-- A pawn leaves reset (R123, R147): machine mode at `PWN_BOOT`, as the published architecture resets the rest (assumption
20). DESIGN CHOICE: an odd `PWN_BOOT`, which R147 rules out ("2-byte aligned"), starts the pawn at that odd address (assumption
118). -/
def State.startPawn (s : State) (q k : Nat) : State :=
  let w := s.pawn (s.phys q) k
  { s with fab := { s.fab with txs := s.fab.txs.filter (fun t => t.owner ≠ TxOwner.pawn (s.phys q) (Fin.ofNat 4 k)) } }.setPawn
    (s.phys q) k { w with
    pc := BitVec.ofNat 64 (pawnBase + wbits (s.reg (pgPwn q k) R.PWN_BOOT) 15 0)
    mode := .machine, mstatus := 0, mcause := 0, reservation := none, wfi := false, halted := false }

/-- What a page does as it enters DRAINING, or is written while it drains: with DRAIN 0 its work ends; a batching window
closes at once (R184); a pawn halts (R147). -/
def State.whileDraining (s : State) (pn : Nat) : State :=
  let p := s.page pn
  if p.st ≠ .draining then s
  else
    let s1 := if blockAt pn = .pwn then s.drainPawn (s.phys (sqOf pn)) (pn % 16 - 8) else s
    if !p.drain then s1.pageAbort pn
    else if blockAt pn = .mxe then s1.windowClose (sqOf pn) (pn % 16 - 1)
    else s1

/-- What a page does as it enters RUNNING. -/
def State.whenRunning (s : State) (pn : Nat) : State :=
  match blockAt pn with
  | .sq => s.releaseSquare (sqOf pn)
  | .pwn => s.startPawn (sqOf pn) (pn % 16 - 8)
  | .mem => s.serveHeld.serveIn
  | .mesh => s.serveIn
  | .sch | .stx => s.serveHeldOps
  | .col => s.colServeHeld
  | .rte =>
    ({ s with fab := { s.fab with heldOut := [] } }.sendHeld s.fab.heldOut).takeRooms
  | .sft =>
    let q := sqOf pn
    if s.sft.leftOff.get (fun _ => false) (s.phys q) then s
    else
      let s1 := s.sftRestoreAll q
      { s1 with sft := { s1.sft with leftOff := s1.sft.leftOff.set (fun _ => false) (s1.phys q) true } }
  | _ => s

/-- Disables one page (R70). A link's STARTING page leaves its link at rest. -/
def State.disableOne (s : State) (pn : Nat) : State := (s.enableZero pn).whileDraining pn

/-- ENABLE written 0: on an SQ page, to every other page of the square as well (R145). -/
def State.disable (s : State) (pn : Nat) : State :=
  if blockAt pn = .sq then (((sqPages (sqOf pn)).drop 1).foldl State.disableOne s).disableOne pn else s.disableOne pn

/-! ### Resets of a page -/

/-- Registers of a page return to their reset values in every bank, and its fault-counting sets to the defaults (R73, R530).
`PAGE_OWNER` is no register of one page alone and stays. -/
def State.resetRegs (s : State) (pn : Nat) : State :=
  let there (k : Nat) : Bool := decide (k % 2 ^ 24 / 4096 ≠ pn)
  { s with drs := { s.drs with regs := s.drs.regs.keep there, errs := s.drs.errs.keep (fun k => decide (k / 4096 ≠ pn)) } }

/-- The block behind a page at reset, as far as its registers show it; the segment-table store keeps its contents (R248). -/
def State.resetBlock (s : State) (pn : Nat) : State :=
  let q := sqOf pn
  match blockAt pn with
  | .mxe => s.setMxeEng q (pn % 16 - 1) MxeEng.reset
  | .vxe => s.setVxeEng q (pn % 16 - 3) VxeEng.reset
  | .pwn => s.setPawn (s.phys q) (pn % 16 - 8) Pawn.reset
  | .mov => (List.range 4).foldl (fun s c => s.setMovChan q c MovChan.reset) s
  | .lnk => s.linkTo ((pn - 0xC00) / 4) Link.reset
  | _ => s

/-- The page ends OFF with every register at its reset value (R73). A change of STATE is signalled (R65). -/
def State.softReset (s : State) (pn : Nat) : State :=
  let lock := (s.page pn).lock
  let zero := (s.page pn).zeroing
  let s1 := ((s.resetBlock pn).resetRegs pn).resetSelectors (blockAt pn)
  s1.toPage pn { Page.reset with lock := lock, zeroing := zero }

/-! ### CTRL -/

/-- The block-specific bits of `CTRL` that hold a value (R175, R441). -/
def ctlMask : Block → Word
  | .mxe | .lnk => 0x100
  | _ => 0

/-- A write of `CTRL` (R65, R70 to R74, R346). A link that is enabled anew stands in RETRAIN (R407). -/
def State.writeCtrl (s : State) (p : Fin 16) (pn : Nat) (v : Word) : State :=
  let b := blockAt pn
  let pg := s.page pn
  if alwaysOn b || b = .mch then s
  else if v.getLsbD 2 then
    if pg.st = .off ∨ pg.st = .faulted then s.softReset pn else s.cmdIgnored p pn
  else if v.getLsbD 0 && (pg.st = .faulted || pg.st = .retired) then s.cmdIgnored p pn
  else
    let s1 := s.setPage pn { pg with drain := v.getLsbD 1, ctl := v &&& ctlMask b }
    let s2 := if b = .lnk && v.getLsbD 9 then s1.rekey ((pn - 0xC00) / 4) true else s1
    let s3 := if v.getLsbD 0 then (s2.enableOne pn).2.whileDraining pn else s2.disable pn
    if b = .lnk ∧ (s3.page pn).st = .starting ∧ (s3.link ((pn - 0xC00) / 4)).st = .down then
      s3.setLink ((pn - 0xC00) / 4) { s3.link ((pn - 0xC00) / 4) with st := .retrain }
    else s3

/-- ENABLE: a write of `CTRL` (R70). In the safe state a unit that is powered down takes none (R583). -/
def execEnable (r : Req) (pn : BitVec 12) (v : Word) (s : State) : Host.Outcome State Fault Refusal :=
  done s (s.asWrite r pn.toNat hCtrl false (fun s => if s.sys.devState = .safe then s else s.writeCtrl (s.reqPart r) pn.toNat v))

/-- SOFT_RESET: a write of `CTRL` that sets SOFT_RESET (R73). -/
def execSoftReset (r : Req) (pn : BitVec 12) (v : Word) (s : State) : Host.Outcome State Fault Refusal :=
  done s (s.asWrite r pn.toNat hCtrl false (fun s =>
    if s.sys.devState = .safe then s else s.writeCtrl (s.reqPart r) pn.toNat (v ||| 4)))

/-- INITIALISATION_COMPLETE (R70): a STARTING page enters RUNNING, or DRAINING when ENABLE is 0. A square waits until its
monitor reads the floor guard (R95), and a link starts by its bring-up alone (R406, R442). A stack that comes to drain under
`CTRL.DRAIN` 1 first completes the accesses it holds (R345). -/
def State.initialised (s : State) (pn : Nat) : State :=
  let p := s.page pn
  let slow := blockAt pn = .sq && decide (wbits (s.reg pgPwr (R.PWR_SQ + 4 * s.phys (sqOf pn))) 31 20 < 1520)
  if p.st ≠ .starting ∨ slow ∨ blockAt pn = .lnk ∨ blockAt pn = .mch ∨ ¬ s.present pn then s
  else if p.enable then (s.toPage pn { p with st := .running }).whenRunning pn
  else
    let s1 := if blockAt pn = .mem && p.drain then
        ((s.setPage pn { p with st := .running }).serveHeld.serveIn).setPage pn p
      else s
    (s1.toPage pn { p with st := .draining }).whileDraining pn

def execInitialisationComplete (pn : BitVec 12) (s : State) : Host.Outcome State Fault Refusal :=
  done s (s.initialised pn.toNat)

/-- Leaves DRAINING: to STARTING when ENABLE_PENDING is 1, else to OFF (R70). -/
def State.leaveDrain (s : State) (pn : Nat) : State :=
  let p := s.page pn
  let n := (pn - 0xC00) / 4
  let s0 := if blockAt pn = .lnk then s.linkDrained n else s
  let s1 := if blockAt pn = .lnk && p.pendingEn then s0.setLink n { s0.link n with st := .retrain } else s0
  s1.toPage pn { p with st := if p.pendingEn then .starting else .off, pendingEn := false }

/-- DRAIN_COMPLETE (R70, R71): nothing is left, and the page leaves DRAINING. -/
def State.drainDone (s : State) (pn : Nat) : State :=
  let p := s.page pn
  if p.st ≠ .draining then s
  else
    let s1 := if p.drain then s else s.pageAbort pn
    if s1.drained pn then s1.leaveDrain pn else s1

def execDrainComplete (pn : BitVec 12) (s : State) : Host.Outcome State Fault Refusal := done s (s.drainDone pn.toNat)

/-! ### Interrupt registers (R65, R68, R88) -/

/-- Bits of `INT_STATUS` that a block has (R65 and the pages' chapters). -/
def intBits : Block → Word
  | .dev => 0x1F
  | .arb => 0x7F
  | .rot | .rotT => 0x3F
  | .pwr => 0xFF
  | .pwrT => 0xF
  | .scr => 0x3F
  | .sq => 0x1F
  | .mxe => 0x7F
  | .vxe => 0x7F
  | .sft => 0x1FF
  | .mov => 0xFF
  | .spd => 0x3F
  | .pwn => 0x3F
  | .mesh => 0xF
  | .mem => 0x1FF
  | .mch => 0x7F
  | .upd => 0xFF
  | .lnk => 0xFF
  | .rte => 0x3F
  | .stx => 0x1F
  | .col => 0x7F
  | .hbr => 0x3F
  | .sch => 0xFF
  | .none => 0

/-- Clears the status bits that are written 1. -/
def State.clearStatus (s : State) (p : Fin 16) (pn : Nat) (v : Word) : State :=
  let b := intBank p pn
  s.setRegB b pn hIntStatus (s.regB b pn hIntStatus &&& ~~~v)

def execIntStatusClear (r : Req) (pn : BitVec 12) (v : Word) (s : State) : Host.Outcome State Fault Refusal :=
  done s (s.asWrite r pn.toNat hIntStatus false (fun s => s.clearStatus (s.reqPart r) pn.toNat v))

/-- INT_ENABLE: a bit enabled while its status bit is set raises the interrupt (R68), which the command's end sees. -/
def State.setIntEnable (s : State) (p : Fin 16) (pn : Nat) (v : Word) : State :=
  s.setRegB (intBank p pn) pn hIntEnable (v &&& intBits (blockAt pn))

def execIntEnable (r : Req) (pn : BitVec 12) (v : Word) (s : State) : Host.Outcome State Fault Refusal :=
  done s (s.asWrite r pn.toNat hIntEnable false (fun s => s.setIntEnable (s.reqPart r) pn.toNat v))

/-- INT_FORCE: the matching status bits are set as the events would set them (R68). -/
def State.forceInt (s : State) (p : Fin 16) (pn : Nat) (v : Word) : State :=
  let b := intBank p pn
  s.setRegB b pn hIntStatus (s.regB b pn hIntStatus ||| (v &&& intBits (blockAt pn)))

def execIntForce (r : Req) (pn : BitVec 12) (v : Word) (s : State) : Host.Outcome State Fault Refusal :=
  done s (s.asWrite r pn.toNat hIntForce false (fun s => s.forceInt (s.reqPart r) pn.toNat v))

/-! ### Fault counting (R75 to R77) -/

/-- The offset of a set within its page. -/
def setOff (base : Nat) : Nat := base % 4096

/-- The set that an offset names, if the device has it. -/
def State.errSet? (s : State) (off : Nat) : Option Nat :=
  if s.present (off / 4096) then errSetAt off else none

/-- ERR_WINDOW: LENGTH below 8 is ignored with CMD_IGNORED; any other write empties the buckets (R77). -/
def State.setErrWindow (s : State) (p : Fin 16) (base : Nat) (v : Word) : State :=
  let n := wbits v 23 0
  if n < 8 then s.cmdIgnored p (base / 4096)
  else
    let e := { s.err base with length := n, buckets := List.replicate 8 0 }
    s.setErr base { e with edge := s.now / e.period * e.period }

def execErrWindow (r : Req) (set : BitVec 24) (v : Word) (s : State) : Host.Outcome State Fault Refusal :=
  done s (match s.errSet? set.toNat with
    | none => s
    | some b => s.asWrite r (b / 4096) (setOff b) true (fun s => s.setErrWindow (s.reqPart r) b v))

/-- ERR_THRESHOLD: the buckets stay; a LIMIT already reached declares the fault lasting (R77). -/
def State.setErrThreshold (s : State) (base : Nat) (v : Word) : State :=
  (s.setErr base { s.err base with limit := wbits v 15 0 }).checkLasting base

def execErrThreshold (r : Req) (set : BitVec 24) (v : Word) (s : State) : Host.Outcome State Fault Refusal :=
  done s (match s.errSet? set.toNat with
    | none => s
    | some b => s.asWrite r (b / 4096) (setOff b) true (fun s => s.setErrThreshold b v))

/-- BUCKET_ADVANCE: a set's next bucket edge comes, and the buckets that have left the window go (R76). -/
def execBucketAdvance (set : BitVec 24) (s : State) : Host.Outcome State Fault Refusal :=
  done s (match s.errSet? set.toNat with
    | none => s
    | some b =>
      let t := (s.err b).nextEdge s.now
      (s.reach t).setErr b ((s.err b).advance t))

/-- LASTING_DECLARED: one more counted fault brings IN_WINDOW to LIMIT, and the fault is declared lasting (R76). -/
def execLastingDeclared (set : BitVec 24) (s : State) : Host.Outcome State Fault Refusal :=
  done s (match s.errSet? set.toNat with
    | none => s
    | some b =>
      let e := s.err b
      if e.limit ≠ 0 ∧ ¬ e.lasting ∧ e.limit ≤ e.inWindow + 1 then s.countFault b 1 else s)

/-! ### Owners and zeroing (R67, R476, R480) -/

/-- The stores of the square at physical position `ph` are cleared (R67, R480): scratchpad, pawn memories, pawns and their
command buffers. The built-in image returns (R227). -/
def State.zeroPhys (s : State) (ph : Nat) : State :=
  { s with
    squares := { s.squares with
      spad := s.squares.spad.keep (fun k => decide (k / spadSize ≠ ph))
      spadMark := s.squares.spadMark.keep (fun k => decide (k * 8 / spadSize ≠ ph))
      pawns := s.squares.pawns.keep (fun k => decide (k / 4 ≠ ph))
      pawnMem := s.squares.pawnMem.keep (fun k => decide (k % 2 ^ 40 / 0x20000 / 4 ≠ ph))
      pawnImage := s.squares.pawnImage.keep (fun k => decide (k / 4 ≠ ph))
      pawnMark := s.squares.pawnMark.keep (fun k => decide (k * 8 / 0x20000 / 4 ≠ ph))
      cmdBuf := s.squares.cmdBuf.keep (fun k => decide (k / 32 / 24 ≠ ph)) }
    sft := { s.sft with
      active := s.sft.active.set (fun _ => 0) ph 0
      slots := s.sft.slots.keep (fun k => decide (k / 64 ≠ ph))
      mark := s.sft.mark.keep (fun k => decide (k / 512 / 64 ≠ ph)) } }

/-- What else a square loses when it changes hands (R480): taps and accumulators, the mover's buffers and presence maps
(R316), and every swizzle window's VALID (R117). -/
def State.clearEngines (s : State) (q : Nat) : State :=
  let s1 := [0, 1].foldl (fun s u => (s.setMxeEng q u MxeEng.reset).setVxeEng q u VxeEng.reset) s
  let s2 := (List.range 4).foldl (fun s c => s.setMovChan q c MovChan.reset) s1
  (List.range 8).foldl (fun s n =>
    let o := R.SPD_SWZ_CFG + 8 * n
    s.setReg (pgSpd q) o (s.reg (pgSpd q) o &&& 0x7FFFFFFF)) s2

/-- A square's stores are zeroed. -/
def State.zeroSquare (s : State) (q : Nat) : State := (s.zeroPhys (s.phys q)).clearEngines q

/-- The commands that still wait for a square's engines end and complete ABORTED, so that its queues are empty (R174; DESIGN CHOICE,
assumption 131). -/
def State.emptyQueues (s : State) (q : Nat) : State :=
  let s1 := s.endNoted (Job.onSquare q) cAborted
  (s1.sch.jobs.filter (Job.onSquare q)).foldl (fun s j => s.completeNow j.id 0) s1

/-- A square passes to a partition: its queues are empty (R174), the generations of both holders rise (R479), ZEROING is set on its
pages, and its stores are cleared under R480. -/
def State.passSquare (s0 : State) (q : Nat) (p : Fin 16) : State :=
  let s := s0.emptyQueues q
  let old := s.sqOwner q
  let s1 := { s with squares := { s.squares with owner := s.squares.owner.set (fun _ => 0) q p } }
  let s2 := (s1.bumpGen old).bumpGen p
  let s3 := s2.zeroSquare q
  (sqPages q).foldl (fun s pn => s.setPage pn { s.page pn with zeroing := true }) s3

/-- The squares of a partition. -/
def State.squaresOf (s : State) (p : Fin 16) : List Nat := allSquares.filter (fun q => s.sqOwner q = p)

/-- PAGE_OWNER (R67, R476): a write with the present owner changes LOCK; another owner is accepted when LOCK was 0, every page
that is not RETIRED is OFF, a tenant named is CONFIGURING or ACTIVE, and no ACTIVE tenant loses its last square. Every other
write is ignored with CMD_IGNORED. -/
def State.writeOwner (s : State) (rp : Fin 16) (pn : Nat) (v : Word) : State :=
  let q := sqOf pn
  let p := Fin.ofNat 16 (wbits v 3 0)
  let old := s.sqOwner q
  let pg := s.page pn
  let lock := v.getLsbD 8
  if p = old then s.setPage pn { pg with lock := lock }
  else
    let still := (sqPages q).all (fun x => (s.page x).st = .off || (s.page x).st = .retired)
    let taker := p = 0 || (s.part p).st = .configuring || (s.part p).st = .active
    let loser := old = 0 || (s.part old).st ≠ .active || decide (1 < (s.squaresOf old).length)
    if !pg.lock && still && taker && loser then
      let s1 := s.passSquare q p
      s1.setPage pn { s1.page pn with lock := lock }
    else s.cmdIgnored rp pn

/-- PAGE_OWNER: elsewhere than on an SQ page OWNER is read-only, and LOCK alone is written. -/
def execPageOwner (r : Req) (pn : BitVec 12) (v : Word) (s : State) : Host.Outcome State Fault Refusal :=
  done s (s.asWrite r pn.toNat hOwner true (fun s =>
    if blockAt pn.toNat = .sq then s.writeOwner (s.reqPart r) pn.toNat v
    else s.setPage pn.toNat { s.page pn.toNat with lock := v.getLsbD 8 }))

/-- ZEROING_DONE (R67, R70): ZEROING clears on the square's pages, and the enables that waited for it are released. -/
def State.zeroed (s : State) (q : Nat) : State :=
  if !(s.page (pgSq q 0)).zeroing then s
  else
    ((sqPages q).foldl (fun s pn => s.setPage pn { s.page pn with zeroing := false }) s).releaseSquare q

def execZeroingDone (q : Fin 64) (s : State) : Host.Outcome State Fault Refusal := done s (s.zeroed q.val)

/-! ### DEV_ID (R83) -/

/-- DEV_ID: ignored with CMD_IGNORED while any LNK page is not OFF. DESIGN CHOICE: DEVICE_ID[15:14], which R81 says are zero, are
kept as they are written (assumption 116). -/
def State.writeDevId (s : State) (p : Fin 16) (v : Word) : State :=
  if (List.range 64).all (fun n => !s.linkFitted n || (s.page (pgLnk n)).st = .off) then
    s.setReg pgDev R.DEV_ID (v &&& 0x8000FFFF)
  else s.cmdIgnored p pgDev

def execDevId (r : Req) (v : Word) (s : State) : Host.Outcome State Fault Refusal :=
  done s (s.asWrite r pgDev R.DEV_ID true (fun s => s.writeDevId (s.reqPart r) v))

/-! ### Swizzle windows (R115 to R117) -/

/-- Whether window n of square q, with these registers, may be valid beside the others (R116). -/
def State.swizzleOk (s : State) (q n base cfg : Nat) : Bool :=
  let rows := bitsOf cfg 9 0
  decide (0 < rows) && decide (base + rows ≤ 768) && decide (bitsOf cfg 18 16 ≤ 4)
  && (List.range 8).all (fun m =>
    let c := s.reg (pgSpd q) (R.SPD_SWZ_CFG + 8 * m)
    let b := wbits (s.reg (pgSpd q) (R.SPD_SWZ_BASE + 8 * m)) 9 0
    m = n || !c.getLsbD 31 || decide (base + rows ≤ b) || decide (b + wbits c 9 0 ≤ base))

/-- SPD_SWZ_WRITE (R116, R117): takes effect only while the SPD page is OFF and the window that results, if valid, may stand;
else ignored with CMD_IGNORED. -/
def State.writeSwizzle (s : State) (p : Fin 16) (q n : Nat) (cfg : Bool) (v : Word) : State :=
  let pn := pgSpd q
  let b := R.SPD_SWZ_BASE + 8 * n
  let c := R.SPD_SWZ_CFG + 8 * n
  let base := if cfg then wbits (s.reg pn b) 9 0 else wbits v 9 0
  let conf := if cfg then v &&& 0x800703FF else s.reg pn c
  if (s.page pn).st ≠ .off ∨ (conf.getLsbD 31 ∧ ¬ s.swizzleOk q n base conf.toNat) then s.cmdIgnored p pn
  else if cfg then s.setReg pn c conf
  else s.setReg pn b (word base)

def execSpdSwzWrite (r : Req) (q : Fin 64) (n : Fin 8) (cfg : Bool) (v : Word) (s : State) :
    Host.Outcome State Fault Refusal :=
  let off := (if cfg then R.SPD_SWZ_CFG else R.SPD_SWZ_BASE) + 8 * n.val
  done s (s.asWrite r (pgSpd q.val) off false (fun s => s.writeSwizzle (s.reqPart r) q.val n.val cfg v))

/-- TOL_EXP (R187). -/
def execTolExp (r : Req) (q : Fin 64) (u : Fin 2) (v : Word) (s : State) : Host.Outcome State Fault Refusal :=
  done s (s.asWrite r (pgMxe q.val u.val) R.MXE_CHECK true (fun s => s.setTolExp (s.reqPart r) q.val u.val v))

end Sys2Proof.Machine
end

