-- ==== Sys2Proof/Machine/Rot.lean ====
section
/-!
DEFINITION. The root of trust (R472 to R500): requests on the ROT pages, served one at a time in arrival order; the partition
table; teardown and the reopening of debug; weight and ephemeral keys; attestation.
-/

namespace Sys2Proof.Machine

open Sys2Proof

/-! ### Result codes (R500) -/

def rOk : Nat := 0
def rBadState : Nat := 1
def rBadArg : Nat := 2
def rOverlap : Nat := 3
def rInUse : Nat := 4
def rDenied : Nat := 5
def rBarred : Nat := 6
def rStale : Nat := 7
def rNoKey : Nat := 8

/-- Bytes of a buffer of 512 registers. -/
def State.bufBytes (s : State) (p : Fin 16) (pn off n : Nat) : List Byte :=
  ((List.range 512).flatMap (fun i => leBytes 4 (s.regB p pn (off + 4 * i)).toNat)).take n

/-- Fills a buffer of 512 registers. -/
def State.fillBuf (s : State) (p : Fin 16) (pn off : Nat) (bs : List Byte) : State :=
  (List.range 512).foldl (fun s i => s.setRegB p pn (off + 4 * i) (word (leNat ((bs.drop (4 * i)).take 4)))) s

/-! ### What a change of holder clears (R480) -/

/-- Contexts, time controls, tallies, segments and groups return to their reset values. -/
def State.clearCtxs (s : State) (out : Nat → Bool) : State :=
  let kept (n : Nat) : Bool := !out n
  { s with sch := { s.sch with
      ctxs := s.sch.ctxs.keep kept
      waits := s.sch.waits.filter (fun w => kept w.ctx)
      held := s.sch.held.filter (fun h => kept h.ctx)
      heldOps := s.sch.heldOps.filter (fun o => match o with
        | .doorbell c _ => kept c
        | _ => true) } }

def State.clearTcs (s : State) (out : Nat → Bool) : State :=
  let kept (n : Nat) : Bool := !out n
  { s with sch := { s.sch with
      tcs := s.sch.tcs.keep kept
      busy := s.sch.busy.keep (fun k => kept (k / 4096))
      busyMem := s.sch.busyMem.keep kept
      busyLink := s.sch.busyLink.keep kept
      fluid := s.sch.fluid.keep (fun k => kept (k / 4096)) } }

def State.clearTallies (s : State) (out : Nat → Bool) : State :=
  let kept (n : Nat) : Bool := !out n
  { s with sch := { s.sch with
      tallies := s.sch.tallies.keep kept
      heldOps := s.sch.heldOps.filter (fun o => match o with
        | .tallySet n _ => kept n
        | .tallyAdd n _ => kept n
        | _ => true) } }

def State.clearSegs (s : State) (out : Nat → Bool) : State :=
  { s with sch := { s.sch with segs := s.sch.segs.keep (fun n => !out n) } }

def State.clearGrps (s : State) (out : Nat → Bool) : State :=
  { s with col := { s.col with groups := s.col.groups.keep (fun n => !out n) } }

/-- A DECRYPT that runs with the key of a slot, which is gone, ends KEY_ABSENT at its next chunk boundary: now, if it stands at
one (R302, R493). -/
def State.dropKeyUsers (s : State) (slot : Nat) : State :=
  (s.sch.jobs.filter (fun j => decide (j.target = tMov) && j.isRunning && decide (j.movCmd.op = mDecrypt)
    && decide (j.movCmd.keySlot = slot))).foldl (fun s j =>
      if s.atBoundary j then s.movEnd j cKeyAbsent sideKey (s.movAt j) else s.modMov j (fun ch => { ch with keyGone := true })) s

/-- A weight key slot takes a key or loses its own. -/
def State.setKey (s : State) (slot : Nat) (k : Option WeightKey) : State :=
  let s1 := if (s.keySlot slot).isSome then s.dropKeyUsers slot else s
  { s1 with pt := { s1.pt with keys := s1.pt.keys.set (fun _ => none) slot k } }

def State.eph? (s : State) (p : Fin 16) (slot : Nat) : Option Eph := s.rot.eph.get (fun _ => none) (p.val * 256 + slot)

def State.setEph (s : State) (p : Fin 16) (slot : Nat) (e : Option Eph) : State :=
  { s with rot := { s.rot with eph := s.rot.eph.set (fun _ => none) (p.val * 256 + slot) e } }

/-- Weight keys of some slots, and every partition's ephemeral keys for them, are destroyed. -/
def State.clearKeys (s : State) (out : Nat → Bool) : State :=
  let s1 := (s.pt.keys.keys.filter out).foldl (fun s n => s.setKey n none) s
  { s1 with rot := { s1.rot with eph := s1.rot.eph.keep (fun k => !out (k % 256)) } }

/-- Everything of the numbers in some ranges is cleared. -/
def State.clearRanges (s : State) (c t y g r k : Nat → Bool) : State :=
  (((((s.clearCtxs c).clearTcs t).clearTallies y).clearSegs g).clearGrps r).clearKeys k

/-! ### The entry as registers show it (R498) -/

/-- The codes of R472. -/
def PartState.code : PartState → Nat
  | .free => 0
  | .configuring => 1
  | .active => 2
  | .teardown => 3

/-- Regions of the device (R342). -/
def State.regions (s : State) : Nat := 64 * s.nStacks

/-- The words of `ROT_PT_DATA` for a partition. -/
def State.ptWords (s : State) (p : Fin 16) : List Nat :=
  let e := s.part p
  let sq := ((s.squaresOf p).map (fun q => 2 ^ q)).sum
  let r (f : Part → Range) (size : Nat) : Range := s.rangeOf f size p
  let c := r Part.ctx 65536
  let two (x : Range) (hi : Nat) : Nat := x.first + x.count * 2 ^ hi
  [e.st.code, e.gen.toNat, sq % 2 ^ 32, sq / 2 ^ 32, c.first, c.count, two (r Part.tc 4096) 16, two (r Part.tally 16384) 16,
    two (r Part.seg 1024) 10, two (r Part.grp 1024) 10, two (r Part.key 256) 8, s.tagQuota p, s.meshMask p,
    ((List.range s.regions).filter (s.regionHeldBy p)).length, e.peers.length, 0]

/-- A completed request raises the generation of the entry if it changed the entry (R479). -/
def State.bumpChanged (s : State) (p : Fin 16) (old : Part) : State := if s.part p = old then s else s.bumpGen p

/-! ### PT_RANGES (R474, R475, R480) -/

/-- The ranges that the argument words give. -/
def rangesOf (a : List Word) (e : Part) : Part :=
  let w (i : Nat) : Nat := (nth 0#32 a i).toNat
  { e with
    ctx := ⟨bitsOf (w 0) 15 0, bitsOf (w 1) 16 0⟩
    tc := ⟨bitsOf (w 2) 11 0, bitsOf (w 2) 28 16⟩
    tally := ⟨bitsOf (w 3) 13 0, bitsOf (w 3) 30 16⟩
    seg := ⟨bitsOf (w 4) 9 0, bitsOf (w 4) 20 10⟩
    grp := ⟨bitsOf (w 5) 9 0, bitsOf (w 5) 20 10⟩
    key := ⟨bitsOf (w 6) 7 0, bitsOf (w 6) 16 8⟩
    tags := bitsOf (w 7) 17 0 }

/-- The bits that have a field in each word. -/
def argMasks (op : Nat) : List Nat :=
  if op = 2 then [0xFFFF, 0x1FFFF, 0x1FFF0FFF, 0x7FFF3FFF, 0x1FFFFF, 0x1FFFFF, 0x1FFFF, 0x3FFFF]
  else if op = 3 then [0xFFFF, 0xFFFFFFFF, 0x7FFFFFFF, 0xFFFFFFFF, 0x7FFFFFFF]
  else if op = 4 then [0x1FF, 0x3FF, 1]
  else if op = 5 then [0x1FF]
  else if op = 8 then [0x7F]
  else []

/-- No argument word of a request has a bit set that has no field. -/
def argsOk (op : Nat) (a : List Word) : Bool :=
  (argMasks op).zipIdx.all (fun (m, i) => decide ((nth 0#32 a i).toNat &&& m = (nth 0#32 a i).toNat))

/-- Two ranges have a number in common. -/
def Range.meets (a b : Range) : Bool :=
  decide (0 < a.count) && decide (0 < b.count) && decide (a.first < b.first + b.count) && decide (b.first < a.first + a.count)

/-- The ranged resources and their sizes (R473). -/
def ranged : List ((Part → Range) × Nat) :=
  [(Part.ctx, 65536), (Part.tc, 4096), (Part.tally, 16384), (Part.seg, 1024), (Part.grp, 1024), (Part.key, 256)]

def State.ptRanges (s : State) (p : Fin 16) (a : List Word) : Nat × State :=
  let old := s.part p
  let new := rangesOf a old
  let others := tenants.filter (· ≠ p)
  let s1 := s.setPart p new
  if !argsOk 2 a || ranged.any (fun x => decide (x.2 < (x.1 new).first + (x.1 new).count)) then (rBadArg, s)
  else if others.any (fun t => ranged.any (fun x => (x.1 new).meets (x.1 (s.part t)))) then (rOverlap, s)
  else if 131072 < (others.map (fun t => (s.part t).tags)).sum + new.tags then (rBadArg, s)
  else if s1.tagQuota 0 < s1.sumMine 0 Tc.tags then (rInUse, s)
  else
    let moved (f : Part → Range) (n : Nat) : Bool := (f old).has n ≠ (f new).has n
    let s2 := s1.clearRanges (moved Part.ctx) (moved Part.tc) (moved Part.tally) (moved Part.seg) (moved Part.grp)
      (moved Part.key)
    (rOk, if s2.part p = old then s else (((s2.firstSch p).firstCol p).bumpGen p).bumpGen 0)

/-! ### PT_SHARES (R474, R475) -/

def State.ptShares (s : State) (p : Fin 16) (a : List Word) : Nat × State :=
  let w (i : Nat) : Nat := (nth 0#32 a i).toNat
  let mesh := w 0
  let mem := w 1 + w 2 * 2 ^ 32
  let lnk := w 3 + w 4 * 2 ^ 32
  let e := s.part p
  let outside (mine want : Nat) : Bool := decide (want &&& mine ≠ want)
  let s1 := s.setPart p { e with
    mesh := e.mesh ||| BitVec.ofNat 16 mesh, memSlots := e.memSlots ||| BitVec.ofNat 64 mem
    linkSlots := e.linkSlots ||| BitVec.ofNat 64 lnk }
  if !argsOk 3 a then (rBadArg, s)
  else if outside (s.meshMask 0) mesh || outside (s.memMask 0) mem || outside (s.linkMask 0) lnk then (rOverlap, s)
  else if s1.meshSlots p = 0 then (rBadArg, s)
  else if s1.meshSlots 0 = 0 then (rInUse, s)
  else if s1.memSlots 0 < s1.sumMine 0 Tc.p || s1.linkSlots 0 < s1.sumMine 0 Tc.slots + s1.transitOf 0
    || s1.tagQuota 0 < s1.sumMine 0 Tc.tags then (rInUse, s)
  else (rOk, if s1.part p = e then s else ((s1.bumpGen p).bumpGen 0).serveHeld.serveIn.takeRooms)

/-! ### PT_REGIONS (R474, R475, R477) -/

/-- PT_REGIONS as it is taken up: none when overwrites have begun; the regions to move are cut off at once. -/
def State.ptRegions (s : State) (p : Fin 16) (a : List Word) : Option Nat × State :=
  let first := (nth 0#32 a 0).toNat
  let count := (nth 0#32 a 1).toNat
  let back := (nth 0#32 a 2).getLsbD 0
  let owner (x : Nat) : Fin 16 := s.mem.regionOwner.get (fun _ => 0) x
  let xs := span first count
  let moves := xs.filter (fun x => if back then owner x ≠ 0 else owner x ≠ p)
  if !argsOk 4 a || xs.any (fun x => decide (s.regions ≤ x)) then (some rBadArg, s)
  else if moves.any (fun x => if back then owner x ≠ p else owner x ≠ 0) then (some rOverlap, s)
  else if moves.isEmpty then (some rOk, s)
  else
    let dest : Fin 16 := if back then 0 else p
    (none, { s with mem := { s.mem with cutOff := s.mem.cutOff ++ moves.map (fun x => (x, dest)) } })

/-! ### PT_PEERS (R475, R498) -/

/-- The ranges of a peer list. -/
def peerRanges (n : Nat) (buf : List Byte) : List (Nat × Nat) :=
  (List.range n).map (fun i => (leNat ((buf.drop (4 * i)).take 2), leNat ((buf.drop (4 * i + 2)).take 2)))

/-- Each range in order, without [15:14], wholly above the one before it. -/
def peersOk : Option Nat → List (Nat × Nat) → Bool
  | _, [] => true
  | lo, (a, b) :: t =>
    decide (a ≤ b) && decide (b < 2 ^ 14) && (match lo with
      | none => true
      | some l => decide (l < a)) && peersOk (some b) t

def State.ptPeers (s : State) (p : Fin 16) (a : List Word) (buf : List Byte) : Nat × State :=
  let n := (nth 0#32 a 0).toNat
  let rs := peerRanges n buf
  if !argsOk 5 a || decide (256 < n) || !peersOk none rs then (rBadArg, s)
  else (rOk, (s.setPart p { s.part p with peers := rs }).bumpChanged p (s.part p))

/-! ### Teardown (R481) -/

/-- Requests of a bank that still wait. -/
def State.finishReq (s : State) (r : RotReq) (code : Nat) (data : List Byte) : State :=
  match r.bank with
  | none => (s.setReg pgRot R.ROT_REQ_STATUS (word code)).statusOne 0 pgRot 4
  | some b =>
    let s1 := s.setRegB b pgRotT R.ROT_T_STATUS (word (code + data.length % 2 ^ 23 * 2 ^ 8))
    let s2 := { s1 with rot := { s1.rot with results := s1.rot.results.set (fun _ => []) b.val data } }
    let off := (s2.regB b pgRotT R.ROT_T_OFFSET).toNat
    let s3 := if data.isEmpty then s2 else s2.fillBuf b pgRotT R.ROT_T_BUF (data.drop off)
    s3.statusOne b pgRotT 4

/-- The tenant requests of a partition in teardown end BAD_STATE. -/
def State.refuseTenant (s : State) (p : Fin 16) : State :=
  let hit (r : RotReq) : Bool := r.bank = some p && !r.started
  let s1 := { s with rot := { s.rot with queue := s.rot.queue.filter (fun r => !hit r) } }
  (s.rot.queue.filter hit).foldl (fun s r => s.finishReq r rBadState []) s1

/-- A context of a partition in teardown is STOPPED, whatever it was. -/
def State.haltCtx (p : Fin 16) (s : State) (n : Nat) : State :=
  match (s.ctx n).st with
  | .stopped => s
  | .idle | .faulted => s.setCtx n { s.ctx n with st := .stopped }
  | _ => State.stopCtx p n s

/-- Steps 1 and 2: the partition admits nothing, every context is STOPPED, every page of its squares drains with DRAIN 0,
and its admitted commands end ABORTED, the running ones at the boundaries of their blocks; running collectives send ABORT. -/
def State.teardownBegin (s : State) (p : Fin 16) : State :=
  let s1 := s.setPart p { s.part p with st := .teardown }
  let s2 := (span (s.part p).ctx.first (s.part p).ctx.count).foldl (State.haltCtx p) s1
  let s3 := (s2.squaresOf p).foldl (fun s q =>
    ((sqPages q).foldl (fun s pn => s.setPage pn { s.page pn with drain := false }) s).disable (pgSq q 0)) s2
  let s4 := s3.colAbort (fun c => c.part = p)
  let s5 := (s4.sch.jobs.filter (fun j => decide (j.target = tUpd) && decide (j.part = p) && j.live)).foldl
    (fun s j => if j.isRunning && !j.layer.host then s.updCut j.id else s.updEnd j.id cAborted noBlock) s4
  let s6 := (s5.endNoted (fun j => decide (j.part = p)
    && (decide (j.phase = .queued) || decide (j.target = tSch) || decide (j.target = tCol))) cAborted).dropEndedTxs
  { s6 with sch := { s6.sch with held := s6.sch.held.filter (fun h => h.part ≠ p) } }.refuseTenant p

/-- Step 2 has ended: no command of the partition runs, and no page of its squares drains. -/
def State.teardownReady (s : State) (p : Fin 16) : Bool :=
  s.sch.jobs.all (fun j => decide (j.part ≠ p) || !j.live) && (s.squaresOf p).all (fun q => (sqPages q).all (fun x =>
    (s.page x).st = .off || (s.page x).st = .faulted || (s.page x).st = .retired))

/-- The regions of a partition pass to partition 0 and read as unrelated data (R343). -/
def State.eraseRegions (s : State) (p : Fin 16) : State :=
  ((List.range s.regions).filter (fun x => s.mem.regionOwner.get (fun _ => 0) x = p)).foldl (fun s x =>
    let s1 := s.cryptoErase x
    { s1 with mem := { s1.mem with regionOwner := s1.mem.regionOwner.set (fun _ => 0) x 0 } }) s

/-- Every register of a partition's bank returns to its reset value; what the tenant wrote there is not readable by the next
(R480). -/
def State.clearBank (s : State) (p : Fin 16) : State :=
  { s with drs := { s.drs with regs := s.drs.regs.keep (fun k => decide (k / 2 ^ 24 ≠ p.val)) } }

/-- A partition's entries and buffered events leave the scoresheet (R480, R518). -/
def State.clearSheet (s : State) (p : Fin 16) : State :=
  { s with score := { s.score with
      entries := s.score.entries.filter (fun e => e.part ≠ p)
      buffer := s.score.buffer.filter (fun e => e.part ≠ p)
      clears := s.score.clears.filter (fun c => c.1 ≠ p)
      seq := s.score.seq.set (fun _ => 0) p.val (s.score.seq.get (fun _ => 0) p.val + 2) } }

/-- One square returns to partition 0: FAULTED pages are reset, LOCK clears, and the zeroing completes (step 4). -/
def State.returnSquare (s : State) (q : Nat) : State :=
  let s1 := (sqPages q).foldl (fun s pn => if (s.page pn).st = .faulted then s.softReset pn else s) s
  let s2 := s1.setPage (pgSq q 0) { s1.page (pgSq q 0) with lock := false }
  (s2.passSquare q 0).zeroed q

/-- Steps 3 to 6. -/
def State.teardownEnd (s : State) (p : Fin 16) : State :=
  let e := s.part p
  let s1 := { s with mem := { s.mem with keys := s.mem.keys &&& ~~~(BitVec.ofNat 16 (2 ^ p.val)) } }
  let s2 := s1.eraseRegions p
  let s3 := { s2 with rot := { s2.rot with
    eph := s2.rot.eph.keep (fun k => decide (k / 256 ≠ p.val))
    results := s2.rot.results.set (fun _ => []) p.val [] } }
  let s4 := (s3.squaresOf p).foldl State.returnSquare s3
  let s5 := s4.clearRanges e.ctx.has e.tc.has e.tally.has e.seg.has e.grp.has e.key.has
  let s6 := (s5.clearSheet p).clearBank p
  ((s6.setPart p { Part.reset p.val with gen := (s6.part p).gen }).bumpGen p).bumpGen 0 |>.serveHeld.serveIn.takeRooms

/-! ### Reopening scan and debug (R494, R495) -/

/-- The tenants that hold resources. -/
def State.liveTenants (s : State) : List (Fin 16) := tenants.filter (fun t => (s.part t).st ≠ .free)

/-- A check has succeeded: the teardown of every tenant begins. -/
def State.debugBegin (s : State) : State := s.liveTenants.foldl State.teardownBegin s

/-- Steps 1 to 6 end: the tenants are gone, all of device memory is erased under fresh keys, every weight key and link key is
destroyed and the links are DOWN, every square is zeroed, and the new alias key of the open state is certified. -/
def State.debugEnd (s : State) : State :=
  let s1 := s.liveTenants.foldl State.teardownEnd s
  let s2 := (List.range s1.regions).foldl State.cryptoErase s1
  let s3 := s2.clearKeys (fun _ => true)
  let s4 := (List.range 64).foldl (fun s n =>
    if s.linkFitted n then
      let s1 := s.linkOff n
      let p := s1.page (pgLnk n)
      if p.st = .retired ∨ p.st = .off then s1 else s1.toPage (pgLnk n) { p with st := .starting }
    else s) s3
  let s5 := allSquares.foldl State.zeroSquare s4
  let s6 := { s5 with
    sys := { s5.sys with debugOpened := true }
    rot := { s5.rot with
      debugOpen := true, nonce := none
      akeyReady := decide (s5.rot.lifecycle = 1) || decide (s5.rot.lifecycle = 2) } }
  allParts.foldl State.bumpGen s6

/-- A failed attempt (R494). -/
def State.unlockFailed (s : State) : Nat × State :=
  (rDenied, { s with rot := { s.rot with pwFails := min 255 (s.rot.pwFails + 1) } })

/-- Both paths are barred after 8 failures. -/
def State.unlockBarred (s : State) : Bool := decide (8 ≤ s.rot.pwFails)

/-- The bytes of a nonce. -/
def nonceBytes (n : Nat) : List Byte := (List.range 64).map (Config.freeByte n)

/-- `DEV_ID` and `DEV_SERIAL` as the vendor's signature covers them. -/
def State.identity (s : State) : List Byte := leBytes 4 (s.reg pgDev R.DEV_ID).toNat ++ leBytes 8 s.sys.serial.toNat

/-! ### Attestation (R488, R489) -/

/-- Block 7 of R488: the device-wide generation, every entry, the owner of every region and frame slot, and each peer list; to a
tenant reduced to its own entry, regions and peers, with the owner of every frame slot (R489). -/
def State.layout (s : State) (p : Fin 16) : List Nat :=
  let seen := if p = 0 then allParts else [p]
  let slots (f : Part → Nat) (n : Nat) : List Nat := (List.range n).map (fun i => (s.slotOwner f i).val)
  [s.pt.layoutGen.toNat] ++ seen.flatMap s.ptWords
  ++ (if p = 0 then (List.range s.regions).map (fun x => (s.mem.regionOwner.get (fun _ => 0) x).val)
    else (List.range s.regions).filter (s.regionHeldBy p))
  ++ slots (fun e => e.memSlots.toNat) 63 ++ slots (fun e => e.mesh.toNat) 16 ++ slots (fun e => e.linkSlots.toNat) 63
  ++ seen.flatMap (fun t => (s.part t).peers.flatMap (fun r => [r.1, r.2]))

/-- The inputs of CDI₁ (R484): the firmware image, lifecycle, anti-rollback count, variant and debug state. The alias key is what they
derive: a change of any of them yields another (R485). -/
def State.cdi (s : State) : List Nat :=
  [s.arb.image, s.rot.lifecycle, s.rot.rollback, s.sys.variant.code, b01 s.rot.debugOpen]

/-- What a report to a partition covers beside its nonce: the firmware measured, the fuse and debug states, the layout, the identity,
and the alias key that signs it (R486, R488, R489). -/
def State.evidence (s : State) (p : Fin 16) : List Nat :=
  [s.arb.image, s.rot.lifecycle, s.rot.rollback, s.sys.variant.code, b01 s.sys.debugOpened, s.rot.pwFails] ++ s.layout p
  ++ [(s.reg pgDev R.DEV_ID).toNat, (s.reg pgDev R.DEV_PLACEMENT).toNat] ++ s.cdi

/-- The label of a wrapped key (R492). -/
def State.wrapLabel (s : State) (p : Fin 16) (slot key : Nat) : List Byte :=
  [0x4B, 0x45, 0x4C, 0x45, 0x4C, 0x4F, 0x2D, 0x57, 0x4B].map (BitVec.ofNat 8) ++ (leBytes 2 s.devId.toNat).reverse
  ++ [BitVec.ofNat 8 p.val, BitVec.ofNat 8 slot] ++ Config.sha512 (Config.publicKey key)

/-! ### Serving requests (R474, R500) -/

/-- Whether the device has an identity that its alias key is certified under: not in TEST, which has none, nor DECOMMISSIONED, where the
RoT signs nothing (R482). -/
def State.hasIdentity (s : State) : Bool := decide (s.rot.lifecycle = 1) || decide (s.rot.lifecycle = 2)

/-- A request that is over at once: its result, and the state that follows. None: it goes on until REQ_DONE. -/
def State.rotBegin (s : State) (r : RotReq) : Option (Nat × List Byte) × State :=
  let p := r.part
  let st := (s.part p).st
  let quick (x : Nat × State) : Option (Nat × List Byte) × State := (some (x.1, []), x.2)
  match r.bank with
  | none =>
    if r.op = 1 then
      if p = 0 ∨ st ≠ .free ∨ s.rot.lifecycle = 0 then quick (rBadState, s)
      else if s.rot.debugOpen then quick (rBarred, s)
      else
        let s1 := { s with mem := { s.mem with keys := s.mem.keys ||| BitVec.ofNat 16 (2 ^ p.val) } }
        quick (rOk, (s1.setPart p { s1.part p with st := .configuring }).bumpGen p)
    else if r.op = 2 then (if st ≠ .configuring then quick (rBadState, s) else quick (s.ptRanges p r.args))
    else if r.op = 3 then (if st ≠ .configuring then quick (rBadState, s) else quick (s.ptShares p r.args))
    else if r.op = 4 then
      if st ≠ .configuring ∧ st ≠ .active then quick (rBadState, s)
      else
        match s.ptRegions p r.args with
        | (some c, s1) => quick (c, s1)
        | (none, s1) => (none, s1)
    else if r.op = 5 then
      (if st ≠ .configuring ∧ st ≠ .active then quick (rBadState, s) else quick (s.ptPeers p r.args r.buf))
    else if r.op = 6 then
      if st ≠ .configuring ∨ (s.squaresOf p).isEmpty ∨ s.meshSlots p = 0 then quick (rBadState, s)
      else quick (rOk, (s.setPart p { s.part p with st := .active }).bumpGen p)
    else if r.op = 7 then
      if p = 0 ∨ (st ≠ .configuring ∧ st ≠ .active) then quick (rBadState, s) else (none, s.teardownBegin p)
    else if r.op = 8 then
      let n := (nth 0#32 r.args 0).toNat
      if s.unlockBarred then quick (rBarred, s)
      else if !argsOk 8 r.args || n = 0 || decide (64 < n) then quick (rBadArg, s)
      else if Config.sha512 (r.buf.take n) = Config.ownerHash then (none, s.debugBegin)
      else quick s.unlockFailed
    else if r.op = 9 then
      if s.unlockBarred then quick (rBarred, s)
      else
        let (n, s1) := s.fresh
        let s2 := { s1 with rot := { s1.rot with nonce := some n } }
        quick (rOk, s2.fillBuf 0 pgRot R.ROT_BUF (nonceBytes n ++ r.buf.drop 64))
    else if r.op = 10 then
      if s.unlockBarred then quick (rBarred, s)
      else
        let s1 := { s with rot := { s.rot with nonce := none } }
        (match s.rot.nonce with
          | none => quick s1.unlockFailed
          | some n =>
            if Config.debugSignatureOk (r.buf.take 512) (nonceBytes n) s.identity then (none, s1.debugBegin)
            else quick s1.unlockFailed)
    else quick (rBadArg, s)
  | some _ =>
    if st = .teardown then quick (rBadState, s)
    else if r.op = 0 ∨ 5 < r.op then quick (rBadArg, s)
    else if r.op ≤ 3 ∧ ¬ s.holdsKey p r.slot then quick (rBadArg, s)
    else if r.op = 1 ∧ s.rot.debugOpen then quick (rBarred, s)
    else if (r.op = 1 ∨ 4 ≤ r.op) ∧ ¬ s.hasIdentity then quick (rBadState, s)
    else if r.op = 2 then (if (s.eph? p r.slot).isNone then quick (rNoKey, s) else (none, s))
    else if r.op = 3 then quick (rOk, if ((s.keySlot r.slot).any (fun k => k.part = p)) then s.setKey r.slot none else s)
    else (none, s)

/-- A request that has gone on ends: none while what it waits for has not ended. A request that needs the alias key waits until its
certificate is signed (R570; DESIGN CHOICE, assumption 142). -/
def State.rotFinish (s : State) (r : RotReq) : Option ((Nat × List Byte) × State) :=
  let p := r.part
  match r.bank with
  | none =>
    if r.op = 4 then
      if s.mem.cutOff.isEmpty then
        let s1 := s.bumpGen p
        some ((rOk, []), if p = 0 then s1 else s1.bumpGen 0)
      else none
    else if r.op = 7 then (if s.teardownReady p then some ((rOk, []), s.teardownEnd p) else none)
    else (if s.liveTenants.all s.teardownReady then some ((rOk, []), s.debugEnd) else none)
  | some _ =>
    if r.op ≠ 2 ∧ ¬ s.rot.akeyReady then none
    else if r.op = 1 then
      let (n, s1) := s.fresh
      some ((rOk, Config.certificate ([n, s1.devId.toNat, p.val, r.slot, (s1.part p).gen.toNat, s1.pt.layoutGen.toNat] ++ s1.cdi)),
        s1.setEph p r.slot (some ⟨n, (s1.part p).gen⟩))
    else if r.op = 2 then
      match s.eph? p r.slot with
      | none => some ((rNoKey, []), s)
      | some e =>
        let s1 := s.setEph p r.slot none
        match Config.oaepOpen e.key (s.wrapLabel p r.slot e.key) (r.buf.take 512) with
        | none => some ((rDenied, []), s1)
        | some k =>
          if k.length ≠ 32 then some ((rDenied, []), s1)
          else if e.gen ≠ (s.part p).gen then some ((rStale, []), s1)
          else some ((rOk, []), s1.setKey r.slot (some ⟨p, k⟩))
    else if r.op = 5 then some ((rOk, Config.chain s.cdi), s)
    else some ((rOk, Config.report ((r.buf.take 32).map BitVec.toNat ++ s.evidence p)), s)

/-- Serves the requests at the front of the queue until one goes on over time. -/
def State.rotServe : Nat → State → State
  | 0, s => s
  | f + 1, s =>
    match s.rot.queue with
    | [] => s
    | r :: rest =>
      if r.started then s
      else
        match s.rotBegin r with
        | (some (code, data), s1) =>
          State.rotServe f ({ s1 with rot := { s1.rot with queue := rest } }.finishReq r code data)
        | (none, s1) =>
          let waiting := s1.rot.queue.filter (fun x => x ≠ r)
          { s1 with rot := { s1.rot with queue := { r with started := true } :: waiting } }

/-- Takes the next requests up. -/
def State.rotGo (s : State) : State := State.rotServe (s.rot.queue.length + 1) s

/-- A request arrives (R474): one bank has one request at a time, and a write while BUSY is ignored with CMD_IGNORED. -/
def State.rotEnter (s : State) (rp : Fin 16) (pn status : Nat) (r : RotReq) : State :=
  let b : Fin 16 := if r.bank.isSome then rp else 0
  if (s.regB b pn status).getLsbD 31 then s.cmdIgnored rp pn
  else
    let s1 := s.setRegB b pn status (s.regB b pn status ||| 0x80000000)
    ({ s1 with rot := { s1.rot with queue := s1.rot.queue ++ [r] } }).rotGo

/-- A write of `ROT_REQ_OP`; a reserved bit set makes the request's encoding reserved (R500). -/
def State.writeReqOp (s : State) (rp : Fin 16) (v : Word) : State :=
  let op := if wbits v 31 12 = 0 then wbits v 7 0 else 0
  s.rotEnter rp pgRot R.ROT_REQ_STATUS
    ⟨none, op, Fin.ofNat 16 (wbits v 11 8), 0, (List.range 8).map (fun i => s.reg pgRot (R.ROT_REQ_ARG + 4 * i)),
      s.bufBytes 0 pgRot R.ROT_BUF 2048, false⟩

/-- A write of `ROT_T_OP` by a partition. -/
def State.writeTOp (s : State) (rp : Fin 16) (v : Word) : State :=
  let op := if wbits v 31 16 = 0 then wbits v 7 0 else 0
  s.rotEnter rp pgRotT R.ROT_T_STATUS
    ⟨some rp, op, rp, wbits v 15 8, [], s.bufBytes rp pgRotT R.ROT_T_BUF 2048, false⟩

/-- A request on page 0 by a requester. -/
def State.ptRequest (s : State) (r : Req) (op : Nat) (p : Fin 16) : State :=
  s.asWrite r pgRot R.ROT_REQ_OP false (fun s => s.writeReqOp (s.reqPart r) (word (p.val * 256 + op)))

/-- A request on page 1 by a requester. -/
def State.tRequest (s : State) (r : Req) (op slot : Nat) : State :=
  s.asWrite r pgRotT R.ROT_T_OP false (fun s => s.writeTOp (s.reqPart r) (word (slot * 256 + op)))

def execPtCreate (r : Req) (p : Fin 16) (s : State) : Host.Outcome State Fault Refusal := done s (s.ptRequest r 1 p)
def execPtRanges (r : Req) (p : Fin 16) (s : State) : Host.Outcome State Fault Refusal := done s (s.ptRequest r 2 p)
def execPtShares (r : Req) (p : Fin 16) (s : State) : Host.Outcome State Fault Refusal := done s (s.ptRequest r 3 p)
def execPtRegions (r : Req) (p : Fin 16) (s : State) : Host.Outcome State Fault Refusal := done s (s.ptRequest r 4 p)
def execPtPeers (r : Req) (p : Fin 16) (s : State) : Host.Outcome State Fault Refusal := done s (s.ptRequest r 5 p)
def execPtActivate (r : Req) (p : Fin 16) (s : State) : Host.Outcome State Fault Refusal := done s (s.ptRequest r 6 p)
def execPtTeardown (r : Req) (p : Fin 16) (s : State) : Host.Outcome State Fault Refusal := done s (s.ptRequest r 7 p)
def execUnlockPassword (r : Req) (s : State) : Host.Outcome State Fault Refusal := done s (s.ptRequest r 8 0)
def execUnlockNonce (r : Req) (s : State) : Host.Outcome State Fault Refusal := done s (s.ptRequest r 9 0)
def execUnlockResponse (r : Req) (s : State) : Host.Outcome State Fault Refusal := done s (s.ptRequest r 10 0)
def execEphCreate (r : Req) (slot : Byte) (s : State) : Host.Outcome State Fault Refusal := done s (s.tRequest r 1 slot.toNat)
def execKeyUnwrap (r : Req) (slot : Byte) (s : State) : Host.Outcome State Fault Refusal := done s (s.tRequest r 2 slot.toNat)
def execKeyDestroy (r : Req) (slot : Byte) (s : State) : Host.Outcome State Fault Refusal :=
  done s (s.tRequest r 3 slot.toNat)
def execReport (r : Req) (s : State) : Host.Outcome State Fault Refusal := done s (s.tRequest r 4 0)
def execChain (r : Req) (s : State) : Host.Outcome State Fault Refusal := done s (s.tRequest r 5 0)

/-- REQ_DONE (R500): the request being served completes, if what it waits for has ended; the next ones are taken up. -/
def State.reqDone (s : State) : State :=
  match s.rot.queue with
  | [] => s
  | r :: rest =>
    if !r.started then s.rotGo
    else
      match s.rotFinish r with
      | none => s
      | some ((code, data), s1) => ({ s1 with rot := { s1.rot with queue := rest } }.finishReq r code data).rotGo

def execReqDone (s : State) : Host.Outcome State Fault Refusal := done s s.reqDone

/-- ALIAS_KEY_READY (R484, R570): the alias key pair, whose making started in step 3, is ready and its certificate signed. A
device in TEST, or decommissioned, has no identity key to sign with (R482). -/
def execAliasKeyReady (s : State) : Host.Outcome State Fault Refusal :=
  done s (if 2 ≤ s.sys.bootStep ∧ s.hasIdentity then { s with rot := { s.rot with akeyReady := true } } else s)

/-! ### SPDM (R487, R488) -/

/-- The RoT answers an SPDM request over the transport it came by (R487); until the alias key is ready it answers
ResponseNotReady (R570). The bytes of a response are not the spec's, and stand as an uninterpreted function (assumption 36). -/
def State.spdm (s : State) (code : Nat) (req : List Byte) (f : Spdm → Nat → Spdm) : State :=
  let (n, s1) := s.fresh
  let x := if s.rot.akeyReady then f s1.rot.spdm n else s1.rot.spdm
  let standing := [b01 s.rot.akeyReady, b01 x.version, b01 x.negotiated, (x.session.map (· + 1)).getD 0, b01 x.finished, n]
    ++ s.cdi ++ (if code = 0xE0 then s.evidence 0 else [])
  let m : MctpMsg := ⟨s.arb.spdmFrom.1, BitVec.ofNat 8 (wbits (s.reg pgArb R.ARB_MCTP) 7 0), s.arb.spdmFrom.2, 5,
    Config.spdmReply code req standing, 0⟩
  State.mctpSend { s1 with rot := { s1.rot with spdm := x } } m

/-- GET_VERSION starts the responder afresh. -/
def execGetVersion (bytes : List Byte) (s : State) : Host.Outcome State Fault Refusal :=
  done s (s.spdm 0x84 bytes (fun _ _ => ⟨true, false, none, false⟩))
def execGetCapabilities (bytes : List Byte) (s : State) : Host.Outcome State Fault Refusal :=
  done s (s.spdm 0xE1 bytes (fun x _ => x))
def execNegotiateAlgorithms (bytes : List Byte) (s : State) : Host.Outcome State Fault Refusal :=
  done s (s.spdm 0xE3 bytes (fun x _ => { x with negotiated := x.version }))
def execGetDigests (bytes : List Byte) (s : State) : Host.Outcome State Fault Refusal :=
  done s (s.spdm 0x81 bytes (fun x _ => x))
def execGetCertificate (bytes : List Byte) (s : State) : Host.Outcome State Fault Refusal :=
  done s (s.spdm 0x82 bytes (fun x _ => x))
def execChallenge (bytes : List Byte) (s : State) : Host.Outcome State Fault Refusal :=
  done s (s.spdm 0x83 bytes (fun x _ => x))
def execGetMeasurements (bytes : List Byte) (s : State) : Host.Outcome State Fault Refusal :=
  done s (s.spdm 0xE0 bytes (fun x _ => x))
/-- KEY_EXCHANGE opens a session, which FINISH completes. -/
def execKeyExchange (bytes : List Byte) (s : State) : Host.Outcome State Fault Refusal :=
  done s (s.spdm 0xE4 bytes (fun x n => if x.negotiated then { x with session := some n, finished := false } else x))
def execFinish (bytes : List Byte) (s : State) : Host.Outcome State Fault Refusal :=
  done s (s.spdm 0xE5 bytes (fun x _ => { x with finished := x.session.isSome }))
def execKeyUpdate (bytes : List Byte) (s : State) : Host.Outcome State Fault Refusal :=
  done s (s.spdm 0xE9 bytes (fun x _ => x))
def execSpdmHeartbeat (bytes : List Byte) (s : State) : Host.Outcome State Fault Refusal :=
  done s (s.spdm 0xE8 bytes (fun x _ => x))
def execEndSession (bytes : List Byte) (s : State) : Host.Outcome State Fault Refusal :=
  done s (s.spdm 0xEC bytes (fun x _ => { x with session := none, finished := false }))

end Sys2Proof.Machine
end

