-- ==== Sys2Proof/Machine/Safe.lean ====
section
/-!
DEFINITION. The safe state (R583, R584) and what a loss of power or a reset takes from the whole device.
-/

namespace Sys2Proof.Machine

open Sys2Proof

/-- `DEV_STATUS.SAFE_CAUSE` (R584). -/
def scBist : Nat := 1
def scStack : Nat := 2
def scVerify : Nat := 3
def scWatchdog : Nat := 4
def scThermal : Nat := 5
def scInputOv : Nat := 6
def scPowerDie : Nat := 7
def scPlane : Nat := 8
def scAux : Nat := 9
def scArbiterBoot : Nat := 10

/-- A block with a state machine of its own (R69, R74, R346). -/
def hasStates (b : Block) : Bool := !alwaysOn b && b ≠ .mch && b ≠ .none

/-- The pages that have left OFF at some time. -/
def State.livePages (s : State) : List Nat := s.drs.pages.keys

/-- A page is powered down: OFF, whatever it was. -/
def State.darkPage (s : State) (pn : Nat) : State :=
  let p := s.page pn
  s.toPage pn { p with st := .off, enable := false, pendingEn := false, zeroing := false }

/-- Everything under way is lost (R583, R85): commands, collectives, transactions and what the engines hold. -/
def State.loseWork (s : State) : State :=
  { s with
    sch := { s.sch with jobs := [], held := [], waits := [], heldOps := [] }
    col := { s.col with colls := [], held := [] }
    fab := { s.fab with txs := [], epochHeld := [], heldOut := [], heldIn := [], bars := [], intWait := [] }
    mem := { s.mem with held := [] }
    mxe := emptyMap
    vxe := emptyMap
    mov := emptyMap }

/-- Every key is destroyed (R85, R583): memory, weight, ephemeral and link keys; device memory becomes unreadable. -/
def State.destroyKeys (s : State) : State :=
  let s1 := (List.range s.regions).foldl State.cryptoErase { s with mem := { s.mem with keys := 0 } }
  let s2 := { s1 with
    pt := { s1.pt with keys := emptyMap }
    rot := { s1.rot with eph := emptyMap } }
  (List.range 64).foldl (fun s n => if (s.link n).st = .down then s else s.setLink n { Link.reset with waived := false }) s2

/-- Entering the safe state (R583): the first cause stands. Squares, stacks, the I/O dies and the central block are powered
down; the bridge's PCIe controller and the island run on. -/
def State.enterSafe (s : State) (cause : Nat) : State :=
  if s.sys.devState = .safe then s
  else
    let s1 := s.loseWork.destroyKeys
    let s2 := (s1.livePages.filter (fun pn => hasStates (blockAt pn) && blockAt pn ≠ .hbr)).foldl State.darkPage s1
    let halted := s2.squares.pawns.keys.foldl (fun s k => s.haltPawn (k / 4) (k % 4)) s2
    { halted with
      sys := { halted.sys with devState := .safe, fault := true, safeCause := BitVec.ofNat 8 cause }
      arb := { halted.arb with test := none, tests := [], retries := [] } }

/-- The RoT's ROM waits for a recovery image: the image in flash, or a component of it, has failed verification (R525, R571). -/
def State.recovers (s : State) : Bool := s.sys.devState = .safe && s.sys.safeCause = BitVec.ofNat 8 scVerify

/-- The Arbiter's firmware runs: start-up step 4 is past, the island has power and its clock (R592), and the RoT neither holds it in
reset (R526) nor confines the ROM to recovery (R525, R583). -/
def State.arbiterRuns (s : State) : Bool :=
  decide (4 ≤ s.sys.bootStep) && s.sys.rstN && s.sys.refclk && !s.sys.arbHeld && !s.recovers

/-- `THERM_N` is asserted (R510). -/
def State.assertTherm (s : State) : State :=
  if s.sys.therm then s else { s with sys := { s.sys with therm := true } }.statusAll pgPwr 6

end Sys2Proof.Machine
end

