-- ==== Sys2Proof/Machine/Arbiter.lean ====
section
/-!
DEFINITION. The Arbiter (R501 to R529): sensors, rails, the power cap and its duty limits, temperature points (R601 to R603),
the scoresheet, MCTP and the mailbox, and the firmware update.
-/

namespace Sys2Proof.Machine

open Sys2Proof

/-! ### Sensors (R501, R502, R601, R603) -/

/-- A reading as a register holds it (assumption 61): 8 bits; -40 to 215 degrees, negative ones in two's complement, and a
reading outside that range as its nearest end. -/
def tempByte (t : Int) : Nat := if t < -40 then 216 else if 215 < t then 215 else unsignedOf 8 t
def byteTemp (n : Nat) : Int := if n < 216 then (n : Int) else (n : Int) - 256

/-- The points of R601 by die: squares, stacks, I/O dies, power dies: warning and trip. -/
def warnAt (row : Nat) : Int := if row = 1 then 100 else if row = 3 then 95 else if row = 4 then 100 else 115
def tripAt (row : Nat) : Int := if row = 1 then 115 else if row = 3 then 105 else if row = 4 then 115 else 130

def State.sqTemp (s : State) (p : Nat) : Int := byteTemp (wbits (s.reg pgPwr (R.PWR_SQ + 4 * p)) 9 2)

def State.dieTemp (s : State) (i : Nat) : Int := byteTemp (wbits (s.reg pgPwr (R.PWR_DIE + 4 * i)) 7 0)

def State.diodeBad (s : State) (p : Nat) : Bool := s.arb.diodeBad.get (fun _ => false) p
def State.dieFailed (s : State) (i : Nat) : Bool := s.arb.dieFailed.get (fun _ => false) i

/-- Dies by `PWR_DIE` number and R501 row: 0 to 7 stacks, 8 to 11 I/O dies, 12 to 15 power dies. -/
def dieRow (i : Nat) : Nat := if i < 8 then 3 else if i < 12 then 4 else 5

/-- `PWR_DIE.PRESENT` (R528). -/
def State.diePresent (s : State) (i : Nat) : Bool :=
  if i < 8 then s.stackFitted i else if i < 12 then bitOf s.sys.variant.ioMask (i - 8) else decide (i < 16)

/-- A sensor failure is recorded and signalled (R502, kind 0x0007): its subject is row × 65,536 + index (assumption 37). -/
def State.sensorFail (s : State) (row index : Nat) : State :=
  (s.record 7 0 (row * 65536 + index) 1).statusAll pgPwr 7

/-- The working readings that the Arbiter compares (R603): row and degrees. -/
def State.readings (s : State) : List (Nat × Int) :=
  ((List.range 72).filter (fun p => !s.diodeBad p)).map (fun p => (1, s.sqTemp p))
  ++ ((List.range 16).filter s.diePresent).map (fun i => (dieRow i, s.dieTemp i))

/-- `PWR_STATE.HOTTEST`. -/
def State.hottest (s : State) : Int :=
  (((List.range 72).map s.sqTemp) ++ ((List.range 16).filter s.diePresent).map s.dieTemp).foldl (fun a t => if a < t then t else a) 0

/-- A temperature has been read: HOTTEST follows, a warning point exceeded asserts `THERM_N`, and a trip point reached places
the device in the safe state (R510, R601). -/
def State.afterTemp (s : State) : State :=
  let s1 := s.setReg pgPwr R.PWR_STATE (wput (s.reg pgPwr R.PWR_STATE) 7 0 (tempByte s.hottest))
  let s2 := if s1.readings.any (fun r => decide (warnAt r.1 < r.2)) then s1.assertTherm else s1
  if s2.readings.any (fun r => decide (tripAt r.1 ≤ r.2)) then s2.assertTherm.enterSafe scThermal else s2

/-! ### Rails (R92 to R96, R503) -/

/-- The rail the Arbiter has set at a physical square: nominal until it changes it (assumption 38). -/
def railDefault (_ : Nat) : Nat := 750
def State.rail (s : State) (p : Nat) : Nat := s.arb.railSet.get railDefault p
def State.setRail (s : State) (p mv : Nat) : State := { s with arb := { s.arb with railSet := s.arb.railSet.set railDefault p mv } }

/-- The highest rail that R92 and R502 allow at a square. -/
def State.maxRail (s : State) (p : Nat) : Nat := if s.diodeBad p || decide (70 < s.sqTemp p) then 800 else 850

/-- A rail goes down one step, never below 0.55 V (R19, R503). -/
def State.lowerRail (s : State) (p : Nat) : State := if 555 ≤ s.rail p then s.setRail p (s.rail p - 5) else s

/-- The floor guard (R94). -/
def guardRate : Nat := 1520

def State.effTarget (s : State) : Nat := wbits (s.reg pgPwr R.PWR_TARGET_EFF) 11 0

/-- A square diode's sample (R502, R92). -/
def State.sampleDiode (s : State) (p : Nat) (x : Option Int) : State :=
  let good := x.any (fun t => decide (-40 ≤ t) && decide (t ≤ 150))
  let t : Int := if good then x.getD 125 else 125
  let o := R.PWR_SQ + 4 * p
  let s1 := s.setReg pgPwr o (wput (s.reg pgPwr o) 9 2 (tempByte t))
  let s2 := { s1 with arb := { s1.arb with
    diodeBad := s1.arb.diodeBad.set (fun _ => false) p (!good)
    msTemp := s1.arb.msTemp.set (fun _ => 0) p (max (s1.arb.msTemp.get (fun _ => 0) p) t.toNat) } }
  let s3 := if good then s2 else s2.sensorFail 1 p
  let s4 := if s3.maxRail p < s3.rail p then s3.setRail p (s3.maxRail p) else s3
  s4.afterTemp

/-- The reading of a die. -/
def State.setDieTemp (s : State) (i : Nat) (t : Int) : State :=
  let o := R.PWR_DIE + 4 * i
  s.setReg pgPwr o (wput (s.reg pgPwr o) 7 0 (tempByte t))

/-- The dies of a row whose sensors fail count as the hottest working one plus 10 °C (R603), or an unstated value when none
works. -/
def State.substituteDies (s : State) (row : Nat) : State :=
  let dies := (List.range 16).filter (fun j => s.diePresent j && decide (dieRow j = row))
  let (n, s0) := s.fresh
  let t : Int := match (dies.filter (fun j => !s.dieFailed j)).map s.dieTemp with
    | [] => ((Config.freeNat n 0 % 128 : Nat) : Int)
    | a :: rest => rest.foldl (fun m t => if m < t then t else m) a + 10
  (dies.filter s.dieFailed).foldl (fun s j => s.setDieTemp j t) s0

/-- A die's sample (R501, R603). -/
def State.sampleDie (s : State) (i : Nat) (x : Option Int) : State :=
  if !s.diePresent i then s
  else
    let s1 := match x with
      | some t => s.setDieTemp i t
      | none => s
    let s2 := { s1 with arb := { s1.arb with dieFailed := s1.arb.dieFailed.set (fun _ => false) i x.isNone } }
    let s3 := s2.substituteDies (dieRow i)
    (if x.isNone then s3.sensorFail (dieRow i) (if i < 8 then i else if i < 12 then i - 8 else i - 12) else s3).afterTemp

/-- One window of a beat-rate monitor (R93 to R96, R502, R503): `none` when it returned no count. A rate above 2.3 G lowers the
rail whatever the square's state (R92). DESIGN CHOICE: the rail of an OFF or FAULTED square is otherwise left where it is, which
R95 allows ("may"; assumption 117). -/
def State.beatWindow (s : State) (p : Nat) (x : Option Nat) : State :=
  let o := R.PWR_SQ + 4 * p
  let name := (List.range 64).find? (fun q => s.phys q = p)
  let st := match name with
    | some q => s.pstate (pgSq q 0)
    | none => .off
  match x with
  | none =>
    let s1 := ((s.setReg pgPwr o (wput (s.reg pgPwr o) 31 20 0)).sensorFail 0 p).setRail p 800
    match name with
    | some q => s1.unitFault q
    | none => s1
  | some r =>
    let s1 := s.setReg pgPwr o (wput (s.reg pgPwr o) 31 20 (min r 4095))
    let s2 := { s1 with arb := { s1.arb with
      msRate := s1.arb.msRate.set (fun _ => 65535) p (min (s1.arb.msRate.get (fun _ => 65535) p) r) } }
    let rail := s2.rail p
    let top := s2.maxRail p
    if 2300 < r then s2.lowerRail p
    else if st ≠ .running ∧ st ≠ .starting then s2
    else if r < guardRate then
      if rail + 5 ≤ top then s2.setRail p (rail + 5)
      else
        match name with
        | some q =>
          if st ≠ .running then s2
          else if 1499 ≤ r then s2.record 4 0 p r
          else ((s2.record 5 0 p r).statusAll (pgSq q 0) 1).unitFault q
        | none => s2
    else if r < max guardRate s2.effTarget then (if rail + 5 ≤ top then s2.setRail p (rail + 5) else s2)
    else if max guardRate s2.effTarget + 30 ≤ r then s2.lowerRail p
    else s2

/-- BEAT_RATE_WINDOW: a monitor's window of 1 µs; a count of 0 is no count. -/
def execBeatRateWindow (p : Fin 72) (rate : Nat) (s : State) : Host.Outcome State Fault Refusal :=
  done s (s.beatWindow p.val (if rate = 0 then none else some rate))

/-- SENSOR_SAMPLE: one reading of a sensor of R501, rows numbered from 0 in the table's order; none when the sensor failed.
Of row 6, index 0 is the voltage and index 1 the current. -/
def State.sample (s : State) (row index : Nat) (x : Option Int) : State :=
  let put (off hi lo : Nat) (n : Nat) : State :=
    match x with
    | some _ => s.setReg pgPwr off (wput (s.reg pgPwr off) hi lo (min n (2 ^ (hi + 1 - lo) - 1)))
    | none => s.sensorFail row index
  let n := (x.getD 0).toNat
  if row = 0 ∧ index < 72 then s.beatWindow index (if n = 0 then none else some n)
  else if row = 1 ∧ index < 72 then s.sampleDiode index x
  else if row = 2 ∧ index < 72 then put (R.PWR_SQ + 4 * index) 19 10 n
  else if row = 3 ∧ index < 8 then s.sampleDie index x
  else if row = 4 ∧ index < 4 then s.sampleDie (8 + index) x
  else if row = 5 ∧ index < 4 then s.sampleDie (12 + index) x
  else if row = 6 ∧ index = 0 then put R.PWR_INPUT 31 16 n
  else if row = 6 ∧ index = 1 then put R.PWR_INPUT 15 0 n
  else if row = 7 ∧ index < 16 then put (R.PWR_RAIL + 4 * index) 15 0 n
  else s

def execSensorSample (row index : Nat) (reading : Option Int) (s : State) : Host.Outcome State Fault Refusal :=
  done s (s.sample row index reading)

/-- THERM_RELEASE (R510): every reading has stayed 5 °C below its warning point for 100 ms. -/
def execThermRelease (s : State) : Host.Outcome State Fault Refusal :=
  done s (if s.readings.all (fun r => decide (r.2 ≤ warnAt r.1 - 5)) then { s with sys := { s.sys with therm := false } } else s)

/-- THERMAL_COMPARATOR (R602): a die's comparator has removed its power, and the RoT places the device in the safe state. -/
def execThermalComparator (_die : Nat) (s : State) : Host.Outcome State Fault Refusal :=
  done s (s.assertTherm.enterSafe scThermal)

/-! ### The power cap (R504 to R509) -/

def State.cap (s : State) : Nat := wbits (s.reg pgPwr R.PWR_CAP) 11 0

/-- A cap request (R506). -/
def State.capRequest (s : State) (w : Nat) : State :=
  if 640 * w < s.reserved64 then s.setReg pgPwr R.PWR_CAP_STATUS 1
  else if s.sys.variant.maxWatt < w then s.setReg pgPwr R.PWR_CAP_STATUS 2
  else
    let s1 := (s.setReg pgPwr R.PWR_CAP (word w)).setReg pgPwr R.PWR_CAP_STATUS 0
    if s.cap = w then s1 else s1.statusAll pgPwr 4

/-- PWR_CAP_REQ: a write by partition 0. -/
def execPwrCapReq (r : Req) (v : Word) (s : State) : Host.Outcome State Fault Refusal :=
  done s (s.asWrite r pgPwr R.PWR_CAP_REQ false (fun s => s.capRequest (wbits v 11 0)))

/-- POWER_CAP_EFFECTER (R521): effecter 0x0001 acts as a write of `PWR_CAP_REQ`. -/
def execPowerCapEffecter (v : Word) (s : State) : Host.Outcome State Fault Refusal :=
  done s (if s.arbiterRuns then s.capRequest (wbits v 11 0) else s)

/-- PWR_POLICY (R503, R504, R528): TARGET from 1,520 to 2,300, else ignored with CMD_IGNORED. The effective target follows
it, unless the cap control holds it lower. -/
def State.setTarget (s : State) (p : Fin 16) (v : Word) : State :=
  let t := wbits v 11 0
  if t < 1520 ∨ 2300 < t then s.cmdIgnored p pgPwr
  else
    let old := wbits (s.reg pgPwr R.PWR_POLICY) 11 0
    let s1 := s.setReg pgPwr R.PWR_POLICY (word t)
    s1.setReg pgPwr R.PWR_TARGET_EFF (word (if s.effTarget = old then t else min s.effTarget t))

def execPwrPolicy (r : Req) (v : Word) (s : State) : Host.Outcome State Fault Refusal :=
  done s (s.asWrite r pgPwr R.PWR_POLICY false (fun s => s.setTarget (s.reqPart r) v))

/-- The duty limits end, and their period is recorded in µs (R508, kind 0x0006). -/
def State.liftDuty (s : State) : State :=
  match s.arb.dutySince with
  | none => s
  | some t =>
    let s1 := s.record 6 0 0 ((s.now - t) / 1000)
    { s1.setReg pgPwr R.PWR_STATE (wput (s1.reg pgPwr R.PWR_STATE) 8 8 0) with arb := { s1.arb with dutySince := none } }

/-- POWER_CAP_WINDOW: a 1 ms window ends with its average input power, in 0.1 W (R508, kind 0x0001). -/
def State.capWindow (s : State) (dw : Nat) : State :=
  let s1 := (s.setReg pgPwr R.PWR_INPUT_AVG (word (min dw (2 ^ 20 - 1)))).record 1 0 0 dw
  let eff := s1.effTarget
  if 10 * s1.cap < dw then
    if guardRate < eff then s1.setReg pgPwr R.PWR_TARGET_EFF (word (max guardRate (eff - 10)))
    else
      let s2 := s1.setReg pgPwr R.PWR_STATE (wput (s1.reg pgPwr R.PWR_STATE) 8 8 1)
      if s2.arb.dutySince.isSome then s2
      else { s2 with arb := { s2.arb with dutySince := some s2.now } }.statusAll pgPwr 5
  else if dw * 100 < 980 * s1.cap then
    s1.liftDuty.setReg pgPwr R.PWR_TARGET_EFF (word (min (wbits (s1.reg pgPwr R.PWR_POLICY) 11 0) (eff + 10)))
  else s1

def execPowerCapWindow (dw : Nat) (s : State) : Host.Outcome State Fault Refusal := done s (s.capWindow dw)

/-! ### The scoresheet (R511 to R519) -/

/-- A kind's binning (R514, R563): LOG2, or LINEAR with its width. -/
def binning (kind : Nat) : Bool × Nat :=
  if [0x06, 0x09, 0x12, 0x101, 0x103, 0x105, 0x107, 0xFFFF].contains kind then (true, 0)
  else if kind = 1 then (false, 500)
  else if kind = 2 ∨ kind = 8 then (false, 2)
  else if kind = 3 ∨ kind = 4 ∨ kind = 5 then (false, 50)
  else (false, 1)

/-- The bin of a value (R513). -/
def binOf (log2 : Bool) (width v : Nat) : Nat :=
  if log2 then (if v = 0 then 0 else min 63 (Nat.log2 v + 1)) else min 63 (v / width)

/-- A partition's quota of entries (R511). -/
def quotaOf (p : Fin 16) : Nat := if p = 0 then 1216 else 192

/-- An entry before its first event. -/
def Entry.fresh (kind : Nat) (p : Fin 16) (subject : Nat) : Entry :=
  ⟨kind, p, (binning kind).1, subject, (binning kind).2, 0, 0, 0, 0, 0, 0, 0, List.replicate 64 0⟩

/-- An event enters an entry (R512, R513). -/
def Entry.add (e : Entry) (v stamp : Nat) : Entry :=
  let v := Nat.min v 0xFFFFFFFF
  let b := binOf e.log2 e.width v
  { e with
    count := Nat.min (2 ^ 64 - 1) (e.count + 1)
    min := if e.count = 0 ∨ v < e.min then v else e.min
    minStamp := if e.count = 0 ∨ v < e.min then stamp else e.minStamp
    max := if e.count = 0 ∨ e.max < v then v else e.max
    maxStamp := if e.count = 0 ∨ e.max < v then stamp else e.maxStamp
    firstStamp := if e.count = 0 then stamp else e.firstStamp
    lastStamp := stamp
    bins := setNth e.bins b (Nat.min 0xFFFFFF (nth 0 e.bins b + 1)) }

/-- A partition's entries, in order of creation (R516). -/
def Score.view (c : Score) (p : Fin 16) : List Entry := c.entries.filter (fun e => e.part = p)

/-- Enters an event; the answer tells whether it went to the overflow entry (R511). -/
def Score.enter (c : Score) (kind : Nat) (p : Fin 16) (subject v stamp : Nat) : Bool × Score :=
  let is (e : Entry) : Bool := e.kind = kind && e.part = p && decide (e.subject = subject)
  let spill (e : Entry) : Bool := e.kind = 0xFFFF && e.part = p
  let upd (f : Entry → Bool) (x : Nat) : List Entry := c.entries.map (fun e => if f e then e.add x stamp else e)
  if c.entries.any is then (false, { c with entries := upd is v })
  else if ((c.view p).filter (fun e => !spill e)).length + 1 < quotaOf p then
    (false, { c with entries := c.entries ++ [(Entry.fresh kind p subject).add v stamp] })
  else if c.entries.any spill then (true, { c with entries := upd spill kind })
  else (true, { c with entries := c.entries ++ [(Entry.fresh 0xFFFF p 0xFFFFFFFF).add kind stamp] })

/-- The clears written before the commit (R518): the partitions' entries go, and events stamped before the write are
discarded. -/
def State.applyClears (s : State) : State :=
  let cs := s.score.clears
  let cleared (p : Fin 16) : Bool := cs.any (fun c => c.1 = p)
  let old (e : Event) : Bool := cs.any (fun c => c.1 = e.part && decide (e.stamp < c.2))
  let s1 := { s with score := { s.score with
    entries := s.score.entries.filter (fun e => !cleared e.part)
    buffer := s.score.buffer.filter (fun e => !old e)
    clears := [] } }
  (allParts.filter cleared).foldl (fun s p => s.statusOne p pgScr 5) s1

/-- The samples of the millisecond that ends (R514, kinds 0x0002 and 0x0003). -/
def State.recordMs (s : State) : State :=
  let s1 := s.arb.msTemp.keys.foldl (fun s p => s.record 2 0 p (s.arb.msTemp.get (fun _ => 0) p)) s
  let s2 := s1.arb.msRate.keys.foldl (fun s p => s.record 3 0 p (s.arb.msRate.get (fun _ => 65535) p)) s1
  { s2 with arb := { s2.arb with msTemp := emptyMap, msRate := emptyMap } }

/-- SCORESHEET_COMMIT (R515): the end of a millisecond of local time. The sequence number of each partition whose entries
change goes to odd and back to even; `ARB_HEARTBEAT` counts the millisecond (R527). -/
def State.commitScore (s : State) : State :=
  let s0 := (s.reach ((s.now / 1000000 + 1) * 1000000)).recordMs
  let touched : List (Fin 16) := s0.score.clears.map (·.1)
  let s1 := s0.applyClears
  let evs := s1.score.buffer
  let (spill, c) := evs.foldl (fun (x : List (Fin 16) × Score) e =>
    let (o, c1) := x.2.enter e.kind e.part e.subject e.value e.stamp
    (if o then e.part :: x.1 else x.1, c1)) ([], { s1.score with buffer := [] })
  let changed := allParts.filter (fun p => touched.contains p || evs.any (fun e => e.part = p))
  let c1 := changed.foldl (fun (c : Score) p =>
    { c with seq := c.seq.set (fun _ => 0) p.val ((c.seq.get (fun _ => 0) p.val + 2) % 2 ^ 32) }) c
  let s2 := { s1 with score := c1 }
  let s3 := (allParts.filter spill.contains).foldl (fun s p => s.statusOne p pgScr 4) s2
  s3.bump pgArb R.ARB_HEARTBEAT 1

def execScoresheetCommit (s : State) : Host.Outcome State Fault Refusal :=
  done s (if s.arbiterRuns then s.commitScore else s)

/-- SCR_CLEAR (R518): partition 0 names partitions whose entries go at the next commit. -/
def State.scrClear (s : State) (v : Word) : State :=
  let ps := allParts.filter (fun p => v.getLsbD p.val)
  { s with score := { s.score with clears := s.score.clears ++ ps.map (fun p => (p, s.now)) } }

def execScrClear (r : Req) (v : Word) (s : State) : Host.Outcome State Fault Refusal :=
  done s (s.asWrite r pgScr R.SCR_CLEAR true (fun s => s.scrClear v))

/-! ### Identity and placement effecters (R573), which the Arbiter's firmware serves -/

def execDeviceId (v : Word) (s : State) : Host.Outcome State Fault Refusal := done s (if s.arbiterRuns then s.writeDevId 0 v else s)

def execPlacement (v : Word) (s : State) : Host.Outcome State Fault Refusal :=
  done s (if s.arbiterRuns then s.setReg pgDev R.DEV_PLACEMENT (v &&& 0xFFFF) else s)

/-! ### Firmware update (R522 to R524, R527, R567) -/

def State.updPhase (s : State) : Nat := wbits (s.reg pgArb R.ARB_UPD_STATUS) 31 28

/-- `ARB_UPD_STATUS` takes a phase and its KiB. -/
def State.setPhase (s : State) (phase kib : Nat) : State := s.setReg pgArb R.ARB_UPD_STATUS (word (phase * 2 ^ 28 + kib % 2 ^ 20 * 2 ^ 8))

/-- The update ends, and the staging region is overwritten (R343, R523). The completion code of a step that fails is not stated: a
free value (assumption 40). -/
def State.updOver (s : State) (ok : Bool) : State :=
  let (n, s0) := s.fresh
  let s1 := if ok then (s.setPhase 5 (s.arb.imageSize / 1024)).statusAll pgArb 5
    else
      let s2 := (s0.setPhase 6 (s.arb.received / 1024)).statusAll pgArb 6
      s2.setReg pgArb R.ARB_UPD_STATUS (wput (s2.reg pgArb R.ARB_UPD_STATUS) 7 0 (Config.freeNat n 0 % 256))
  { s1 with
    arb := { s1.arb with newImage := s1.arb.newImage || ok }
    mem := if s.recovers then s1.mem else { s1.mem with cutOff := s1.mem.cutOff ++ [(s1.arb.stagedAt, 0)] } }

/-- ARB_UPD_STAGE: ignored with CMD_IGNORED during an update, or for a region partition 0 does not hold (R527). -/
def State.setStage (s : State) (p : Fin 16) (v : Word) : State :=
  let x := wbits v 8 0
  if (s.updPhase ≠ 0 ∧ s.updPhase ≠ 6) ∨ s.regions ≤ x ∨ ¬ s.regionHeldBy 0 x then s.cmdIgnored p pgArb
  else s.setReg pgArb R.ARB_UPD_STAGE (v &&& 0x800001FF)

def execArbUpdStage (r : Req) (v : Word) (s : State) : Host.Outcome State Fault Refusal :=
  done s (s.asWrite r pgArb R.ARB_UPD_STAGE false (fun s => s.setStage (s.reqPart r) v))

/-- REQUEST_UPDATE (R523 step 1): refused while no staging region is set or an update is under way. In recovery the ROM takes it, which
needs no region (R525). -/
def execRequestUpdate (size : Nat) (s : State) : Host.Outcome State Fault Refusal :=
  let st := s.reg pgArb R.ARB_UPD_STAGE
  done s (if (st.getLsbD 31 && s.arbiterRuns || s.recovers) && (s.updPhase = 0 || s.updPhase = 6) then
    { s.setPhase 1 0 with arb := { s.arb with imageSize := size, received := 0, stagedAt := wbits st 8 0 } }
  else s)

/-- REQUEST_FIRMWARE_DATA (R523 step 2): a transfer of at most 4 KiB lands in the staging region. -/
def execRequestFirmwareData (bytes : List Byte) (s : State) : Host.Outcome State Fault Refusal :=
  done s (if s.updPhase = 1 && decide (bytes.length ≤ 4096) && (s.arbiterRuns || s.recovers) then
    let s1 := if s.recovers then s else s.writeOrHold 0 (s.arb.stagedAt * 2 ^ 30 + s.arb.received) bytes
    let n := s.arb.received + bytes.length
    { s1.setPhase (if s.arb.imageSize ≤ n then 2 else 1) (n / 1024) with arb := { s1.arb with received := n } }
  else s)

/-- IMAGE_VERIFY_DONE (R523 step 3). -/
def execImageVerifyDone (ok : Bool) (s : State) : Host.Outcome State Fault Refusal :=
  done s (if s.updPhase = 2 then (if ok then s.setPhase 3 0 else s.updOver false) else s)

/-- The ROM boots the recovery image that it has verified and written (R525): start-up goes on behind step 1 (assumption 144). -/
def State.bootRecovered (s : State) : State :=
  { s.setPhase 0 0 with
    sys := { s.sys with devState := .starting, fault := false, safeCause := 0, bootStep := 1, warm := false }
    rot := { s.rot with akeyReady := false }
    arb := { s.arb with image := s.arb.image + 1, newImage := false } }

/-- FLASH_WRITE_DONE (R523 step 4): with AUX off the flash write fails (R567). -/
def execFlashWriteDone (s : State) : Host.Outcome State Fault Refusal :=
  done s (if s.updPhase = 3 then
    (if !s.sys.auxOn then s.updOver false
    else if s.recovers then s.bootRecovered
    else s.setPhase 4 (s.arb.imageSize / 1024))
  else s)

/-- READBACK_DONE (R523 step 5): the image awaits the next COLD reset or `RST_N`, or the update fails (assumption 40). -/
def execReadbackDone (ok : Bool) (s : State) : Host.Outcome State Fault Refusal :=
  done s (if s.updPhase = 4 then s.updOver ok else s)

end Sys2Proof.Machine
end

