-- ==== Sys2Proof/Machine/Mgmt.lean ====
section
/-!
DEFINITION. The Arbiter's management interfaces (R520, R521, R527): MCTP transports, bridging, the messages it handles with the
sensors that they read, and the mailbox.
-/

namespace Sys2Proof.Machine

open Sys2Proof

/-! ### State codes (R81, R542) -/

def DevState.code : DevState → Nat
  | .safe => 0
  | .starting => 1
  | .ready => 2
  | .resetting => 3

def Role.code : Role → Nat
  | .member => 0
  | .deputy => 1
  | .captain => 2
  | .standby => 3
  | .none => 4

def GState.code : GState → Nat
  | .steady => 0
  | .filling => 1
  | .restoring => 2
  | .shrunk => 3
  | .halted => 4

/-- A new adjournment's state, numbered in the order of R557's table (assumption 146). -/
def AdjState.code : AdjState → Nat
  | .none => 0
  | .saving => 1
  | .secured => 2
  | .exposed => 3
  | .abandoned => 4
  | .discarded => 5

/-! ### Management interfaces (R520, R521) -/

/-- SET_ENDPOINT_ID: the bus owner assigns the EID. -/
def execSetEndpointId (eid : Byte) (s : State) : Host.Outcome State Fault Refusal :=
  done s (if s.arbiterRuns then s.setReg pgArb R.ARB_MCTP (wput (s.reg pgArb R.ARB_MCTP) 7 0 eid.toNat) else s)

/-- DYNAMIC_ADDRESS: an I3C controller assigns a dynamic address, and SMBus is left (R520). -/
def execDynamicAddress (addr : Nat) (s : State) : Host.Outcome State Fault Refusal :=
  done s { s with arb := { s.arb with i3c := some addr } }

/-- Whether a message can come by its transport (R520), from PCIe to the physical function alone; in recovery the ROM serves I3C and
SMBus alone (R525). -/
def State.mctpReaches (s : State) (t : Nat) (fn : Fin 16) : Bool :=
  (s.arbiterRuns || (s.recovers && decide (t ≤ tpSmbus))) &&
  (if t = tpI3c then s.arb.i3c.isSome
  else if t = tpSmbus then s.arb.i3c.isNone
  else if t = tpPcie then s.fab.active && s.fab.pcieUp && decide (fn = 0)
  else decide (t ≤ tpMbox))

/-- The Arbiter of the active bridge passes a message on between PCIe and the members of its group (R520). -/
def State.mctpBridge (s : State) (m : MctpMsg) : State :=
  if m.transport = tpPcie then s.mctpSend { m with transport := tpMgmt, fn := 0 }
  else s.mctpSend { m with transport := tpPcie, fn := 0 }

/-- The PLDM type of a message and the sensor that it names: the places are the family's (assumption 146). -/
def pldmType (bs : List Byte) : Nat := nth 0 (bs.map BitVec.toNat) 1 % 64
def sensorId (bs : List Byte) : Nat := leNat ((bs.drop 3).take 2)

/-- A message that the Arbiter handles (R521): MCTP control, and PLDM Types 0, 2 and 5. The ROM serves control and PLDM Type 5 alone, whose
device answers Type 0 too (R525, assumption 146). -/
def State.mctpHandles (s : State) (m : MctpMsg) : Bool :=
  decide (m.type = 0) || decide (m.type = 1)
    && (decide (pldmType m.bytes = 0) || decide (pldmType m.bytes = 5) || decide (pldmType m.bytes = 2) && s.arbiterRuns)

/-- The numeric sensors of PLDM (R521, R542): temperature, beat rate and rail of a square, a die's temperature, a rail, the input power;
the group epoch, PLAN_RESULT, and of a partition the last secured adjournment and the interval. -/
def State.numericSensor (s : State) (id : Nat) : Option Nat :=
  let n := id % 256
  let square (hi lo : Nat) : Option Nat := if n < 72 then some (wbits (s.reg pgPwr (R.PWR_SQ + 4 * n)) hi lo) else none
  let adj := s.rcv.adj.get (fun _ => Adj.reset) (id % 16)
  if id / 256 = 1 then square 9 2
  else if id / 256 = 2 then square 31 20
  else if id / 256 = 3 then square 19 10
  else if id / 256 = 4 then (if s.diePresent n then some (wbits (s.reg pgPwr (R.PWR_DIE + 4 * n)) 7 0) else none)
  else if id / 256 = 5 then (if n < 16 then some (wbits (s.reg pgPwr (R.PWR_RAIL + 4 * n)) 15 0) else none)
  else if id = 0x600 then some (s.reg pgPwr R.PWR_INPUT_AVG).toNat
  else if id = 0x11 then some (s.epochOf (devGroup s.devId)).toNat
  else if id = 0x13 then some s.rcv.result
  else if id / 16 = 2 then some adj.secured
  else if id / 16 = 4 then some adj.interval
  else none

/-- The state sensors: DEVICE_STATE (R521), ROLE, GSTATE and of a partition ADJ_STATE (R542). -/
def State.stateSensor (s : State) (id : Nat) : Option Nat :=
  if id = 1 then some s.sys.devState.code
  else if id = 0x10 then some s.rcv.role.code
  else if id = 0x12 then some s.rcv.gstate.code
  else if id / 16 = 3 then some (s.rcv.adj.get (fun _ => Adj.reset) (id % 16)).st.code
  else none

/-- What a handled message is answered: a request (its first byte's bit 7) goes back over its transport with an answer whose bytes
DMTF gives (assumption 146); the mailbox is answered by MBOX_REPLY. What the message changes is a command of its own. -/
def State.mctpAnswer (s : State) (m : MctpMsg) : State :=
  if m.transport = tpMbox ∨ ¬ (m.bytes.headD 0).getLsbD 7 then s
  else
    let own := wbits (s.reg pgArb R.ARB_MCTP) 7 0
    let about (n : Nat) : Bool := decide (m.type = 1 ∧ pldmType m.bytes = 2) && nth 0 (m.bytes.map BitVec.toNat) 2 == n
    let sensor := if about 0x11 then s.numericSensor (sensorId m.bytes)
      else if about 0x21 then s.stateSensor (sensorId m.bytes)
      else none
    s.mctpSend { m with
      src := BitVec.ofNat 8 own
      dst := m.src
      bytes := Config.mgmtReply m.type.toNat m.bytes own (s.reg pgPwr R.PWR_CAP).toNat sensor }

/-- An MCTP message (R521): another endpoint's is bridged by the active bridge; control and PLDM messages are handled, SPDM goes to
the RoT, and every other type is dropped and counted. -/
def State.mctpArrives (s : State) (m : MctpMsg) : State :=
  let eid := BitVec.ofNat 8 (wbits (s.reg pgArb R.ARB_MCTP) 7 0)
  if !s.mctpReaches m.transport m.fn then s
  else if m.dst ≠ eid ∧ m.dst ≠ 0 ∧ s.fab.active ∧ (m.transport = tpPcie ∨ m.transport = tpMgmt) then s.mctpBridge m
  else if s.mctpHandles m then s.mctpAnswer m
  else if (m.type = 5 ∨ m.type = 6) ∧ s.arbiterRuns then { s with arb := { s.arb with spdmFrom := (m.transport, m.src) } }
  else
    let r := s.reg pgArb R.ARB_MCTP
    s.setReg pgArb R.ARB_MCTP (wput r 31 24 (min 255 (wbits r 31 24 + 1)))

def execMctp (m : MctpMsg) (s : State) : Host.Outcome State Fault Refusal := done s (s.mctpArrives m)

/-- MBOX_SEND_ARB: a write of `ARB_MBOX_CTRL` (R520, R527). With SEND it passes the message in the buffer to the Arbiter, by
the mailbox; without, it sets LENGTH. -/
def State.mboxCtrl (s : State) (p : Fin 16) (v : Word) : State :=
  let n := wbits v 11 0
  if (s.reg pgArb R.ARB_MBOX_CTRL).getLsbD 30 then s.cmdIgnored p pgArb
  else if !v.getLsbD 31 then s.setReg pgArb R.ARB_MBOX_CTRL (word n)
  else if n = 0 ∨ 2048 < n then s.cmdIgnored p pgArb
  else
    let bs := s.bufBytes 0 pgArb R.ARB_MBOX_BUF n
    let s1 := s.setReg pgArb R.ARB_MBOX_CTRL (word (2 ^ 30 + n))
    s1.mctpArrives ⟨tpMbox, 0, BitVec.ofNat 8 (wbits (s1.reg pgArb R.ARB_MCTP) 7 0), bs.headD 0, bs.drop 1, 0⟩

def execMboxSendArb (r : Req) (v : Word) (s : State) : Host.Outcome State Fault Refusal :=
  done s (s.asWrite r pgArb R.ARB_MBOX_CTRL false (fun s => s.mboxCtrl (s.reqPart r) v))

/-- MBOX_REPLY (R527): the reply stands in the buffer with its length, and MBOX_REPLY is set. -/
def execMboxReply (bytes : List Byte) (s : State) : Host.Outcome State Fault Refusal :=
  done s (if (s.reg pgArb R.ARB_MBOX_CTRL).getLsbD 30 && s.arbiterRuns then
    let b := bytes.take 2048
    ((s.fillBuf 0 pgArb R.ARB_MBOX_BUF b).setReg pgArb R.ARB_MBOX_CTRL (word b.length)).statusAll pgArb 4
  else s)

end Sys2Proof.Machine
end

