-- ==== Sys2Proof/Machine/Power.lean ====
section
/-!
DEFINITION. Spares and promotion (R142, R534 to R536), field self-test (R577 to R582), the resets of `DEV_RESET` (R85), the
power input and its protection (R564 to R569), and the start-up sequence (R570 to R576).
-/

namespace Sys2Proof.Machine

open Sys2Proof

/-! ### Spares and names (R141, R142, R534) -/

/-- `DEV_SPARES.FREE`. -/
def State.freeSpares (s : State) : Nat := wbits (s.reg pgDev R.DEV_SPARES) 7 0

def State.setSpareFree (s : State) (j : Nat) (b : Bool) : State :=
  s.setReg pgDev R.DEV_SPARES (word (putBits s.freeSpares j j (b01 b)))

/-- The physical position that spare place j names (assumption 41). -/
def State.sparePos (s : State) (j : Nat) : Nat := s.arb.sparePos.get (fun j => 64 + j) j

/-- The lowest free spare place. -/
def State.lowSpare (s : State) : Option Nat := (List.range 8).find? (fun j => bitOf s.freeSpares j)

/-- The spare place that names a physical position. -/
def State.spareAt (s : State) (p : Nat) : Option Nat := (List.range 8).find? (fun j => s.sparePos j = p)

/-- A logical name moves to a physical position: one remap change, and REMAPPED (R142, R145). -/
def State.remapTo (s : State) (q p : Nat) : State :=
  { s with squares := { s.squares with
      remap := s.squares.remap.set (fun q => q) q p
      remapGen := s.squares.remapGen + 1 } }.statusAll (pgSq q 0) 4

/-- Entries of a block of `size` keys from `a × size` on appear at `b × size` as well. -/
def copyKeys {α : Type} [DecidableEq α] (d : Nat → α) (m : FMap α) (a b size : Nat) : FMap α :=
  (m.keep (fun k => decide (k / size ≠ b))).cells.foldl
    (fun m' c => if c.1 / size = a then m'.set d (b * size + c.1 % size) c.2 else m')
    (m.keep (fun k => decide (k / size ≠ b)))

/-- Keys of one pawn image's instruction memories. -/
def pawnEra (img k : Nat) : Nat := img * 2 ^ 40 + k

/-- What an unlisted byte of a pawn memory reads as: 0 (assumption 3), or the firmware of the image written there. -/
def pawnDefault (k : Nat) : Byte := if k < 2 ^ 40 then 0 else Config.pawnImage (k / 2 ^ 40 - 1) (k % 0x20000)

/-- Pawn memories of physical square a as they stand, at b. -/
def copyPawnMem (m : FMap Byte) (a b : Nat) : FMap Byte :=
  let inSq (x k : Nat) : Bool := decide (k % 2 ^ 40 / 0x80000 = x)
  let m0 := m.keep (fun k => !inSq b k)
  m0.cells.foldl (fun m' c =>
    if inSq a c.1 then m'.set pawnDefault (pawnEra (c.1 / 2 ^ 40) (b * 0x80000 + c.1 % 0x80000)) c.2 else m') m0

/-- Everything a square holds is copied from position a to position b (R578): scratchpad, segment tables, pawns and their
memories and buffers. -/
def State.copySquare (s : State) (a b : Nat) : State :=
  let x := s.squares
  { s with
    squares := { x with
      spad := copyKeys spadDefault x.spad a b spadSize
      spadMark := copyKeys (fun _ => 0) x.spadMark a b (spadSize / 8)
      pawns := copyKeys (fun _ => Pawn.reset) x.pawns a b 4
      pawnMem := copyPawnMem x.pawnMem a b
      pawnImage := copyKeys (fun _ => 0) x.pawnImage a b 4
      pawnMark := copyKeys (fun _ => 0) x.pawnMark a b (0x80000 / 8)
      cmdBuf := copyKeys (fun _ => 0) x.cmdBuf a b (24 * 32) }
    sft := { s.sft with
      active := s.sft.active.set (fun _ => 0) b (s.sft.active.get (fun _ => 0) a)
      slots := copyKeys (fun _ => .builtin) s.sft.slots a b 64
      mark := copyKeys (fun _ => 0) s.sft.mark a b (64 * 512)
      leftOff := s.sft.leftOff.set (fun _ => false) b (s.sft.leftOff.get (fun _ => false) a) }
    sch := { s.sch with held := s.sch.held.map (fun h => match h.origin with
      | .port p k port n => if p = a then { h with origin := .port b k port n } else h
      | _ => h) } }

/-- The square that bears a name passes it to another position with what it holds (R578 step 4). -/
def State.handOver (s : State) (q p : Nat) : State := (s.copySquare (s.phys q) p).remapTo q p

/-- A spare returns to the pool, zeroed (R578 step 7). -/
def State.returnSpare (s : State) (j : Nat) : State := (s.zeroPhys (s.sparePos j)).setSpareFree j true

/-- SQ page subject of a square's scoresheet entries (R563). -/
def sqSubject (q : Nat) : Nat := bitsOf (errSq q) 23 12 * 256

/-! ### Promotion (R534 to R536) -/

/-- A page of a promoted square: its header's ENABLE is what the retired page last held, and it starts under R144; the counted
unit and the block-specific registers are new (R534 step 4, R535). -/
def State.promotePage (s : State) (pn : Nat) : State :=
  let p := s.page pn
  let lo := pn * 4096
  let s1 := { s with drs := { s.drs with
    regs := s.drs.regs.keep (fun k => decide (k / 4096 ≠ pn) || decide (k % 4096 < 0x80))
    errs := s.drs.errs.keep (fun k => decide (k < lo) || decide (lo + 4096 ≤ k)) } }
  let sq := decide (blockAt pn = .sq)
  s1.toPage pn { p with
    st := if p.enable && sq then .starting else .off
    pendingEn := p.enable && !sq
    zeroing := false
    ctl := 0 }

/-- Steps 2 to 4: a position takes the retired square's name. -/
def State.promoteTo (s : State) (q p us : Nat) : State :=
  let s1 := ((s.zeroPhys p).clearEngines q).remapTo q p
  let s2 := { s1 with squares := { s1.squares with standin := s1.squares.standin.set (fun _ => false) q false } }
  let s3 := (sqPages q).foldl State.promotePage s2
  s3.record 0x101 0 (sqSubject q) us

/-- A self-test ends for the sake of a promotion (R536): the tested square takes its name back, and its stand-in is free. -/
def State.endTest (s : State) (t : SelfTest) : State :=
  let s1 := match t.phase with
    | .copyOut => s
    | _ => s.handOver t.square.val t.phys
  let s2 := { s1 with
    squares := { s1.squares with standin := s1.squares.standin.set (fun _ => false) t.square.val false }
    arb := { s1.arb with test := none } }
  match s2.spareAt t.standin with
  | some j => s2.returnSpare j
  | none => s2

/-- A position takes the place of a retired square: the lowest free spare, if there is one. -/
def State.promoteSpare (s : State) (q us : Nat) : State :=
  match s.lowSpare with
  | some j => (s.setSpareFree j false).promoteTo q (s.sparePos j) us
  | none => s

/-- The promotion at the head of the queue (R536). A square whose stand-in failed takes back the position that was under test
(R582); the test of a square that is retired before its stand-in bears its name ends first; and a test elsewhere ends when no
other spare is free. -/
def State.promote (s : State) (q us : Nat) : State :=
  match s.arb.test with
  | some t =>
    if t.square.val = q ∧ t.phase ≠ .copyOut then
      { s with arb := { s.arb with test := none } }.promoteTo q t.phys us
    else if t.square.val = q ∨ s.lowSpare.isNone then (s.endTest t).promoteSpare q us
    else s.promoteSpare q us
  | none => s.promoteSpare q us

/-! ### Field self-test (R23, R577 to R582) -/

/-- Defers a square's test by 1 min, with the time spent on it (R23, R580). -/
def State.deferTest (s : State) (q : Fin 64) (spent : Nat) : State :=
  let s1 := s.record 9 0 q.val (spent / 1000000)
  { s1 with arb := { s1.arb with retries := s1.arb.retries ++ [(q, s1.now + 60000000000)] } }

/-- Starts the first of the squares that wait for a test (R577, R578 steps 1 and 2). While no spare is free, each of them is
deferred (R23). -/
def State.startTests : List (Fin 64) → State → State
  | [], s => s
  | q :: rest, s =>
    let s0 := { s with arb := { s.arb with tests := rest } }
    if s.sys.devState ≠ .ready ∨ (s.page (pgSq q.val 0)).st = .retired then State.startTests rest s0
    else
      match s0.lowSpare with
      | none => State.startTests rest (s0.deferTest q 0)
      | some j =>
        let s1 := (s0.setSpareFree j false).zeroPhys (s0.sparePos j)
        { s1 with arb := { s1.arb with test := some ⟨q, s1.phys q.val, s1.sparePos j, .copyOut, s1.now, false⟩ } }

/-- One square is tested at a time (R577). -/
def State.nextTest (s : State) : State := if s.arb.test.isSome then s else State.startTests s.arb.tests s

/-- More squares wait for a test. -/
def State.askTests (s : State) (qs : List (Fin 64)) : State :=
  if s.arbiterRuns ∧ s.sys.devState = .ready then
    { s with arb := { s.arb with tests := s.arb.tests ++ qs } }.nextTest
  else s

/-- SQUARE_PROMOTION: the promotion of the square that has waited longest, `us` after its retirement; then the next self-test
that waits may start. -/
def execSquarePromotion (q : Fin 64) (us : Nat) (s : State) : Host.Outcome State Fault Refusal :=
  done s (match s.squares.promotions with
    | x :: rest =>
      if x = q ∧ s.arbiterRuns ∧ s.sys.devState ≠ .safe then
        (({ s with squares := { s.squares with promotions := rest } }).promote q.val us).nextTest
      else s
    | [] => s)

/-- SELFTEST: effecter 0x0004 (R577). -/
def execSelftest (target : Nat) (s : State) : Host.Outcome State Fault Refusal :=
  done s (if target = 64 then s.askTests (List.finRange 64) else if h : target < 64 then s.askTests [⟨target, h⟩] else s)

/-- SELFTEST_PERIOD: effecter 0x0005 (R577). -/
def execSelftestPeriod (hours : Nat) (s : State) : Host.Outcome State Fault Refusal :=
  done s (if s.arbiterRuns then { s with arb := { s.arb with period := hours } } else s)

/-- SELFTEST_CYCLE: the period has passed. -/
def execSelftestCycle (s : State) : Host.Outcome State Fault Refusal :=
  done s (if s.arb.period ≠ 0 then s.askTests (List.finRange 64) else s)

/-- No command is admitted and not completed on a square's engines, mover or port 5 (R578 step 3). -/
def State.squareIdle (s : State) (q : Nat) : Bool := s.sch.jobs.all (fun j => !j.onSquare q)

/-- COPY_OUT_COMPLETE: the copy has ended, the square is idle and its pawns stand at an instruction boundary, so the name is handed
over; a copy-back ends the test
(R578 steps 2 to 4, 6 and 7). -/
def State.copied (s : State) : State :=
  match s.arb.test with
  | none => s
  | some t =>
    let busy := (List.range 4).any (s.pawnOpen (s.phys t.square.val))
    if !s.squareIdle t.square.val || busy then s
    else
      match t.phase with
      | .copyOut =>
        let s1 := s.handOver t.square.val t.standin
        { s1 with
          squares := { s1.squares with standin := s1.squares.standin.set (fun _ => false) t.square.val true }
          arb := { s1.arb with test := some { t with phase := .testing, since := s1.now } } }
      | .copyBack => (s.endTest t).nextTest
      | .testing => s

def execCopyOutComplete (s : State) : Host.Outcome State Fault Refusal := done s s.copied

/-- SELF_TEST_COMPLETE: the test of the physical square has ended (R578, R581, R582); one whose regulator has failed meanwhile does not
pass (R567). -/
def State.tested (s : State) (sound : Bool) : State :=
  match s.arb.test with
  | none => s
  | some t =>
    let pass := sound && !s.squares.retiredPhys.get (fun _ => false) t.phys
    if t.phase ≠ .testing then s
    else if pass ∧ ¬ t.solo then
      { s with arb := { s.arb with test := some { t with phase := .copyBack, since := s.now } } }
    else
      let s1 := { s with
        squares := { s.squares with standin := s.squares.standin.set (fun _ => false) t.square.val false }
        arb := { s.arb with test := none } }
      let s2 :=
        if pass then
          (match s1.spareAt t.standin with
          | some j =>
            ({ s1 with arb := { s1.arb with sparePos := s1.arb.sparePos.set (fun j => 64 + j) j t.phys } }).returnSpare j
          | none => s1)
        else
          let s3 := { s1 with squares := { s1.squares with retiredPhys := s1.squares.retiredPhys.set (fun _ => false) t.phys true } }
          (s3.record 0x100 0 (sqSubject t.square.val) 1).record 0x101 0 (sqSubject t.square.val) 0
      s2.nextTest

def execSelfTestComplete (pass : Bool) (s : State) : Host.Outcome State Fault Refusal := done s (s.tested pass)

/-- SELFTEST_ABANDON: copy-out or the first wait has exceeded its bound (R580). -/
def State.abandonTest (s : State) : State :=
  match s.arb.test with
  | none => s
  | some t =>
    if t.phase ≠ .copyOut then s
    else ((s.endTest t).deferTest t.square (s.now - t.since)).nextTest

def execSelftestAbandon (s : State) : Host.Outcome State Fault Refusal := done s s.abandonTest

/-- SELFTEST_RETRY: one minute after a test was put off, the square is tried again (R580). -/
def execSelftestRetry (q : Fin 64) (s : State) : Host.Outcome State Fault Refusal :=
  done s (match s.arb.retries.find? (fun r => r.1 = q) with
    | none => s
    | some r =>
      (({ s with arb := { s.arb with retries := s.arb.retries.erase r } }).reach r.2).askTests [q])

/-! ### Resets (R85, R582) -/

/-- `DEV_RESET_CAUSE` takes a bit. -/
def State.cause (s : State) (bit : Nat) : State :=
  s.setReg pgDev R.DEV_RESET_CAUSE (s.reg pgDev R.DEV_RESET_CAUSE ||| word (2 ^ bit))

/-- The commands in flight end ABORTED, and their contexts fault (R85); what a crossing holds is discarded (R107). -/
def State.abortAll (s : State) : State :=
  let ctxs := s.sch.jobs.map (·.ctx)
  let s1 := (s.colAbort (fun _ => true)).endJobs (fun _ => true) cAborted
  let s2 := (s1.sch.jobs.map (·.id)).foldl (fun s id => s.completeNow id 0) s1
  let s3 := ctxs.foldl (fun s c => (s.setCtx c { s.ctx c with st := .faulted }).dropWaits c) s2
  { s3 with
    sch := { s3.sch with jobs := [], held := [], heldOps := [] }
    fab := { s3.fab with heldIn := [], txs := s3.fab.txs.filter (fun t => match t.owner with
      | .job _ => false
      | .pawn _ _ => false
      | _ => true) } }

/-- The pages an ENGINE reset takes (R85). -/
def engineBlock : Block → Bool
  | .sq | .mxe | .vxe | .sft | .mov | .spd | .pwn | .mesh | .mem | .mch | .upd | .lnk | .sch | .stx | .col => true
  | _ => false

/-- The pages of some blocks go to OFF with their registers at reset, but for RETIRED ones, which stay withdrawn. OWNER and
LOCK belong to the partition table and stay. -/
def State.resetPages (s : State) (f : Block → Bool) : State :=
  let hit (pn : Nat) : Bool := f (blockAt pn) && decide ((s.page pn).st ≠ .retired)
  let s1 := { s with drs := { s.drs with
    regs := s.drs.regs.keep (fun k => !hit (k % 2 ^ 24 / 4096))
    errs := s.drs.errs.keep (fun k => !hit (k / 4096)) } }
  let s2 := (s1.livePages.filter hit).foldl (fun s pn => s.setPage pn { Page.reset with lock := (s.page pn).lock }) s1
  [Block.sch, Block.col].foldl (fun s b => if f b then s.resetSelectors b else s) s2

/-- What the squares' stores and engines lose (R85). -/
def State.wipeSquares (s : State) : State :=
  { s with
    squares := { s.squares with
      spad := emptyMap, spadMark := emptyMap, pawns := emptyMap, pawnMem := emptyMap, pawnMark := emptyMap,
      pawnImage := emptyMap, cmdBuf := emptyMap, selfGated := emptyMap, scrubPos := emptyMap }
    sft := ⟨emptyMap, emptyMap, emptyMap, emptyMap, emptyMap⟩
    mxe := emptyMap, vxe := emptyMap, mov := emptyMap
    col := { s.col with colls := [], held := [] }
    mem := { s.mem with held := [] } }

/-- ENGINE (R85, R582): a field self-test runs on, and its stand-in keeps the name. -/
def State.resetEngine (s : State) : State :=
  let s1 := (s.abortAll.resetPages engineBlock).wipeSquares
  let s2 := (s1.fab.links.keys).foldl (fun s n =>
    s.setLink n { s.link n with st := .down, replay := [], waiting := [], rx := [], discarding := false, waived := false }) s1
  let s3 := match s2.arb.test with
    | none => s2
    | some t =>
      (match t.phase with
      | .copyBack =>
        let s4 := { s2 with
          squares := { s2.squares with standin := s2.squares.standin.set (fun _ => false) t.square.val false }
          arb := { s2.arb with test := none } }
        (match s4.spareAt t.standin with
        | some j => ({ s4 with arb := { s4.arb with sparePos := s4.arb.sparePos.set (fun j => 64 + j) j t.phys } }).returnSpare j
        | none => s4)
      | _ => { s2 with arb := { s2.arb with test := some { t with solo := true } } })
  s3.cause 4

/-- WARM (R85, R574): every page outside the island; start-up resumes at step 5. -/
def State.resetWarm (s : State) : State :=
  let s1 := (s.abortAll.resetPages (fun b => hasStates b || b = .mch)).wipeSquares
  let s2 := { s1 with
    fab := { State.reset.fab with lanesOut := s1.fab.lanesOut, active := s1.sys.bridgeEn, intSent := s1.fab.intSent }
    sys := { s1.sys with devState := .resetting, bootStep := 4, warm := true }
    arb := { s1.arb with test := none, tests := [], retries := [] } }
  s2.cause 3

/-- Everything but fuses, pins, flash and the queue returns to its state after reset (R85, R109, R519): local time is 0, the
scoresheet empty, every key gone, and device memory without stated contents. The newest image in flash is the one that
boots. -/
def State.coldStart (s : State) (causeBit : Nat) : State :=
  let d := s.destroyKeys
  let z := State.reset
  let img := if s.arb.newImage then s.arb.image + 1 else s.arb.image
  let s1 := { z with
    pending := s.pending, out := s.out, free := s.free
    sys := { z.sys with
      variant := s.sys.variant, serial := s.sys.serial, stepping := s.sys.stepping, fieldLock := s.sys.fieldLock,
      pciVendor := s.sys.pciVendor, pciDevice := s.sys.pciDevice, strapFeed := s.sys.strapFeed,
      strapBridge := s.sys.strapBridge, strapStandby := s.sys.strapStandby, feedId := s.sys.strapFeed,
      bridgeEn := s.sys.strapBridge, bridgeStandby := s.sys.strapStandby, vbus := s.sys.vbus, powered := s.sys.powered,
      rstN := s.sys.rstN, perstN := s.sys.perstN, auxOn := s.sys.auxOn, auxRetry := s.sys.auxRetry,
      localSense := s.sys.localSense, debugOpened := s.sys.debugOpened && decide (causeBit ≠ 0) }
    mem := { z.mem with regionEra := d.mem.regionEra }
    fab := { z.fab with active := s.sys.strapBridge }
    rot := { z.rot with lifecycle := s.rot.lifecycle, rollback := s.rot.rollback }
    arb := { z.arb with image := img } }
  ((s1.setReg pgDev R.DEV_RESET_CAUSE (word (2 ^ causeBit))).setReg pgDev R.DEV_PLACEMENT (word s.sys.strapFeed.toNat)).setReg
    pgPwr R.PWR_CAP (word s.sys.variant.maxWatt)

/-- A `DEV_RESET` write with the key; the widest reset named applies (R85). A device in the safe state takes a COLD reset alone,
and under INPUT_OV only once VBUS is back at 60 V (R583). -/
def State.devReset (s : State) (v : Word) : State :=
  if wbits v 31 16 ≠ 0xA5C3 then s
  else if v.getLsbD 2 then
    if s.sys.devState = .safe ∧ s.sys.safeCause.toNat = scInputOv ∧ 6000 < s.sys.vbus then s else s.coldStart 2
  else if s.sys.devState = .safe then s
  else if v.getLsbD 1 then s.resetWarm
  else if v.getLsbD 0 then s.resetEngine
  else s

/-- A requester's write of `DEV_RESET`: partition 0 alone makes it. -/
def State.askReset (s : State) (r : Req) (v : Word) : State := s.asWrite r pgDev R.DEV_RESET true (fun s => s.devReset v)

/-- ENGINE_RESET, WARM_RESET, COLD_RESET: writes of `DEV_RESET` (R85). -/
def execEngineReset (r : Req) (v : Word) (s : State) : Host.Outcome State Fault Refusal := done s (s.askReset r v)
def execWarmReset (r : Req) (v : Word) (s : State) : Host.Outcome State Fault Refusal := done s (s.askReset r v)
def execColdReset (r : Req) (v : Word) (s : State) : Host.Outcome State Fault Refusal := done s (s.askReset r v)

/-! ### The power input and the pins (R565 to R568, R570, R592) -/

/-- VBUS takes a level, in 10 mV: above 80 V nothing is promised (R597); above 62 V the device enters the safe state; below
36 V the device loses power; rising through 39 V it gains it, and with `RST_N` high start-up begins (R565, R570). -/
def State.vbusAt (s : State) (v : Nat) : Host.Outcome State Fault Refusal :=
  if 8000 < v then .fault .aboveAbsoluteMaximum
  else
    let s1 := { s with sys := { s.sys with vbus := v } }
    if v < 3600 then donePin s (if s.sys.powered then ({ s1 with sys := { s1.sys with powered := false } }).coldStart 0 else s1)
    else
      let s2 := if !s.sys.powered && decide (3900 ≤ v) then ({ s1 with sys := { s1.sys with powered := true } }).coldStart 0 else s1
      donePin s (if 6200 < v ∧ s2.alive then s2.enterSafe scInputOv else s2)

/-- VBUS_RISE, VBUS_LOSS, INPUT_OV: VBUS has moved to a new level. -/
def execVbusRise (v : Nat) (s : State) : Host.Outcome State Fault Refusal := s.vbusAt v
def execVbusLoss (v : Nat) (s : State) : Host.Outcome State Fault Refusal := s.vbusAt v
def execInputOv (v : Nat) (s : State) : Host.Outcome State Fault Refusal := s.vbusAt v

/-- RST_N_ASSERTED: the whole device is held in reset, and the scoresheet is emptied (R519, R570). -/
def execRstNAsserted (s : State) : Host.Outcome State Fault Refusal :=
  donePin s (({ s with sys := { s.sys with rstN := false } }).coldStart 1)

/-- RST_N: deasserted after at least 10 µs; the straps are sampled and start-up begins (R84, R570). Above 60 V a device stays
under INPUT_OV (R583). -/
def execRstN (s : State) : Host.Outcome State Fault Refusal :=
  if s.sys.rstN then donePin s s
  else
    let s1 := ({ s with sys := { s.sys with rstN := true } }).coldStart 1
    donePin s (if 6000 < s1.sys.vbus ∧ s1.sys.powered then s1.enterSafe scInputOv else s1)

/-- POWER_DIE: a power die overheats or loses a phase (R567). -/
def execPowerDie (_die : Fin 4) (_phaseLost : Bool) (s : State) : Host.Outcome State Fault Refusal :=
  done s (s.enterSafe scPowerDie)

/-- PLANE: the 1.8 V plane has left its window (R567). -/
def execPlane (s : State) : Host.Outcome State Fault Refusal := done s (s.enterSafe scPlane)

/-- AUX_OVERLOAD: after 10 ms in its limit the output is switched off, to be retried (R567). -/
def execAuxOverload (s : State) : Host.Outcome State Fault Refusal :=
  done s { s with sys := { s.sys with auxOn := false, auxRetry := true } }

/-- AUX_RETRY: one second later the output is tried again (R567). -/
def execAuxRetry (cleared : Bool) (s : State) : Host.Outcome State Fault Refusal :=
  done s (if s.sys.auxRetry && cleared then { s with sys := { s.sys with auxOn := true, auxRetry := false } } else s)

/-- AUX_FAULT: 30 s without flash during start-up steps 2 to 4 (R567). -/
def execAuxFault (s : State) : Host.Outcome State Fault Refusal :=
  done s (if !s.sys.auxOn && decide (1 ≤ s.sys.bootStep) && decide (s.sys.bootStep < 4) then s.enterSafe scAux else s)

/-- REMOTE_SENSE_FAULT: the input voltage is measured at the power dies, until the lands have read well for 1 s (R502, R567). -/
def execRemoteSenseFault (recovered : Bool) (s : State) : Host.Outcome State Fault Refusal :=
  done s (if recovered then { s with sys := { s.sys with localSense := false } }
    else if s.sys.localSense then s
    else ({ s with sys := { s.sys with localSense := true } }).sensorFail 6 0)

/-- REGULATOR_FAILURE: the square at a physical position is retired at once and promoted; a spare is used no more (R567,
R576). -/
def State.regulatorFails (s : State) (p : Nat) : State :=
  match s.nameAt p with
  | some q => s.retireSquare q
  | none =>
    let s1 := { s with squares := { s.squares with retiredPhys := s.squares.retiredPhys.set (fun _ => false) p true } }
    match s1.spareAt p with
    | some j => s1.setSpareFree j false
    | none => s1

def execRegulatorFailure (p : Fin 72) (s : State) : Host.Outcome State Fault Refusal := done s (s.regulatorFails p.val)

/-- REFCLK_LOSS: the clocked islands stop, and local time stands (R592). -/
def execRefclkLoss (s : State) : Host.Outcome State Fault Refusal :=
  done s { s with sys := { s.sys with refclk := false } }

/-- PERST_N: the PCIe controller and the HBR page are reset (R86); a device with neither strap of a bridge ignores it
(R588). -/
def State.portReset (s : State) : State :=
  if s.sys.bridgeEn || s.sys.bridgeStandby then
    let s1 := s.resetPages (fun b => b = .hbr)
    { s1 with fab := { s1.fab with
        msix := emptyMap, bars := [], active := s1.sys.bridgeEn, takeover := false
        pcieUp := false, pcieWidth := 0, pcieSpeed := 0, numVfs := 0 } }
  else s

def execPerstN (s : State) : Host.Outcome State Fault Refusal := done s s.portReset

/-- WATCHDOG: 500 ms without service (R526). -/
def execWatchdog (s : State) : Host.Outcome State Fault Refusal :=
  done s (({ s.enterSafe scWatchdog with sys := { (s.enterSafe scWatchdog).sys with arbHeld := true } }).cause 5)

/-- ARBITER_BOOT: the Arbiter's firmware has not started within step 4's bound (R584). -/
def execArbiterBoot (s : State) : Host.Outcome State Fault Refusal :=
  done s (if s.sys.bootStep = 3 then s.enterSafe scArbiterBoot else s)

/-! ### Start-up (R570 to R576) -/

/-- A start-up failure is recorded as LASTING_FAULT; no fault is counted (R576). -/
def State.recordStart (s : State) (base unit : Nat) : State := s.record 0x100 0 (bitsOf base 23 12 * 256 + unit) 1

/-- The blocks whose units step 6 tests in place (R74, R575): all that have a state machine but the PCIe port, which has been
active since step 4, and, after a WARM reset, the stacks (R574). DESIGN CHOICE: which pages belong to the units of R575
(assumption 119). -/
def testedBlock (warm : Bool) (b : Block) : Bool :=
  hasStates b && b ≠ .hbr && !(warm && (b = .mem || b = .upd))

/-- The present pages of the units under test, the highest first. -/
def State.testPages (s : State) (warm : Bool) : List Nat :=
  ((List.range 0x1000).reverse).filter (fun pn => testedBlock warm (blockAt pn) && s.present pn)

/-- The Arbiter starts a page's self-test (R70). No work is left to drain: step 5 has just powered the unit up. -/
def State.testPage (s : State) (pn : Nat) : State :=
  let p := s.page pn
  if p.st = .retired then s else s.toPage pn { p with st := .testing }

/-- A page's test passes (R70): STARTING when ENABLE_PENDING is 1, else OFF. An enable that R144 holds stays pending, DEDUCED from
R144 (assumption 119). -/
def State.passPage (s : State) (pn : Nat) : State :=
  let p := s.page pn
  if p.st ≠ .testing then s
  else if p.pendingEn && !s.enableHeld pn then s.toPage pn { p with st := .starting, pendingEn := false }
  else s.toPage pn { p with st := .off }

/-- A page's test fails (R70): FAULTED, and, as no unit takes its place, RETIRED (R576). -/
def State.failPage (s : State) (pn : Nat) : State :=
  let p := s.page pn
  (if p.st = .testing then s.toPage pn { p with st := .faulted, enable := false, pendingEn := false } else s).retirePage pn

/-- A main-position square failed, now or before: its name goes to the lowest spare that passed, whose state its
pages then show (R74), or its pages are RETIRED. -/
def State.startSquare (s : State) (p : Nat) : State :=
  let s1 := { s with squares := { s.squares with retiredPhys := s.squares.retiredPhys.set (fun _ => false) p true } }
  match s1.lowSpare with
  | some j =>
    let s2 := s1.setSpareFree j false
    let s3 := { s2 with squares := { s2.squares with remap := s2.squares.remap.set (fun q => q) p (s2.sparePos j) } }
    ((sqPages p).filter (fun pn => (s3.page pn).st = .retired)).foldl (fun s pn =>
      s.toPage pn { Page.reset with lock := (s.page pn).lock }) s3
  | none => (sqPages p).foldl State.failPage s1

/-- The squares' tests settle: spares first, then main positions in ascending order. -/
def State.startSquares (s : State) (bad : List Nat) : State :=
  let out (p : Nat) : Bool := bad.contains p || s.squares.retiredPhys.get (fun _ => false) p
  let s1 := bad.foldl (fun s p => if p < 64 then s.recordStart (errSq p) 0 else s.record 0x100 0 p 1) s
  let s2 := (List.range 8).foldl (fun s j =>
    if out (64 + j) then
      { s.setSpareFree j false with squares := { s.squares with
        retiredPhys := s.squares.retiredPhys.set (fun _ => false) (64 + j) true } }
    else s.setSpareFree j true) { s1 with arb := { s1.arb with sparePos := emptyMap } }
  (allSquares.filter out).foldl State.startSquare s2

/-- A failed data channel's logical name goes to the next spare that passed, without a copy. -/
def State.startChannel (s : State) (k ch : Nat) : State :=
  let s1 := s.recordStart (errChan k ch) (ch % 8)
  if 128 ≤ ch then (s1.setChan k ch ⟨.failed, 0⟩).setSpare k (ch - 128) { s1.spare k (ch - 128) with phase := 3 }
  else
    match s1.freeSpare k with
    | none => s1
    | some j =>
      ((s1.setChan k ch ⟨.retired, ch⟩).setChan k (128 + j) ⟨.serving, ch⟩).setSpare k j ⟨2, ch, ch, 0⟩

/-- Whether a stack can serve every logical channel. -/
def stackOk (t : StepResult) (k : Fin 8) : Bool :=
  let mine := (t.channels.filter (fun c => c.1 = k)).map (fun c => c.2.val)
  let bad := mine.eraseDups
  !t.bases.contains k && decide ((bad.filter (fun c => decide (c < 128))).length + (bad.filter (fun c => decide (128 ≤ c))).length ≤ 8)

/-- A lane's failure: the lane stays out; with fewer than two the page is RETIRED. -/
def State.startLane (s : State) (n k : Nat) : State :=
  let s1 := s.recordStart (errLane n k) k
  let s2 := { s1 with fab := { s1.fab with lanesOut := s1.fab.lanesOut.set (fun _ => false) (4 * n + k) true } }
  if ((List.range 4).filter (fun i => !s2.laneRetired n i)).length < 2 then s2.failPage (pgLnk n) else s2

/-- Step 6 (R575, R576). A WARM reset leaves out the stack test (R574). -/
def State.startTest (s : State) (warm : Bool) (t : StepResult) : State :=
  let fitted := (List.finRange 8).filter (fun k => s.stackFitted k.val)
  if !t.central then s.enterSafe scBist
  else if !warm && fitted.any (fun k => !stackOk t k) then s.enterSafe scStack
  else
    let s1 := s.startSquares ((t.squares.map (·.val)).eraseDups)
    let cs := if warm then [] else t.channels.eraseDups
    let spares := cs.filter (fun c => decide (128 ≤ c.2.val))
    let data := cs.filter (fun c => decide (c.2.val < 128))
    let s2 := (spares ++ data).foldl (fun s c => if s.stackFitted c.1.val then s.startChannel c.1.val c.2.val else s) s1
    let s3 := (t.lanes.eraseDups).foldl (fun s l => if s.linkFitted l.1.val then s.startLane l.1.val l.2.val else s) s2
    (s3.testPages warm).foldl State.passPage s3

/-- Step 7: the stacks are trained, partition 0's key is loaded, the MEM pages run, and the links begin step 8. -/
def State.startMemory (s : State) (warm : Bool) : State :=
  let s1 := if warm then s else { s with mem := { s.mem with keys := s.mem.keys ||| 1 } }
  let s2 := s1.sys.variant.stacks.foldl (fun s k =>
    (s.toPage (pgMem k) { s.page (pgMem k) with enable := true, st := .running }).whenRunning (pgMem k)) s1
  ((List.range 64).filter s2.linkFitted).foldl (fun s n =>
    if (s.page (pgLnk n)).st = .retired then s
    else (s.toPage (pgLnk n) { s.page (pgLnk n) with enable := true, st := .starting }).setLink n
      { s.link n with st := .detect }) s2

/-- Step 8 is complete (R572). -/
def State.linksSettled (s : State) : Bool :=
  ((List.range 64).filter s.linkFitted).all (fun n =>
    let l := s.link n
    l.st = .up || (l.st = .align && decide (2 ≤ popCount 4 l.laneOk.toNat) && !s.devIdValid) || l.waived
      || (s.page (pgLnk n)).st = .retired)

/-- Step 9: pawn firmware stands in every instruction memory. -/
def State.loadPawns (s : State) : State :=
  { s with squares := { s.squares with
      pawnMem := s.squares.pawnMem.keep (fun k => decide (0x10000 ≤ k % 0x20000))
      pawnImage := (List.range 288).foldl (fun m i => m.set (fun _ => 0) i (s.arb.image + 1)) s.squares.pawnImage } }

/-- A start-up step completes, if it can. The island leaves reset with step 1, and the PLL locks within 50 µs of that, at a moment
that the spec leaves free (R109; assumption 120). Once the units are powered up (step 5), their self-test begins. Steps that load a
component from flash wait while AUX is off (R567), and every step but the first needs the reference (R592). A component that fails
its check, or an image below the anti-rollback count, leads to the safe state (R524, R525, R571). -/
def State.startUp (s : State) (t : StepResult) : State :=
  let n := s.sys.bootStep
  let at_ (s : State) : State := { s with sys := { s.sys with bootStep := n + 1 } }
  let flash := decide (n = 1) || decide (n = 2) || decide (n = 3)
  let loads := flash || decide (n = 6) || decide (n = 7) || decide (n = 8)
  let warm := s.sys.warm
  if s.sys.devState = .safe ∨ 10 ≤ n then s
  else if 1 ≤ n ∧ ¬ s.sys.refclk then s
  else if flash && !s.sys.auxOn then s
  else if loads && !t.verified then s.enterSafe scVerify
  else if decide (n = 1) && decide (0 < s.rot.rollback) && decide (Config.fwSvn s.arb.image % 65 < s.rot.rollback) then
    s.enterSafe scVerify
  else if n = 0 then
    let (x, s1) := s.fresh
    at_ { s1 with sys := { s1.sys with pll := Config.freeNat x 0 % 50001 } }
  else if n = 1 then at_ { s with sys := { s.sys with pll := 0 } }
  else if n = 4 then
    let s1 := { s with
      squares := { s.squares with remap := emptyMap, standin := emptyMap, remapGen := 0 }
      sys := { s.sys with devState := .starting } }
    at_ ((s1.testPages warm).foldl State.testPage s1)
  else if n = 5 then
    let s1 := s.startTest warm t
    if s1.sys.devState = .safe then s1 else at_ s1
  else if n = 6 then at_ (s.startMemory warm)
  else if n = 7 then (if s.linksSettled then at_ s else s)
  else if n = 8 then at_ s.loadPawns
  else if n = 9 then
    at_ { s with
      sys := { s.sys with devState := .ready, warm := false }
      rot := { s.rot with rollback := max s.rot.rollback (Config.fwSvn s.arb.image % 65) } }
  else at_ s

def execStartUpStep (t : StepResult) (s : State) : Host.Outcome State Fault Refusal := done s (s.startUp t)

end Sys2Proof.Machine
end

