-- ==== Sys2Proof/Machine/Views.lean ====
section
/-!
DEFINITION. What registers show (R65, R81, R145 to R148, R186, R222, R247, R318, R344, R346, R372, R400, R441, R445, R470,
R498, R499, R512, R527 to R529): stored words, and the words that other state gives.
-/

namespace Sys2Proof.Machine

open Sys2Proof

/-! ### The header (R65, R69, R75) -/

/-- Block type codes (R65). -/
def Block.type : Block → Nat
  | .dev => 0x01
  | .arb => 0x02
  | .rot | .rotT => 0x03
  | .pwr | .pwrT => 0x04
  | .scr => 0x05
  | .sq => 0x10
  | .mxe => 0x11
  | .vxe => 0x12
  | .sft => 0x13
  | .mov => 0x14
  | .spd => 0x15
  | .pwn => 0x16
  | .mesh => 0x17
  | .mem => 0x20
  | .mch => 0x21
  | .upd => 0x22
  | .lnk => 0x30
  | .rte => 0x31
  | .stx => 0x32
  | .col => 0x33
  | .hbr => 0x40
  | .sch => 0x50
  | .none => 0

/-- `PAGE_CAPS` (the blocks' chapters; assumption 12). -/
def Block.caps : Block → Nat
  | .mxe => 0x3F
  | .vxe => 0x7
  | .sft => 0xF
  | .mov => 0x1F
  | .mem => 0x7
  | .upd => 0x1F
  | .sch => 0x3
  | .stx => 0x1
  | .lnk => 0x3
  | .rte => 0x1
  | .hbr => 0x3
  | .col => 0x7
  | .rot | .rotT => 0x7
  | .arb => 0x3
  | .pwr | .pwrT => 0x1
  | .scr => 0x1
  | _ => 0

/-- INSTANCE and INDEX of a page (R59, R65). -/
def pageInstance (pn : Nat) : Nat × Nat :=
  match blockAt pn with
  | .dev | .arb | .rot | .pwr | .scr | .rte | .stx | .col | .hbr | .sch | .none => (0, 0)
  | .rotT | .pwrT => (0, 1)
  | .mem | .mch | .upd => ((pn - 0x800) / 32, pn % 32)
  | .lnk => ((pn - 0xC00) / 4, 0)
  | _ => ((pn - 0x100) / 16, pn % 16)

/-- `STATE.STATE` codes (R69). -/
def PState.code : PState → Nat
  | .off => 0
  | .starting => 1
  | .running => 2
  | .draining => 3
  | .faulted => 4
  | .testing => 5
  | .retired => 6

/-- A register of a fault-counting set (R75): ERR_COUNT, ERR_WINDOW, ERR_THRESHOLD, ERR_LASTING. -/
def ErrSet.view (e : ErrSet) (i : Nat) : Nat :=
  match i with
  | 0 => e.total * 2 ^ 16 + e.inWindow
  | 1 => e.length
  | 2 => e.limit
  | _ => b01 e.lasting

/-- A header register of a present page, in the bank of partition p. -/
def State.headerView (s : State) (p : Fin 16) (pn off : Nat) : Nat :=
  let b := blockAt pn
  let g := s.page pn
  let on := alwaysOn b
  match errSetAt (pn * 4096 + off) with
  | some base => (s.err base).view ((pn * 4096 + off - base) / 4)
  | none =>
    if off = hPageId then b.type * 2 ^ 16 + (pageInstance pn).1 * 2 ^ 8 + (pageInstance pn).2
    else if off = 4 then 0x10000
    else if off = 8 then b.caps
    else if off = hOwner then b01 g.lock * 2 ^ 8 + (s.pageOwner pn).val
    else if off = hCtrl then if on then 3 else b01 g.enable + b01 g.drain * 2 + g.ctl.toNat
    else if off = hState then (s.pstate pn).code + b01 g.pendingEn * 2 ^ 3 + b01 g.zeroing * 2 ^ 4
    else if off = hIntStatus ∨ off = hIntEnable then (s.regB (intBank p pn) pn off).toNat
    else 0

/-! ### DEV (R81, R82) -/

/-- `DEV_CAPS` (R82). -/
def State.devCaps (s : State) : Nat :=
  let v := s.sys.variant
  v.stackMask + s.nStacks * 2 ^ 8 + v.ioMask * 2 ^ 12 + popCount 4 v.ioMask * 2 ^ 16 + 16 * popCount 4 v.ioMask * 2 ^ 19

def State.devView (s : State) (p : Fin 16) (off : Nat) : Nat :=
  let y := s.sys
  let m := s.summary p
  if off = R.DEV_SERIAL_LO then y.serial.toNat
  else if off = R.DEV_SERIAL_HI then y.serial.toNat / 2 ^ 32
  else if off = R.DEV_VARIANT then y.stepping.toNat * 2 ^ 8 + y.variant.code
  else if off = R.DEV_CAPS then s.devCaps
  else if off = R.DEV_STRAPS then y.feedId.toNat * 2 ^ 4 + b01 y.bridgeStandby * 2 + b01 y.bridgeEn
  else if off = R.DEV_STATUS then
    y.devState.code + b01 y.fault * 2 ^ 3 + b01 y.therm * 2 ^ 4 + b01 y.fieldLock * 2 ^ 5 + b01 y.debugOpened * 2 ^ 6
      + y.bootStep % 256 * 2 ^ 8 + y.safeCause.toNat * 2 ^ 16
  else if off = R.DEV_RESET then 0
  else if off = R.DEV_INT_SQ_LO then m
  else if off = R.DEV_INT_SQ_HI then m / 2 ^ 32
  else if off = R.DEV_INT_BLK then bitsOf m 71 64 + bitsOf m 89 80 * 2 ^ 16
  else if off = R.DEV_INT_LNK_LO then m / 2 ^ 96
  else if off = R.DEV_INT_LNK_HI then m / 2 ^ 128
  else if off = R.DEV_INT_CTRL then (s.regB p pgDev off).toNat
  else (s.reg pgDev off).toNat

/-! ### A square's pages -/

/-- What an edge port of the mesh is attached to (R12). -/
inductive Attach where
  | inner
  | io (k : Nat)
  | stack (k : Nat)
  | island
  | test
deriving DecidableEq, Repr

/-- The attachment of port N, E, S or W (0 to 3) of a physical position (R12). -/
def attachOf (p port : Nat) : Attach :=
  let f := p % 8
  let r := p / 8
  match port with
  | 0 => if r ≠ 8 then .inner else if 6 ≤ f then .io 2 else if 3 ≤ f then .stack 4 else .stack 5
  | 1 => if f ≠ 7 then .inner else if r ≤ 1 then .io 1 else if r ≤ 4 then .stack 2 else if r ≤ 7 then .stack 3 else .test
  | 2 => if r ≠ 0 then .inner else if f ≤ 1 then .io 0 else if f ≤ 4 then .stack 0 else .stack 1
  | _ => if f ≠ 0 then .inner else if 7 ≤ r then .io 3 else if 4 ≤ r then .stack 6 else if 1 ≤ r then .stack 7 else .island

/-- Whether a port carries traffic (R148). -/
def State.portPresent (s : State) (p port : Nat) : Bool :=
  match attachOf p port with
  | .inner | .island => true
  | .io k => bitOf s.sys.variant.ioMask k
  | .stack k => s.stackFitted k
  | .test => !s.sys.fieldLock

/-- `SQ_GATED.UNIT` (R145): bit i for a unit whose page is OFF, FAULTED or RETIRED, or that has gated itself. -/
def State.gatedBits (s : State) (q : Nat) : Nat :=
  let pages := [pgMxe q 0, pgMxe q 1, pgVxe q 0, pgVxe q 1, pgMov q, pgSft q, pgPwn q 0, pgPwn q 1, pgPwn q 2, pgPwn q 3]
  (pages.zipIdx.map (fun (pn, i) =>
    let st := s.pstate pn
    if st = .off || st = .faulted || st = .retired || s.isGated q i then 2 ^ i else 0)).sum

/-- The entries that admitted commands hold which have not completed. -/
def State.countJobs (s : State) (p : Job → Bool) : Nat := entryCount (s.sch.jobs.filter p)

def State.squareView (s : State) (pn off : Nat) : Nat :=
  let q := (pn - 0x100) / 16
  let ph := s.phys q
  let st := (s.reg pn off).toNat
  let eng (j : Job) : Bool := enginePage j.target j.square j.unit = pn
  match blockAt pn with
  | .sq =>
    let m := s.reg pgPwr (R.PWR_SQ + 4 * ph)
    if off = R.SQ_REMAP then ph + b01 (s.squares.standin.get (fun _ => false) q) * 2 ^ 15
    else if off = R.SQ_SENSE then wbits m 31 20 * 2 ^ 16 + wbits m 9 2 * 2 ^ 8
    else if off = R.SQ_RAIL then wbits m 19 10
    else if off = R.SQ_TIME_LO then s.sys.time.toNat
    else if off = R.SQ_TIME_HI then s.sys.time.toNat / 2 ^ 32
    else if off = R.SQ_GATED then s.gatedBits q
    else st
  | .mxe =>
    let u := pn % 16 - 1
    let e := s.mxeEng q u
    if off = R.MXE_QUEUE then
      s.countJobs (fun j => eng j && decide (j.phase = .queued)) + s.rowsOf e.window * 2 ^ 8
        + b01 (!e.window.isEmpty) * 2 ^ 16
    else if off = R.MXE_PASS then e.shape * 2 ^ 16 + (if e.shape = 0 then b01 (!e.slots.isEmpty) else (e.slots.map (fun x => 2 ^ x.1)).sum)
    else if off = R.MXE_SLOT_MASKED then e.masked
    else st
  | .vxe =>
    let u := pn % 16 - 3
    let e := s.vxeEng q u
    let loop (i : Nat) : Nat :=
      match e.loops.reverse[i]? with
      | some l => l.iter + 2 ^ 31
      | none => 0
    if off = R.VXE_QUEUE then
      let n := match s.vxeJob q u, e.chain with
        | some j, some c => (j.vprog.chainAt c).length
        | _, _ => 0
      s.countJobs eng + n * 2 ^ 16
    else if off = R.VXE_PC then e.chain.getD 0
    else if R.VXE_LOOP ≤ off ∧ off < R.VXE_TAPS then loop ((off - R.VXE_LOOP) / 4)
    else if off = R.VXE_TAPS then e.tapBits
    else st
  | .sft =>
    if off = R.SFT_ACTIVE then s.sftActive q
    else if off = R.SFT_VALID0 then s.sftValid q 0
    else if off = R.SFT_VALID1 then s.sftValid q 1
    else if off = R.SFT_HELD then s.bankHeld q 0 + s.bankHeld q 1 * 2 ^ 8
    else if off = R.SFT_QUEUE then s.countJobs eng + b01 (s.sch.jobs.any (fun j => eng j && j.isRunning)) * 2 ^ 8
    else if off = R.SFT_IMAGE_VER then Config.imageVersion % 2 ^ 16
    else st
  | .mov =>
    if R.MOV_CHAN ≤ off ∧ off < R.MOV_GATE then
      let c := (off - R.MOV_CHAN) / 4
      let mine (j : Job) : Bool := eng j && decide (j.movCmd.chan = c)
      let op := match s.sch.jobs.find? (fun j => mine j && j.isRunning) with
        | some j => j.movCmd.op + 2 ^ 31
        | none => 0
      op + s.countJobs mine * 2 ^ 8
    else st
  | .pwn =>
    let k := pn % 16 - 8
    let w := s.pawn ph k
    if off = R.PWN_STATUS then b01 w.halted + (if w.mode = .machine then 3 else 0) * 2 + b01 w.wfi * 2 ^ 3
    else if off = R.PWN_PC_LO then w.pc.toNat
    else if off = R.PWN_PC_HI then w.pc.toNat / 2 ^ 32
    else if off = R.PWN_MCAUSE then w.mcause.toNat
    else if off = R.PWN_MBOX_IN then 0
    else st
  | .mesh =>
    if off = R.MESH_SLOT then s.meshMask (s.sqOwner q)
    else if off = R.MESH_PORTS then
      ((List.range 4).map (fun i =>
        b01 (s.portPresent ph i) * 2 ^ i + b01 (attachOf ph i ≠ .inner) * 2 ^ (i + 4))).sum
    else if off = R.MESH_REMAP_GEN then s.squares.remapGen
    else st
  | _ => st

/-! ### Stacks (R344, R346, R372) -/

def ChanState.code : ChanState → Nat
  | .spareFree => 0
  | .serving => 1
  | .copySource => 2
  | .copyTarget => 3
  | .retired => 4
  | .failed => 5

/-- Eight slot owners of a frame, the last slot of the last register being the maintenance slot (R344, R441). -/
def State.slotWord (s : State) (f : Part → Nat) (i : Nat) : Nat :=
  ((List.range 8).map (fun m => if 8 * i + m = 63 then 0 else (s.slotOwner f (8 * i + m)).val * 2 ^ (4 * m))).sum

/-- `UPD_QUEUE.PHASE` (R372). -/
def UpdEng.phase (e : UpdEng) : Nat :=
  match e.stage with
  | .bitmap | .pass1 => 1
  | .combine | .start | .product => 2
  | .pass2 => 3

/-- The stack's pages. The update units show one command's phase and iteration on every unit's page, its outstanding tiles on the
coordinating unit's, which sends them (DESIGN CHOICE, assumption 137). -/
def State.stackView (s : State) (pn off : Nat) : Nat :=
  let k := (pn - 0x800) / 32
  let st := (s.reg pn off).toNat
  match blockAt pn with
  | .mem =>
    if off = R.MEM_GEOM then st + s.stackSlot k
    else if R.MEM_SLOT_OWNER ≤ off ∧ off < R.MEM_REFRESH then
      s.slotWord (fun e => e.memSlots.toNat) ((off - R.MEM_SLOT_OWNER) / 4)
    else if off = R.MEM_KEYS then s.mem.keys.toNat
    else if off = R.MEM_RELEASE then
      match s.mem.cutOff.head? with
      | some c => c.1 + 2 ^ 31
      | none => 0
    else if R.MEM_SPARE ≤ off ∧ off < R.MEM_SPARE + 64 then
      let x := s.spare k ((off - R.MEM_SPARE) / 8)
      if (off - R.MEM_SPARE) % 8 = 0 then x.source + x.logical * 2 ^ 8 + x.phase * 2 ^ 30 else x.progress
    else st
  | .mch =>
    if 0x80 ≤ off ∧ off < 0x180 ∧ off % 0x20 = 0x10 then
      let c := s.chan k ((pn % 32 - 1) * 8 + (off - 0x80) / 0x20)
      c.st.code + c.logical * 2 ^ 8
    else st
  | .upd =>
    let coord := s.updCoord = some k
    let mine (j : Job) : Bool := decide (j.target = tUpd)
    let run := s.updJob.map (fun j => s.updProgress j.id)
    if off = R.UPD_QUEUE then
      b01 coord * 2 ^ 11 + ((run.map UpdEng.phase).getD 0) * 2 ^ 9 + b01 run.isSome * 2 ^ 8 + (if coord then s.countJobs mine else 0)
    else if off = R.UPD_ORTHO then
      match run with
      | some e => e.iter + (if coord then (e.tiles.filter (fun x => !x.ready)).length else 0) * 2 ^ 4
      | none => 0
    else if R.UPD_HOST_PEND ≤ off ∧ off < R.UPD_HOST_PEND + 32 then
      if coord then
        ((List.range 32).map (fun j =>
          b01 (s.hostJob (8 * (off - R.UPD_HOST_PEND) + j)).isSome * 2 ^ j)).sum
      else 0
    else if off = R.UPD_SUMSQ ∧ !coord then 0
    else if off = R.UPD_HOST_DONE then 0
    else st
  | _ => st

/-! ### Central blocks, links and the bridge -/

/-- FIRST and LAST of a range as a register shows them; an empty range reads 0. -/
def rangeView (r : Range) : Nat := if r.count = 0 then 0 else r.first + (r.first + r.count - 1) * 2 ^ 16

def State.schView (s : State) (p : Fin 16) (off : Nat) : Nat :=
  let st := (s.regB p pgSch off).toNat
  if R.SCH_CTX_DATA ≤ off ∧ off < R.SCH_TC_SEL then
    match s.selCtx p with
    | some n => (halfOf (s.ctx n).words ((off - R.SCH_CTX_DATA) / 4)).toNat
    | none => 0
  else if off = R.SCH_TALLY_VAL then
    match s.selTally p with
    | some n => (s.tally n).toNat
    | none => 0
  else if off = R.SCH_CTX_RANGE then rangeView (s.rangeOf Part.ctx 65536 p)
  else if off = R.SCH_TC_RANGE then rangeView (s.rangeOf Part.tc 4096 p)
  else if off = R.SCH_TALLY_RANGE then rangeView (s.rangeOf Part.tally 16384 p)
  else if off = R.SCH_SEG_RANGE then rangeView (s.rangeOf Part.seg 1024 p)
  else if off = R.SCH_SLOTS then s.memSlots p + s.meshSlots p * 2 ^ 8
  else if off = R.SCH_TAG_QUOTA then s.tagQuota p
  else if off = R.SCH_TAG_INUSE then (s.fab.txs.filter (fun t => decide (t.part = p) && t.got.isNone && t.fail.isNone)).length
  else if off = R.SCH_CTX_OP ∨ off = R.SCH_TC_COMMIT ∨ off = R.SCH_TALLY_ADD ∨ off = R.SCH_DOORBELL then 0
  else st

def State.colView (s : State) (p : Fin 16) (off : Nat) : Nat :=
  if off = R.COL_GRP_RANGE then rangeView (s.rangeOf Part.grp 1024 p)
  else if off = R.COL_ACTIVE then (s.colls.filter (fun c => c.part = p)).length
  else if off = R.COL_GRP_COMMIT then 0
  else (s.regB p pgCol off).toNat

def State.lnkView (s : State) (pn off : Nat) : Nat :=
  let l := s.link ((pn - 0xC00) / 4)
  if off = R.LNK_STATUS then
    l.st.code + l.lanes * 2 ^ 3 + b01 (l.st = .up && decide (l.lanes < 4)) * 2 ^ 6 + b01 l.keyed * 2 ^ 7
      + l.laneOk.toNat * 2 ^ 8 + l.pol.toNat * 2 ^ 12
  else if off = R.LNK_PEER then l.peerLink.toNat + l.peerDev.toNat * 2 ^ 16
  else if R.LNK_SLOT_OWNER ≤ off ∧ off < R.LNK_TX_LO then
    s.slotWord (fun e => e.linkSlots.toNat) ((off - R.LNK_SLOT_OWNER) / 4)
  else if off = R.LNK_KEY then b01 l.rxPhase + b01 l.txPhase * 2
  else if R.LNK_LANE ≤ off ∧ off < R.LNK_LANE + 16 then
    let k := (off - R.LNK_LANE) / 4
    (nth 0 l.order k).val + (Config.laneMeasure (4 * ((pn - 0xC00) / 4) + k) (s.now / 1000000)).toNat / 256 * 256
  else (s.reg pn off).toNat

def State.hbrView (s : State) (p : Fin 16) (off : Nat) : Nat :=
  if off = R.HBR_ROLE then b01 s.sys.bridgeEn + b01 s.sys.bridgeStandby * 2 + b01 s.fab.active * 2 ^ 2
  else if off = R.HBR_PCIE then s.fab.pcieSpeed % 16 + s.fab.pcieWidth % 32 * 2 ^ 4 + b01 s.fab.pcieUp * 2 ^ 9
  else if off = R.HBR_NUMVF then s.fab.numVfs % 16
  else if off = R.HBR_PCI_ID then s.sys.pciVendor.toNat + s.sys.pciDevice.toNat * 2 ^ 16
  else (s.regB p pgHbr off).toNat

/-! ### The island -/

def State.rotView (s : State) (off : Nat) : Nat :=
  let st := (s.reg pgRot off).toNat
  if off = R.ROT_LIFECYCLE then
    s.rot.lifecycle + b01 s.rot.debugOpen * 2 ^ 3 + b01 s.unlockBarred * 2 ^ 4 + s.rot.pwFails % 256 * 2 ^ 8
  else if off = R.ROT_ROLLBACK then s.rot.rollback
  else if off = R.ROT_LAYOUT_GEN then s.pt.layoutGen.toNat
  else if off = R.ROT_REQ_OP then 0
  else if R.ROT_PT_DATA ≤ off ∧ off < R.ROT_POLICY then
    nth 0 (s.ptWords (Fin.ofNat 16 (wbits (s.reg pgRot R.ROT_PT_SEL) 3 0))) ((off - R.ROT_PT_DATA) / 4)
  else if R.ROT_REGION ≤ off ∧ off < R.ROT_REGION + 256 then
    let i := (off - R.ROT_REGION) / 4
    ((List.range 8).map (fun m => (s.mem.regionOwner.get (fun _ => 0) (8 * i + m)).val * 2 ^ (4 * m))).sum
  else st

def State.rotTView (s : State) (p : Fin 16) (off : Nat) : Nat :=
  let bits (i : Nat) (f : Nat → Bool) : Nat := ((List.range 32).map (fun j => b01 (f (32 * i + j)) * 2 ^ j)).sum
  let keys := s.rangeOf Part.key 256 p
  if off = R.ROT_T_PART then p.val + (s.part p).st.code * 2 ^ 4
  else if off = R.ROT_T_GEN then (s.part p).gen.toNat
  else if off = R.ROT_T_OP then 0
  else if off = R.ROT_T_KEYS then keys.first + keys.count * 2 ^ 8
  else if R.ROT_T_LOADED ≤ off ∧ off < R.ROT_T_EPH then
    bits ((off - R.ROT_T_LOADED) / 4) (fun n => (s.pt.keys.get (fun _ => none) n).any (fun k => k.part = p))
  else if R.ROT_T_EPH ≤ off ∧ off < R.ROT_T_EPH + 32 then bits ((off - R.ROT_T_EPH) / 4) (fun n => (s.eph? p n).isSome)
  else (s.regB p pgRotT off).toNat

def State.pwrView (s : State) (off : Nat) : Nat :=
  let st := (s.reg pgPwr off).toNat
  if off = R.PWR_CAP_REQ then 0
  else if off = R.PWR_RESERVED then ceilDiv s.reserved64 64
  else if off = R.PWR_TIME_LO then s.sys.time.toNat
  else if off = R.PWR_TIME_HI then s.sys.time.toNat / 2 ^ 32
  else if R.PWR_DIE ≤ off ∧ off < R.PWR_RAIL then
    st % 256 + b01 (s.diePresent ((off - R.PWR_DIE) / 4)) * 2 ^ 8
  else st

/-- The 64 words of an entry (R512). -/
def Entry.words (e : Entry) : List Nat :=
  let two (n : Nat) : List Nat := [n % 2 ^ 32, n / 2 ^ 32 % 2 ^ 32]
  [e.kind + e.part.val * 2 ^ 16 + b01 e.log2 * 2 ^ 20 + 2 ^ 31, e.subject, e.width, 0] ++ two e.count
    ++ [e.min, e.max] ++ two e.minStamp ++ two e.maxStamp ++ two e.firstStamp ++ two e.lastStamp
    ++ (chunks 4 ((List.range 64).flatMap (fun i => leBytes 3 (nth 0 e.bins i)))).map leNat

/-- A requester's number among the local ones (R78): host functions, pawns, and the island. -/
def reqNo : Req → Option Nat
  | .host fn => some fn.val
  | .pawn q k => some (16 + 4 * q.val + k.val)
  | .arbiter | .rot => some 272
  | .remote _ _ => none

/-- A requester's scoresheet cursor (R80, R516). -/
def State.cursor (s : State) (r : Req) : Nat :=
  match r, reqNo r with
  | .remote d p, _ => ((s.drs.remoteCursors.find? (fun c => c.dev = d && c.part = p)).map (·.index)).getD 0
  | _, some n => s.drs.cursors.get (fun _ => 0) n
  | _, none => 0

/-- The partition that a partition's SCR page describes (R529): partition 0 by `SCR_VIEW`, a tenant its own. -/
def State.scrView (s : State) (p : Fin 16) : Fin 16 :=
  if p = 0 then Fin.ofNat 16 (wbits (s.reg pgScr R.SCR_VIEW) 3 0) else p

def State.sheetView (s : State) (r : Req) (p : Fin 16) (off : Nat) : Nat :=
  let v := s.scrView p
  let es := s.score.view v
  if off = R.SCR_SEQ then s.score.seq.get (fun _ => 0) v.val
  else if off = R.SCR_COUNT then es.length
  else if off = R.SCR_CURSOR then s.cursor r
  else if off = R.SCR_VIEW then v.val
  else if off = R.SCR_QUOTA then quotaOf v + es.length * 2 ^ 16
  else if R.SCR_WIN ≤ off ∧ off < R.SCR_WIN + 256 then
    match es[s.cursor r]? with
    | some e => nth 0 e.words ((off - R.SCR_WIN) / 4)
    | none => 0
  else 0

/-- What a requester that reaches a register reads there. -/
def State.view (s : State) (r : Req) (pn off : Nat) : Word :=
  let p := s.reqPart r
  if !s.present pn then 0
  else if isHeader off then word (s.headerView p pn off)
  else
    match errSetAt (pn * 4096 + off) with
    | some base => word ((s.err base).view ((pn * 4096 + off - base) / 4))
    | none =>
      match blockAt pn with
      | .none => 0
      | .dev => word (s.devView p off)
      | .arb =>
        if off = R.ARB_FW_VER then Config.fwVersion s.arb.image
        else if off = R.ARB_SVN then word (Config.fwSvn s.arb.image % 65)
        else s.reg pn off
      | .rot => word (s.rotView off)
      | .rotT => word (s.rotTView p off)
      | .pwr => word (s.pwrView off)
      | .pwrT => word (if off = R.PWR_T_TIME_LO then s.sys.time.toNat else if off = R.PWR_T_TIME_HI then s.sys.time.toNat / 2 ^ 32 else 0)
      | .scr => word (s.sheetView r p off)
      | .sch => word (s.schView p off)
      | .stx => s.regB p pn off
      | .col => word (s.colView p off)
      | .hbr => word (s.hbrView p off)
      | .lnk => word (s.lnkView pn off)
      | .rte => s.reg pn off
      | .mem | .mch | .upd => word (s.stackView pn off)
      | _ => word (s.squareView pn off)

end Sys2Proof.Machine
end

