-- ==== Sys2Proof/Machine/Drs.lean ====
section
/-!
DEFINITION. Accesses to the device register space (R57 to R64, R78 to R80): reads with their latches, writes sent to the
register they name, and the register pairs.
-/

namespace Sys2Proof.Machine

open Sys2Proof

/-! ### Pairs (R78, R79) -/

/-- Whether an offset of a block is the low word of a 64-bit value. -/
def isPairLow (b : Block) (off : Nat) : Bool :=
  match b with
  | .dev => off = R.DEV_SERIAL_LO || off = R.DEV_INT_SQ_LO || off = R.DEV_INT_LNK_LO
  | .sq => off = R.SQ_TIME_LO
  | .mxe => off = R.MXE_BUSY_LO
  | .vxe => off = R.VXE_BUSY_LO
  | .mov => off = R.MOV_BUSY_LO || off = R.MOV_BYTES_LO || off = R.MOV_FAULT_POS_LO
  | .pwn => off = R.PWN_PC_LO
  | .mem => off = R.MEM_RD_LO || off = R.MEM_WR_LO
  | .mch => decide (0x80 ≤ off) && decide (off < 0x180) && off % 0x20 = 0x14
  | .upd => off = R.UPD_BLOCKS_LO
  | .lnk => off = R.LNK_TX_LO || off = R.LNK_RX_LO
  | .rte => decide (R.RTE_INTRA ≤ off) && decide (off < R.RTE_INTER + 2048) && off % 8 = 0
  | .sch => off = R.SCH_CTX_DATA + 8 || off = R.SCH_CTX_DATA + 16 || off = R.SCH_CTX_DATA + 32 || off = R.SCH_TC_DATA + 8
  | .col => off = R.COL_BYTES_LO || off = R.COL_GRP_DATA + 8
  | .rot => off = R.ROT_PT_DATA + 8
  | .pwr => off = R.PWR_TIME_LO
  | .pwrT => off = R.PWR_T_TIME_LO
  | _ => false

/-- The writable pairs are the route entries (R443). DESIGN CHOICE: a half of a 64-bit word in the SCH and COL windows is a
register of its own, which takes a write at once (assumption 112). -/
def isPairWritable (off : Nat) : Bool := blockAt (off / 4096) = .rte && isPairLow .rte (off % 4096)

def pairLow (off : Nat) : Bool := isPairLow (blockAt (off / 4096)) (off % 4096)
def pairHigh (off : Nat) : Bool := decide (4 ≤ off % 4096) && isPairLow (blockAt (off / 4096)) (off % 4096 - 4)

def noLatch (_ : Nat) : Option Latch := none

/-- BAD_ACCESS in the bank of the requester's partition (R60, R63). -/
def State.badAccess (s : State) (p : Fin 16) : State := s.statusOne p pgDev 4

/-! ### Reads -/

/-- Whether the register's fields include one that partition 0 alone writes, or belong to a fault-counting set (R63). -/
def regRwo (off : Nat) : Bool :=
  (errSetAt off).isSome ||
  (match regFields (blockAt (off / 4096)) (off % 4096) with
    | some fs => fs.any (fun f => f.acc = .rwo)
    | none => false)

/-- What a requester reads at an aligned offset, latches left aside. -/
def State.peek (s : State) (r : Req) (off : Nat) : Word :=
  if s.mayRead r (off / 4096) (off % 4096) (regRwo off) then s.view r (off / 4096) (off % 4096) else 0

/-- A remote requester's cursor becomes the most recently used; a new one takes the place of the one used least recently
(R80). -/
def State.touchCursor (s : State) (dev : BitVec 16) (part : Fin 16) (v : Option Nat) : State :=
  let cs := s.drs.remoteCursors
  let mine (c : RemoteCursor) : Bool := c.dev = dev && c.part = part
  match cs.find? mine, v with
  | none, none => s
  | old, v =>
    let x : RemoteCursor := ⟨dev, part, v.getD ((old.map (·.index)).getD 0)⟩
    { s with drs := { s.drs with remoteCursors := (x :: cs.filter (fun c => !mine c)).take 64 } }

/-- A 32-bit read (R60, R78, R80): a low word latches its pair's high word for a local requester; a high word comes from the
latch that holds its pair. -/
def State.drsRead (s : State) (r : Req) (off : Nat) : Word × State :=
  if off % 4 ≠ 0 then (0, s.badAccess (s.reqPart r))
  else
    let v := s.peek r off
    match r, reqNo r with
    | .remote d p, _ => (v, if blockAt (off / 4096) = .scr then s.touchCursor d p none else s)
    | _, none => (v, s)
    | _, some n =>
      if !s.mayRead r (off / 4096) (off % 4096) (regRwo off) then (v, s)
      else if pairLow off then
        (v, { s with drs := { s.drs with
          latches := s.drs.latches.set noLatch n (some ⟨off, s.peek r (off + 4)⟩) } })
      else if pairHigh off then
        match s.drs.latches.get noLatch n with
        | some l => (if l.pair = off - 4 then l.value else v, s)
        | none => (v, s)
      else (v, s)

/-! ### Writes -/

/-- Fields that have no behaviour of their own: RW and RWO fields take the written bits, W1C fields clear where 1 is written,
the rest stay (R63, R65). -/
def plainWrite (fs : List Field) (old v : Word) : Word :=
  let rw := word (fieldsMask (fun a => a = .rw || a = .rwo) fs)
  let w1c := word (fieldsMask (fun a => a = .w1c) fs)
  ((old &&& ~~~rw) ||| (v &&& rw)) &&& ~~~(v &&& w1c)

/-- The bank that a register of a page is kept in for a partition (R63). -/
def regBank (p : Fin 16) (pn off : Nat) : Fin 16 :=
  if bankedRegs (blockAt pn) || (blockAt pn = .dev && decide (R.DEV_INT_SQ_LO ≤ off)) then p else 0

/-- A write of a register whose fields have no behaviour of their own. -/
def State.writePlain (s : State) (p : Fin 16) (pn off : Nat) (v : Word) : State :=
  match regFields (blockAt pn) off with
  | none => s
  | some fs =>
    let b := regBank p pn off
    s.setRegB b pn off (plainWrite fs (s.regB b pn off) v)

/-- Whether a route entry may be written (R444): no absent link named, and MAXHOPS at least 1 in a valid entry. -/
def State.routeOk (s : State) (v : Nat) : Bool :=
  (routeCandidates v).all s.linkFitted && ((routeCandidates v).isEmpty || decide (0 < routeMaxHops v))

/-- A route entry is written whole (R444); its reserved bits read 0. -/
def State.writeRoute (s : State) (p : Fin 16) (off : Nat) (v : Nat) : State :=
  let o := off % 4096
  if s.routeOk v then
    (s.setReg pgRte o (word v)).setReg pgRte (o + 4) (word (v / 2 ^ 32 % 2 ^ 29))
  else s.cmdIgnored p pgRte

/-- A group's epoch rises (R431). -/
def State.raiseEpoch (s : State) (g : Nat) (v : Word) : State := s.setReg pgRte (R.RTE_EPOCH + 4 * g) v

/-- A write of a group's epoch: one that would lower it is ignored (R431). -/
def State.writeEpoch (s : State) (p : Fin 16) (g : Nat) (v : Word) : State :=
  if v.toNat < (s.epochOf g).toNat then s.cmdIgnored p pgRte else s.raiseEpoch g v

/-- A window write whose target would cover the DRS range is ignored (R445). -/
def State.writeWindow (s : State) (p : Fin 16) (n : Nat) (v : Word) : State :=
  if wbits v 15 0 = 0xFFFF then s.cmdIgnored p pgHbr else s.setRegB p pgHbr (R.HBR_WIN + 4 * n) v

/-- ACTIVE and TAKEOVER_DONE, once the standby's port is up (R446). -/
def State.takeOver (s : State) : State :=
  ({ s with fab := { s.fab with active := true, takeover := false } }).statusAll pgHbr 5

/-- A write of `HBR_ROLE`: TAKEOVER activates a standby bridge once its port is up; on any other device, and on one with both
straps, it has no effect (R446, R595). -/
def State.writeRole (s : State) (v : Word) : State :=
  if !v.getLsbD 3 || !s.sys.bridgeStandby || s.sys.bridgeEn || s.fab.active then s
  else if s.fab.pcieUp then s.takeOver
  else { s with fab := { s.fab with takeover := true } }

/-- A message to a pawn (R147): `HOST_MBOX` is bit 7 of `IRQ_PEND` (R129). -/
def State.mboxIn (s : State) (q k : Nat) (v : Word) : State :=
  let w := s.pawn (s.phys q) k
  (s.setReg (pgPwn q k) R.PWN_MBOX_IN v).setPawn (s.phys q) k { w with irqPend := w.irqPend ||| 0x80 }

/-- Firmware writes `PWN_MBOX_OUT` (R147). -/
def State.mboxOut (s : State) (q k : Nat) (v : Word) : State :=
  (s.setReg (pgPwn q k) R.PWN_MBOX_OUT v).statusAll (pgPwn q k) 4

/-- A write of a header register by a requester (R65). -/
def State.writeHeader (s : State) (p : Fin 16) (pn off : Nat) (v : Word) : State :=
  match errSetAt (pn * 4096 + off) with
  | some base =>
    let i := (pn * 4096 + off - base) / 4
    if i = 1 then s.setErrWindow p base v else if i = 2 then s.setErrThreshold base v else s
  | none =>
    if off = hOwner then
      if blockAt pn = .sq then s.writeOwner p pn v else s.setPage pn { s.page pn with lock := v.getLsbD 8 }
    else if off = hCtrl then (if s.sys.devState = .safe then s else s.writeCtrl p pn v)
    else if off = hIntStatus then s.clearStatus p pn v
    else if off = hIntEnable then s.setIntEnable p pn v
    else if off = hIntForce then s.forceInt p pn v
    else s

/-- A block-specific write to the scheduler's page (R376, R377, R380, R385, R393, R400). -/
def State.writeSch (s : State) (p : Fin 16) (off : Nat) (v : Word) : State :=
  if off = R.SCH_CTX_SEL ∨ off = R.SCH_TC_SEL ∨ off = R.SCH_TALLY_SEL then s.selector p pgSch off v
  else if off = R.SCH_CTX_OP then
    match s.selCtx p with
    | none => s.cmdIgnored p pgSch
    | some n =>
      let op := wbits v 1 0
      if op = 1 then s.startCtx p n else if op = 2 then s.stopCtx p n else if op = 3 then s.resetCtx p n else s
  else if R.SCH_CTX_DATA ≤ off ∧ off < R.SCH_TC_SEL then s.ctxData p ((off - R.SCH_CTX_DATA) / 4) v
  else if off = R.SCH_TC_COMMIT then
    if v.getLsbD 0 then s.tcCommit p (wbits (s.regB p pgSch R.SCH_TC_SEL) 11 0) else s
  else if off = R.SCH_TALLY_VAL then
    match s.selTally p with
    | some n => s.orHold (.tallySet n v) (fun s => s.setTally n v)
    | none => s.cmdIgnored p pgSch
  else if off = R.SCH_TALLY_ADD then
    match s.selTally p with
    | some n => s.orHold (.tallyAdd n v) (fun s => s.setTally n (s.tally n + v))
    | none => s.cmdIgnored p pgSch
  else if off = R.SCH_DOORBELL then
    let c := wbits v 15 0
    if s.holdsCtx p c then s.orHold (.doorbell c (wbits v 31 16)) (fun s => s.ringBell c (wbits v 31 16))
    else s.cmdIgnored p pgSch
  else s.writePlain p pgSch off v

/-- A block-specific write that reaches its register, sent to the behaviour the register has. -/
def State.writeBlock (s : State) (r : Req) (pn off : Nat) (v : Word) : State :=
  let p := s.reqPart r
  let q := (pn - 0x100) / 16
  match errSetAt (pn * 4096 + off) with
  | some base =>
    let i := (pn * 4096 + off - base) / 4
    if i = 1 then s.setErrWindow p base v else if i = 2 then s.setErrThreshold base v else s
  | none =>
    match blockAt pn with
    | .dev =>
      if off = R.DEV_ID then s.writeDevId p v
      else if off = R.DEV_RESET then s.devReset v
      else s.writePlain p pn off v
    | .arb =>
      if off = R.ARB_MBOX_CTRL then s.mboxCtrl p v
      else if off = R.ARB_UPD_STAGE then s.setStage p v
      else s.writePlain p pn off v
    | .rot => if off = R.ROT_REQ_OP then s.writeReqOp p v else s.writePlain p pn off v
    | .rotT =>
      if off = R.ROT_T_OP then s.writeTOp p v
      else if off = R.ROT_T_OFFSET then
        (s.setRegB p pn off v).fillBuf p pgRotT R.ROT_T_BUF
          (((s.rot.results.get (fun _ => []) p.val).drop v.toNat).take 2048)
      else s.writePlain p pn off v
    | .pwr =>
      if off = R.PWR_CAP_REQ then s.capRequest (wbits v 11 0)
      else if off = R.PWR_POLICY then s.setTarget p v
      else s.writePlain p pn off v
    | .scr =>
      if off = R.SCR_CURSOR then
        match r, reqNo r with
        | .remote d p, _ => s.touchCursor d p (some (wbits v 12 0))
        | _, some n => { s with drs := { s.drs with cursors := s.drs.cursors.set (fun _ => 0) n (wbits v 12 0) } }
        | _, none => s
      else if off = R.SCR_CLEAR then s.scrClear v
      else s.writePlain p pn off v
    | .mxe => if off = R.MXE_CHECK then s.setTolExp p q (pn % 16 - 1) v else s.writePlain p pn off v
    | .spd =>
      if 0x80 ≤ off ∧ off < 0xC0 then s.writeSwizzle p q ((off - 0x80) / 8) (off % 8 = 4) v
      else s.writePlain p pn off v
    | .pwn =>
      let k := pn % 16 - 8
      if off = R.PWN_MBOX_IN then s.mboxIn q k v
      else if off = R.PWN_MBOX_OUT then
        match r with
        | .pawn q' k' => if q'.val = q ∧ k'.val = k then s.mboxOut q k v else s.writePlain p pn off v
        | _ => s.writePlain p pn off v
      else s.writePlain p pn off v
    | .mem => if off = R.MEM_SCRUB ∧ wbits v 15 0 = 0 then s.cmdIgnored p pn else s.writePlain p pn off v
    | .upd => if off = R.UPD_HOST_DONE then s.hostDone p ((pn - 0x800) / 32) (wbits v 7 0) else s.writePlain p pn off v
    | .sch => s.writeSch p off v
    | .col =>
      if off = R.COL_GRP_SEL then s.selector p pn off v
      else if off = R.COL_GRP_COMMIT then
        let n := wbits (s.regB p pgCol R.COL_GRP_SEL) 9 0
        if v.getLsbD 0 then s.grpCommit p n ((List.range 6).map (fun i => s.regB p pgCol (R.COL_GRP_DATA + 4 * i))) else s
      else if off = R.COL_JOIN_TIMEOUT ∧ wbits v 23 0 < 1000 then s.cmdIgnored p pn
      else s.writePlain p pn off v
    | .rte =>
      if R.RTE_EPOCH ≤ off then s.writeEpoch p ((off - R.RTE_EPOCH) / 4) v
      else if off = R.RTE_TIMEOUT ∧ wbits v 23 0 < 10 then s.cmdIgnored p pn
      else s.writePlain p pn off v
    | .hbr =>
      if off = R.HBR_ROLE then s.writeRole v
      else if R.HBR_WIN ≤ off ∧ off < R.HBR_WIN + 64 then s.writeWindow p ((off - R.HBR_WIN) / 4) v
      else s.writePlain p pn off v
    | _ => s.writePlain p pn off v

/-- A low word of a writable pair is held for its requester; the high word commits both (R79). -/
def State.writeHalf (s : State) (r : Req) (off : Nat) (v : Word) : State :=
  match reqNo r with
  | none => s.badAccess (s.reqPart r)
  | some n =>
    if isPairWritable off then
      { s with drs := { s.drs with holds := s.drs.holds.set noLatch n (some ⟨off, v⟩) } }
    else
      let low := match s.drs.holds.get noLatch n with
        | some l => if l.pair = off - 4 then l.value else 0
        | none => 0
      let s1 := { s with drs := { s.drs with holds := s.drs.holds.set noLatch n none } }
      s1.writeRoute (s.reqPart r) (off - 4) (low.toNat + v.toNat * 2 ^ 32)

/-- A 32-bit write (R60, R63, R79, R80). -/
def State.drsWrite (s : State) (r : Req) (off : Nat) (v : Word) : State :=
  let pn := off / 4096
  let o := off % 4096
  if off % 4 ≠ 0 then s.badAccess (s.reqPart r)
  else
    s.asWrite r pn o (regRwo off || decide (o = hOwner)) (fun s =>
      if isHeader o then s.writeHeader (s.reqPart r) pn o v
      else if isPairWritable off || (decide (4 ≤ off) && isPairWritable (off - 4)) then s.writeHalf r off v
      else s.writeBlock r pn o v)

/-! ### 8-byte accesses of a remote device (R80) -/

def State.drsRead8 (s : State) (r : Req) (off : Nat) : DWord × State :=
  if off % 8 ≠ 0 then (0, s.badAccess (s.reqPart r))
  else
    let (lo, s1) := s.drsRead r off
    let (hi, s2) := s1.drsRead r (off + 4)
    (BitVec.ofNat 64 (lo.toNat + hi.toNat * 2 ^ 32), s2)

def State.drsWrite8 (s : State) (r : Req) (off : Nat) (v : DWord) : State :=
  if off % 8 ≠ 0 then s.badAccess (s.reqPart r)
  else if isPairWritable off then
    s.asWrite r (off / 4096) (off % 4096) true (fun s => s.writeRoute (s.reqPart r) off v.toNat)
  else (s.drsWrite r off (v.setWidth 32)).drsWrite r (off + 4) (word (v.toNat / 2 ^ 32))

/-- Answers the requester of a command that reads (assumption 5). -/
def State.respond (s : State) (v : Nat) : State := { s with resp := some (BitVec.ofNat 64 v) }

/-! ### The commands -/

/-- An access that R60 admits: 32 bits, aligned; a remote device may also use 8 bytes (R80). -/
def goodAccess (r : Req) (off size : Nat) : Bool :=
  (size = 4 && off % 4 = 0) ||
  (match r with
    | .remote _ _ => size = 8 && off % 8 = 0
    | _ => false)

/-- An access without effect: a write does nothing more, a read answers 0. -/
def State.noAccess (s : State) (write : Bool) : State := if write then s else s.respond 0

/-- BAD_ACCESS (R60): an access that is not of that kind is ignored, or reads 0. A device over a link is admitted first (R61). -/
def execBadAccess (r : Req) (off : BitVec 24) (size : Nat) (write : Bool) (s : State) : Host.Outcome State Fault Refusal :=
  done s (if !s.admitted r then (s.countUnadmitted r).noAccess write
    else if goodAccess r off.toNat size then s
    else (s.badAccess (s.reqPart r)).noAccess write)

/-- PAIR_LOW_READ (R78). -/
def execPairLowRead (r : Req) (off : BitVec 24) (s : State) : Host.Outcome State Fault Refusal :=
  done s (let (v, s1) := s.drsRead r off.toNat; s1.respond v.toNat)

/-- PAIR_LOW_WRITE, PAIR_HIGH_WRITE (R79). -/
def execPairLowWrite (r : Req) (off : BitVec 24) (v : Word) (s : State) : Host.Outcome State Fault Refusal :=
  done s (s.drsWrite r off.toNat v)
def execPairHighWrite (r : Req) (off : BitVec 24) (v : Word) (s : State) : Host.Outcome State Fault Refusal :=
  done s (s.drsWrite r off.toNat v)

/-- REMOTE_PAIR_ACCESS (R80): by a device over a link that the peer list admits (R61), 8 bytes or 4. -/
def State.remoteAccess (s : State) (r : Req) (off size : Nat) (write : Option DWord) : State :=
  if !s.admitted r then (s.countUnadmitted r).noAccess write.isSome
  else if !goodAccess r off size then (s.badAccess (s.reqPart r)).noAccess write.isSome
  else
    match write with
    | some v => if size = 8 then s.drsWrite8 r off v else s.drsWrite r off (v.setWidth 32)
    | none =>
      if size = 8 then let (v, s1) := s.drsRead8 r off; s1.respond v.toNat
      else let (v, s1) := s.drsRead r off; s1.respond v.toNat

def execRemotePairAccess (dev : BitVec 16) (part : Fin 16) (off : BitVec 24) (size : Nat) (write : Option DWord) (s : State) :
    Host.Outcome State Fault Refusal :=
  done s (s.remoteAccess (.remote dev part) off.toNat size write)

/-- RTE_ENTRY_WRITE (R443, R444): a route entry is committed whole. -/
def execRteEntryWrite (r : Req) (off : BitVec 24) (v : DWord) (s : State) : Host.Outcome State Fault Refusal :=
  done s (if isPairWritable off.toNat then
    s.asWrite r pgRte (off.toNat % 4096) true (fun s => s.writeRoute (s.reqPart r) off.toNat v.toNat)
  else s)

/-- HBR_WIN (R445). -/
def execHbrWin (r : Req) (n : Fin 16) (v : Word) (s : State) : Host.Outcome State Fault Refusal :=
  done s (s.asWrite r pgHbr (R.HBR_WIN + 4 * n.val) false (fun s => s.writeWindow (s.reqPart r) n.val v))

/-- TAKEOVER (R446): a write of `HBR_ROLE`. -/
def execTakeover (r : Req) (v : Word) (s : State) : Host.Outcome State Fault Refusal :=
  done s (s.asWrite r pgHbr R.HBR_ROLE true (fun s => s.writeRole v))

end Sys2Proof.Machine
end

