-- ==== Sys2Proof/Machine/Deliver.lean ====
section
/-!
DEFINITION. What a packet does at its destination (R422, R428 to R431, R439, R440), but for MGMT packets, which stand in
`Recovery` and `Route`.
-/

namespace Sys2Proof.Machine

open Sys2Proof

/-! ### Requests -/

/-- Who makes a DRS access that arrives by packet (R61): a deterministic request of this group's bridge is a host function's
(R426, R436), any other the remote device's. Until `RTE_BRIDGE` is valid, any device of the group may be the bridge
(assumption 42). -/
def State.linkReq (s : State) (p : Packet) : Req :=
  let b := s.reg pgRte R.RTE_BRIDGE
  let bridge := !b.getLsbD 16 || BitVec.setWidth 16 b = p.src
  if p.det && devGroup p.src = devGroup s.devId && bridge then .host p.part else .remote p.src p.part

def isHostReq : Req → Bool
  | .host _ => true
  | _ => false

/-- A request to the DRS (R60, R80): a bad access is ignored, or reads 0. -/
def State.drsPacket (s : State) (r : Req) (off : Nat) (p : Packet) : State :=
  let size := if p.type = ptRead then p.len.toNat else p.payload.length
  if !goodAccess r off size then
    let s1 := s.badAccess (s.reqPart r)
    if p.type = ptRead then s1.answer ptData p 0 (List.replicate size 0) else s1.answer ptAck p 0 []
  else if p.type = ptRead then
    if size = 8 then
      let (v, s1) := s.drsRead8 r off
      s1.answer ptData p 0 (leBytes 8 v.toNat)
    else
      let (v, s1) := s.drsRead r off
      s1.answer ptData p 0 (leBytes 4 v.toNat)
  else
    let v := leNat p.payload
    (if size = 8 then s.drsWrite8 r off (BitVec.ofNat 64 v) else s.drsWrite r off (word v)).answer ptAck p 0 []

/-- The DRS offset that a WRITE or READ names, if it names one. -/
def State.packetDrs (s : State) (p : Packet) : Option Nat :=
  match s.placeOf p.addr.toNat (if p.type = ptRead then p.len.toNat else p.payload.length) with
  | .drs off => some off
  | _ => none

/-- A WRITE or READ arrives (R428): the checks, then the registers, device memory or a scratchpad. -/
def State.takeRequest (s : State) (p : Packet) : State :=
  match s.packetDrs p with
  | some off =>
    let r := s.linkReq p
    (match (if isHostReq r then s.epochVerdict p else s.verdict p) with
      | (.ok, s1) => s1.drsPacket r off p
      | (.held, s1) => s1
      | (.refused c, s1) => s1.nack p c)
  | none => s.checked p (fun s => s.packetIn p)

/-! ### Answers (R429) -/

/-- The side whose read of a remote address has failed: a DECRYPT's tag, or the source. -/
def State.readSide (s : State) (j : Job) (a : Nat) : Nat :=
  let c := j.movCmd
  if c.op = mDecrypt ∧ a = localOf (s.canonAddr c.src.saddr + 16 * (s.movProgress j).window) then sideKey else sideSrc

/-- The position of a failed request in a command's present window (R318). -/
def State.movFailAt (s : State) (j : Job) (write : Bool) : Nat :=
  let c := j.movCmd
  if c.op = mDecrypt ∨ c.op = mPlan then s.movAt j
  else if write then s.badWrite j c
  else
    let ch := s.movProgress j
    match (s.movWindow j c ch).1 with
    | .fail _ _ pos => pos
    | _ => s.movAt j

/-- A transaction fails, and the command that waits for it ends with the code: a mover's as R314 gives. -/
def State.txFails (s : State) (tag code : Nat) : State :=
  match s.openTx tag with
  | none => s
  | some t =>
    let s1 := s.failTx tag code
    match t.owner with
    | .job id =>
      (match (s1.job? id).filter Job.live with
        | some j =>
          if j.target = tMov then
            s1.movBreak j code (if t.isWrite then sideDst else s1.readSide j t.addr) (s1.movFailAt j t.isWrite)
          else s1.endJob id code
        | none => s1)
    | _ => s1

/-- A collective's packet has failed at its destination (R464): the collective that ARG names ends. -/
def State.colNacked (s : State) (p : Packet) : State :=
  match s.colls.find? (fun c => c.part = p.part && decide (c.grp = colGroup p) && decide (c.seq = colSeq p)) with
  | some c => s.colFail c.job p.code.toNat
  | none => s

/-- A NACK arrives: for an outstanding transaction, or for a packet without one. A dropped SIGNAL has no further effect
(R394). -/
def State.takeNack (s : State) (p : Packet) : State :=
  match s.openTx p.tag.toNat with
  | some _ => s.txFails p.tag.toNat p.code.toNat
  | none => if p.tag = colTag ∧ p.addr ≠ sigAddr ∧ p.addr ≠ intAddr then s.colNacked p else s

/-- A DATA arrives for an outstanding read. -/
def State.takeData (s : State) (p : Packet) : State :=
  match s.openTx p.tag.toNat with
  | some t => if t.isWrite then s else s.giveTx p.tag.toNat p.payload
  | none => s

/-- An ACK arrives for an outstanding write, or for this partition's last INTERRUPT (R440). -/
def State.takeAck (s : State) (p : Packet) : State :=
  if p.addr = intAddr then
    if p.arg.toNat = s.fab.intSent.get (fun _ => 0) p.part.val % 2 ^ 32 then
      { s with fab := { s.fab with intWait := s.fab.intWait.filter (· ≠ p.part) } }
    else s
  else
    match s.openTx p.tag.toNat with
    | some t => if t.isWrite then s.giveTx p.tag.toNat [] else s
    | none => s

/-! ### Interrupts at the bridge (R439, R440) -/

/-- An INTERRUPT arrives at the active bridge: it is acknowledged, and its vector is raised once, however often it is resent. -/
def State.takeInterrupt (s : State) (p : Packet) : State :=
  if !s.fab.active then s
  else
    let k := p.part.val * 65536 + p.src.toNat
    let s1 := s.answer ptAck p 0 []
    if s1.fab.intSeen.get (fun _ => 0) k = p.arg.toNat then s1
    else
      let s2 := { s1 with fab := { s1.fab with intSeen := s1.fab.intSeen.set (fun _ => 0) k p.arg.toNat } }
      s2.raiseVector p.part (devMember p.src)

/-! ### Delivery -/

/-- A packet that is no MGMT packet at its destination. -/
def State.deliver (s : State) (p : Packet) : State :=
  if p.type = ptWrite ∨ p.type = ptRead then s.takeRequest p
  else if p.type = ptData then s.takeData p
  else if p.type = ptAck then s.takeAck p
  else if p.type = ptNack then s.takeNack p
  else if p.type = ptSignal then s.applyHeld (.signal p)
  else if p.type = ptCommand then s.checked p (fun s => s.takeCommand p)
  else if p.type = ptCollective then s.colArrives p
  else if p.type = ptInterrupt then s.takeInterrupt p
  else s.countDrop p 1

/-- The requests held for a newer epoch that the group's entry has now reached go on (R430). -/
def State.releaseEpochs (s : State) : State :=
  let still (h : EpochHold) : Bool := s.newerEpoch h.packet
  (s.fab.epochHeld.filter (fun h => !still h)).foldl (fun s h => s.deliver h.packet)
    { s with fab := { s.fab with epochHeld := s.fab.epochHeld.filter still } }

/-- A packet of a type arrives at this device. -/
def State.arrives (s : State) (type : Byte) (p : Packet) : State :=
  if p.type = type ∧ p.dst = s.devId then (s.deliver p).releaseEpochs else s

def execWrite (p : Packet) (s : State) : Host.Outcome State Fault Refusal := done s (s.arrives ptWrite p)
def execRead (p : Packet) (s : State) : Host.Outcome State Fault Refusal := done s (s.arrives ptRead p)
def execData (p : Packet) (s : State) : Host.Outcome State Fault Refusal := done s (s.arrives ptData p)
def execAck (p : Packet) (s : State) : Host.Outcome State Fault Refusal := done s (s.arrives ptAck p)
def execNack (p : Packet) (s : State) : Host.Outcome State Fault Refusal := done s (s.arrives ptNack p)
def execSignal (p : Packet) (s : State) : Host.Outcome State Fault Refusal := done s (s.arrives ptSignal p)
def execCommand (p : Packet) (s : State) : Host.Outcome State Fault Refusal := done s (s.arrives ptCommand p)
def execInterrupt (p : Packet) (s : State) : Host.Outcome State Fault Refusal := done s (s.arrives ptInterrupt p)

/-- REGISTER_WRITE (R63): one 32-bit write of a register. -/
def execRegisterWrite (r : Req) (off : BitVec 24) (v : Word) (s : State) : Host.Outcome State Fault Refusal :=
  done s (s.drsWrite r off.toNat v).releaseEpochs

/-- RTE_EPOCH (R431): a write of a group's entry; held requests that it admits go on (R430). -/
def execRteEpoch (r : Req) (g : BitVec 8) (v : Word) (s : State) : Host.Outcome State Fault Refusal :=
  done s (s.asWrite r pgRte (R.RTE_EPOCH + 4 * g.toNat) true (fun s => s.writeEpoch (s.reqPart r) g.toNat v)).releaseEpochs

/-- REQUEST_TIMEOUT (R429): a request has been unanswered for `RTE_TIMEOUT`. -/
def State.txTimeout (s : State) (tag : Nat) : State :=
  match s.openTx tag with
  | none => s
  | some t => (s.reach (t.sentAt + 1000 * wbits (s.reg pgRte R.RTE_TIMEOUT) 23 0)).txFails tag cLinkDown

def execRequestTimeout (tag : BitVec 17) (s : State) : Host.Outcome State Fault Refusal := done s (s.txTimeout tag.toNat)

/-- EPOCH_HOLD_EXPIRY (R430): the hold of a request of a newer epoch ends, and it is dropped. -/
def State.holdExpires (s : State) (i : Nat) : State :=
  match s.fab.epochHeld[i]? with
  | none => s
  | some h =>
    let s1 := s.reach (h.since + 1000 * wbits (s.reg pgRte R.RTE_HOLD) 15 0)
    let s2 := { s1 with fab := { s1.fab with epochHeld := s1.fab.epochHeld.eraseIdx i } }
    let s3 := s2.countStale h.packet
    (if h.packet.type = ptSignal then s3.dropSignal h.packet 2 else s3).nack h.packet cStaleEpoch

def execEpochHoldExpiry (i : Nat) (s : State) : Host.Outcome State Fault Refusal := done s (s.holdExpires i)

/-- INTERRUPT_RESEND (R440): 100 µs without an acknowledgement since the INTERRUPT was last sent. -/
def State.resendInterrupt (s : State) (p : Fin 16) : State :=
  if !s.fab.intWait.contains p then s
  else
    let s1 := s.reach (s.fab.intAt.get (fun _ => 0) p.val + 100000)
    let s2 := { s1 with fab := { s1.fab with intAt := s1.fab.intAt.set (fun _ => 0) p.val s1.now } }
    (s2.bumpB p pgHbr R.HBR_INT_RESENT 1).sendInterrupt p

def execInterruptResend (part : Fin 16) (s : State) : Host.Outcome State Fault Refusal := done s (s.resendInterrupt part)

end Sys2Proof.Machine
end

