-- ==== Sys2Proof/Machine/Bridge.lean ====
section
/-!
DEFINITION. The host bridge (R435 to R439, R445, R446, R595): its port, its functions and their BARs.
-/

namespace Sys2Proof.Machine

open Sys2Proof

/-! ### The port (R435, R445, R446) -/

/-- PCIE_LINK_UP: the port of a strapped bridge trains; a takeover that waits for it completes (R446). -/
def State.portUp (s : State) (speed width : Nat) : State :=
  if !(s.sys.bridgeEn || s.sys.bridgeStandby) then s
  else
    let s1 := { s with fab := { s.fab with pcieUp := true, pcieSpeed := speed, pcieWidth := width } }
    if s1.fab.takeover then s1.takeOver else s1

def execPcieLinkUp (speed width : Nat) (s : State) : Host.Outcome State Fault Refusal := done s (s.portUp speed width)

/-- PCIE_DOWN: the port leaves the up state (R446). -/
def State.portDown (s : State) : State :=
  if !s.fab.pcieUp then s
  else ({ s with fab := { s.fab with pcieUp := false, pcieSpeed := 0, pcieWidth := 0 } }).statusAll pgHbr 4

def execPcieDown (s : State) : Host.Outcome State Fault Refusal := done s s.portDown

/-- SRIOV_VF_ENABLE: the host enables virtual functions 1 to n (R436). -/
def State.setVfs (s : State) (n : Nat) : State :=
  if s.fab.pcieUp then { s with fab := { s.fab with numVfs := n } } else s

def execSriovVfEnable (n : Fin 16) (s : State) : Host.Outcome State Fault Refusal := done s (s.setVfs n.val)

/-- FUNCTION_LEVEL_RESET: the function's windows and MSI-X state alone (R438). -/
def State.functionReset (s : State) (fn : Fin 16) : State :=
  let s1 := s.setRegB fn pgHbr R.HBR_WIN_EN 0
  let s2 := (List.range 16).foldl (fun s n => s.setRegB fn pgHbr (R.HBR_WIN + 4 * n) 0) s1
  { s2 with fab := { s2.fab with msix := s2.fab.msix.keep (fun k => decide (k / 128 ≠ fn.val)) } }

def execFunctionLevelReset (fn : Fin 16) (s : State) : Host.Outcome State Fault Refusal := done s (s.functionReset fn)

/-! ### Accesses -/

/-- A completion leaves for the host. -/
def State.hostAnswer (s : State) (fn : Fin 16) (ok abort : Bool) (bs : List Byte) : State :=
  { s with out := s.out ++ [.completion fn ok abort bs] }

/-- Runs an access by a function: none arrives while the port is down; an inactive bridge, and a function that is not enabled,
complete it with Unsupported Request (R435, R436). -/
def State.barAccess (s : State) (fn : Fin 16) (f : State → State) : State :=
  if !s.fab.pcieUp then s
  else if s.fab.active && (fn = 0 || decide (fn.val ≤ s.fab.numVfs)) then f s
  else s.hostAnswer fn false false []

/-- Sends one deterministic request of a host access; one to the bridge's own device is delivered here (R424, R426). -/
def State.barSend (s : State) (fn : Fin 16) (num : Nat) (dev : BitVec 16) (addr len : Nat) (write : Option (List Byte)) : State :=
  let (pk, s1) := s.makeRequest fn (.bar fn num) dev addr len write 0 none
  let pk := { pk with det := true }
  if dev = s.devId then s1.deliver pk else s1.sendOrFail pk

/-- Opens a host access and sends its requests, each with its local address, length and bytes (R437). -/
def State.barOpen (s : State) (fn : Fin 16) (dev : BitVec 16) (size : Nat) (isWrite : Bool)
    (parts : List (Nat × Nat × Option (List Byte))) : State :=
  let num := s.fab.nextBar
  -- The access is entered once its requests are out, so that none completes it early.
  let s1 := { s with fab := { s.fab with nextBar := num + 1 } }
  let s2 := parts.foldl (fun s x => s.barSend fn num dev x.1 x.2.1 x.2.2) s1
  let b : BarAccess := ⟨num, fn, size, isWrite⟩
  let s3 : State := { s2 with fab := { s2.fab with bars := s2.fab.bars ++ [b] } }
  s3.settleBars

/-- BAR0 (R436, R437): the DRS of member m of the bridge's group at m × 16 MiB. A 64-bit access is two of 32 bits, low address
first (R60). -/
def State.bar0 (s : State) (fn : Fin 16) (addr size : Nat) (write : Option DWord) : State :=
  let dev := mkDev (devGroup s.devId) (addr / 2 ^ 24 % 64)
  let a := drsBase + addr % 2 ^ 24
  let bytes (lo n : Nat) : Option (List Byte) := write.map (fun v => leBytes n (v.toNat / 2 ^ (8 * lo)))
  let parts := if size = 8 then [(a, 4, bytes 0 4), (a + 4, 4, bytes 4 4)] else [(a, size, bytes 0 size)]
  s.barOpen fn dev size write.isSome parts

def execBar0Access (fn : Fin 16) (addr size : Nat) (write : Option DWord) (s : State) : Host.Outcome State Fault Refusal :=
  done s (s.barAccess fn (fun s => s.bar0 fn addr size write)).releaseEpochs

/-- BAR2 (R436, R437): window n at n × 4 GiB, in packets of at most 2,048 bytes. -/
def State.bar2 (s : State) (fn : Fin 16) (addr size : Nat) (write : Option (List Byte)) : State :=
  let n := addr / 2 ^ 32 % 16
  let w := s.regB fn pgHbr (R.HBR_WIN + 4 * n)
  if !(s.regB fn pgHbr R.HBR_WIN_EN).getLsbD n then s.hostAnswer fn false false []
  else
    let a := wbits w 15 0 * 2 ^ 32 + addr % 2 ^ 32
    let len := (write.map List.length).getD size
    let parts := (List.range (ceilDiv len 2048)).map (fun i =>
      (a + 2048 * i, min 2048 (len - 2048 * i), write.map (fun bs => (bs.drop (2048 * i)).take 2048)))
    s.barOpen fn (BitVec.ofNat 16 (wbits w 31 16)) len write.isSome parts

def execBar2Access (fn : Fin 16) (addr size : Nat) (write : Option (List Byte)) (s : State) : Host.Outcome State Fault Refusal :=
  done s (s.barAccess fn (fun s => s.bar2 fn addr size write)).releaseEpochs

/-! ### BAR4: the MSI-X table (R436, R439; assumption 21) -/

/-- Where the pending-bit array lies in BAR4 (assumption 21). -/
def pbaBase : Nat := 0x800

/-- A word of the MSI-X structures: message address, upper address, data and vector control, then the pending bits. -/
def State.msixRead (s : State) (fn : Fin 16) (addr : Nat) : Word :=
  if addr < 0x800 then
    let m := s.msixAt fn (addr / 16)
    match addr % 16 / 4 with
    | 0 => word m.addr.toNat
    | 1 => word (m.addr.toNat / 2 ^ 32)
    | 2 => m.data
    | _ => word (b01 m.masked)
  else if pbaBase ≤ addr ∧ addr < pbaBase + 16 then
    word ((List.range 32).map (fun j => b01 (s.msixAt fn (8 * (addr / 4 * 4 - pbaBase) + j)).pend * 2 ^ j)).sum
  else 0

/-- An entry after one of its words is written. -/
def Msix.write (m : Msix) (i : Nat) (v : Word) : Msix :=
  match i with
  | 0 => { m with addr := BitVec.ofNat 64 (putBits m.addr.toNat 31 0 v.toNat) }
  | 1 => { m with addr := BitVec.ofNat 64 (putBits m.addr.toNat 63 32 v.toNat) }
  | 2 => { m with data := v }
  | _ => { m with masked := v.getLsbD 0 }

/-- A pending vector that is unmasked sends its message. -/
def State.msixWrite (s : State) (fn : Fin 16) (addr : Nat) (v : Word) : State :=
  if 0x800 ≤ addr then s
  else
    let n := addr / 16
    let m := (s.msixAt fn n).write (addr % 16 / 4) v
    if m.pend && !m.masked then
      let s1 := s.setMsix fn n { m with pend := false }
      { s1 with out := s1.out ++ [.msix fn n m.addr m.data] }
    else s.setMsix fn n m

def State.bar4 (s : State) (fn : Fin 16) (addr : Nat) (write : Option Word) : State :=
  match write with
  | some v => (s.msixWrite fn addr v).hostAnswer fn true false []
  | none => s.hostAnswer fn true false (leBytes 4 (s.msixRead fn addr).toNat)

def execBar4Access (fn : Fin 16) (addr : Nat) (write : Option Word) (s : State) : Host.Outcome State Fault Refusal :=
  done s (s.barAccess fn (fun s => s.bar4 fn addr write))

end Sys2Proof.Machine
end

