-- ==== Sys2Proof/Machine/PawnIsa.lean ====
section
/-!
DEFINITION. The pawn's instructions (R122): RV64I with M, A, F and C, Zicsr and Zifencei, as the published RISC-V
specification encodes them. A compressed instruction is read as the full one it abbreviates.
-/

namespace Sys2Proof.Machine

open Sys2Proof

/-- Integer operations of the base set and M. -/
inductive AluOp where
  | add | sub | sll | slt | sltu | xor | srl | sra | or | and
  | mul | mulh | mulhsu | mulhu | div | divu | rem | remu
deriving DecidableEq, Repr

/-- Floating-point operations with a rounding mode. -/
inductive FOp where
  | add | sub | mul | div | sqrt
deriving DecidableEq, Repr

/-- Floating-point operations that do not round. -/
inductive FPlain where
  | sgnj | sgnjn | sgnjx | min | max | le | lt | eq | cls | toX | toF
deriving DecidableEq, Repr

/-- A pawn's instruction. `w` marks the 32-bit form of an operation; `f3` is the funct3 field, which gives a load's or store's
width and a branch's condition. `fused` gives for kind 0 to 3 FMADD, FMSUB, FNMSUB and FNMADD; `toInt` and `ofInt` take the
integer's kind: 0 W, 1 WU, 2 L, 3 LU. -/
inductive PIns where
  | lui (rd : Nat) (imm : DWord)
  | auipc (rd : Nat) (imm : DWord)
  | jal (rd : Nat) (imm : DWord)
  | jalr (rd rs1 : Nat) (imm : DWord)
  | branch (f3 rs1 rs2 : Nat) (imm : DWord)
  | load (f3 rd rs1 : Nat) (imm : DWord)
  | store (f3 rs1 rs2 : Nat) (imm : DWord)
  | opImm (op : AluOp) (w : Bool) (rd rs1 : Nat) (imm : DWord)
  | op (op : AluOp) (w : Bool) (rd rs1 rs2 : Nat)
  | fence
  | fenceI
  | ecall
  | ebreak
  | mret
  | wfi
  | csr (f3 rd rs1 num : Nat)
  | lr (w : Bool) (rd rs1 : Nat)
  | sc (w : Bool) (rd rs1 rs2 : Nat)
  | amo (f5 : Nat) (w : Bool) (rd rs1 rs2 : Nat)
  | flw (rd rs1 : Nat) (imm : DWord)
  | fsw (rs1 rs2 : Nat) (imm : DWord)
  | fop (op : FOp) (rd rs1 rs2 rm : Nat)
  | fused (kind rd rs1 rs2 rs3 rm : Nat)
  | fplain (op : FPlain) (rd rs1 rs2 : Nat)
  | toInt (kind rd rs1 rm : Nat)
  | ofInt (kind rd rs1 rm : Nat)
deriving DecidableEq, Repr

/-- A number of `w` bits, sign-extended. -/
def sext (w n : Nat) : DWord := BitVec.ofInt 64 (signed w n)

/-- Gathers bits: each (source, destination) moves one bit of `n`. -/
def gather (n : Nat) (bs : List (Nat × Nat)) : Nat :=
  bs.foldl (fun a b => a + b01 (bitOf n b.1) * 2 ^ b.2) 0

/-- Bits [hi:lo] of the source at [lo' + (hi - lo) : lo'] of the destination. -/
def field (hi lo lo' : Nat) : List (Nat × Nat) := (List.range (hi + 1 - lo)).map (fun i => (lo + i, lo' + i))

/-! ### Full instructions -/

/-- OP and OP-32 by funct7 and funct3. -/
def aluOf (f7 f3 : Nat) : Option AluOp :=
  if f7 = 0 then [AluOp.add, .sll, .slt, .sltu, .xor, .srl, .or, .and][f3]?
  else if f7 = 0x20 then (if f3 = 0 then some .sub else if f3 = 5 then some .sra else none)
  else if f7 = 1 then [AluOp.mul, .mulh, .mulhsu, .mulhu, .div, .divu, .rem, .remu][f3]?
  else none

/-- The operations that have a 32-bit form. -/
def AluOp.hasW : AluOp → Bool
  | .add | .sub | .sll | .srl | .sra | .mul | .div | .divu | .rem | .remu => true
  | _ => false

/-- OP-FP of single precision, by funct7, rs2, funct3. -/
def fpOf (f7 f3 rd rs1 rs2 : Nat) : Option PIns :=
  match f7 with
  | 0x00 => some (.fop .add rd rs1 rs2 f3)
  | 0x04 => some (.fop .sub rd rs1 rs2 f3)
  | 0x08 => some (.fop .mul rd rs1 rs2 f3)
  | 0x0C => some (.fop .div rd rs1 rs2 f3)
  | 0x2C => if rs2 = 0 then some (.fop .sqrt rd rs1 0 f3) else none
  | 0x10 => ([FPlain.sgnj, .sgnjn, .sgnjx][f3]?).map (fun o => .fplain o rd rs1 rs2)
  | 0x14 => ([FPlain.min, .max][f3]?).map (fun o => .fplain o rd rs1 rs2)
  | 0x50 => ([FPlain.le, .lt, .eq][f3]?).map (fun o => .fplain o rd rs1 rs2)
  | 0x60 => if rs2 < 4 then some (.toInt rs2 rd rs1 f3) else none
  | 0x68 => if rs2 < 4 then some (.ofInt rs2 rd rs1 f3) else none
  | 0x70 => if rs2 = 0 ∧ f3 = 0 then some (.fplain .toX rd rs1 0) else if rs2 = 0 ∧ f3 = 1 then some (.fplain .cls rd rs1 0) else none
  | 0x78 => if rs2 = 0 ∧ f3 = 0 then some (.fplain .toF rd rs1 0) else none
  | _ => none

/-- The instruction of a 32-bit word. -/
def decode32 (n : Nat) : Option PIns :=
  let b := bitsOf n
  let rd := b 11 7
  let f3 := b 14 12
  let rs1 := b 19 15
  let rs2 := b 24 20
  let f7 := b 31 25
  let immI := sext 12 (b 31 20)
  let immS := sext 12 (b 31 25 * 32 + rd)
  let immB := sext 13 (gather n ([(31, 12), (7, 11)] ++ field 30 25 5 ++ field 11 8 1))
  let immU := sext 32 (b 31 12 * 4096)
  let immJ := sext 21 (gather n ([(31, 20), (20, 11)] ++ field 19 12 12 ++ field 30 21 1))
  match b 6 0 with
  | 0x37 => some (.lui rd immU)
  | 0x17 => some (.auipc rd immU)
  | 0x6F => some (.jal rd immJ)
  | 0x67 => if f3 = 0 then some (.jalr rd rs1 immI) else none
  | 0x63 => if f3 = 2 ∨ f3 = 3 then none else some (.branch f3 rs1 rs2 immB)
  | 0x03 => if f3 = 7 then none else some (.load f3 rd rs1 immI)
  | 0x23 => if 3 < f3 then none else some (.store f3 rs1 rs2 immS)
  | 0x13 =>
    if f3 = 1 then (if b 31 26 = 0 then some (.opImm .sll false rd rs1 (BitVec.ofNat 64 (b 25 20))) else none)
    else if f3 = 5 then
      (if b 31 26 = 0 then some (.opImm .srl false rd rs1 (BitVec.ofNat 64 (b 25 20)))
      else if b 31 26 = 0x10 then some (.opImm .sra false rd rs1 (BitVec.ofNat 64 (b 25 20))) else none)
    else (aluOf 0 f3).map (fun o => .opImm o false rd rs1 immI)
  | 0x1B =>
    if f3 = 0 then some (.opImm .add true rd rs1 immI)
    else if f3 = 1 then (if f7 = 0 then some (.opImm .sll true rd rs1 (BitVec.ofNat 64 rs2)) else none)
    else if f3 = 5 then
      (if f7 = 0 then some (.opImm .srl true rd rs1 (BitVec.ofNat 64 rs2))
      else if f7 = 0x20 then some (.opImm .sra true rd rs1 (BitVec.ofNat 64 rs2)) else none)
    else none
  | 0x33 => (aluOf f7 f3).map (fun o => .op o false rd rs1 rs2)
  | 0x3B => ((aluOf f7 f3).filter AluOp.hasW).map (fun o => .op o true rd rs1 rs2)
  | 0x0F => if f3 = 0 then some .fence else if f3 = 1 then some .fenceI else none
  | 0x73 =>
    if f3 = 0 then
      (if rd ≠ 0 ∨ rs1 ≠ 0 then none
      else if b 31 20 = 0 then some .ecall
      else if b 31 20 = 1 then some .ebreak
      else if b 31 20 = 0x302 then some .mret
      else if b 31 20 = 0x105 then some .wfi
      else none)
    else if f3 = 4 then none
    else some (.csr f3 rd rs1 (b 31 20))
  | 0x2F =>
    if f3 ≠ 2 ∧ f3 ≠ 3 then none
    else
      let w := decide (f3 = 2)
      let f5 := b 31 27
      if f5 = 2 then (if rs2 = 0 then some (.lr w rd rs1) else none)
      else if f5 = 3 then some (.sc w rd rs1 rs2)
      else if [0, 1, 4, 8, 12, 16, 20, 24, 28].contains f5 then some (.amo f5 w rd rs1 rs2)
      else none
  | 0x07 => if f3 = 2 then some (.flw rd rs1 immI) else none
  | 0x27 => if f3 = 2 then some (.fsw rs1 rs2 immS) else none
  | 0x43 => if b 26 25 = 0 then some (.fused 0 rd rs1 rs2 (b 31 27) f3) else none
  | 0x47 => if b 26 25 = 0 then some (.fused 1 rd rs1 rs2 (b 31 27) f3) else none
  | 0x4B => if b 26 25 = 0 then some (.fused 2 rd rs1 rs2 (b 31 27) f3) else none
  | 0x4F => if b 26 25 = 0 then some (.fused 3 rd rs1 rs2 (b 31 27) f3) else none
  | 0x53 => fpOf f7 f3 rd rs1 rs2
  | _ => none

/-! ### Compressed instructions -/

/-- The instruction that a 16-bit word abbreviates; the encodings of C that need D are none, as D is absent. -/
def decode16 (n : Nat) : Option PIns :=
  let b := bitsOf n
  let f3 := b 15 13
  let rd := b 11 7
  let rs2 := b 6 2
  let rdS := 8 + b 4 2
  let rs1S := 8 + b 9 7
  let nat64 (v : Nat) : DWord := BitVec.ofNat 64 v
  let imm6 := sext 6 (gather n ([(12, 5)] ++ field 6 2 0))
  let shamt := nat64 (gather n ([(12, 5)] ++ field 6 2 0))
  match b 1 0, f3 with
  | 0, 0 =>
    let u := gather n (field 12 11 4 ++ field 10 7 6 ++ [(6, 2), (5, 3)])
    if u = 0 then none else some (.opImm .add false rdS 2 (nat64 u))
  | 0, 2 => some (.load 2 rdS rs1S (nat64 (gather n (field 12 10 3 ++ [(6, 2), (5, 6)]))))
  | 0, 3 => some (.load 3 rdS rs1S (nat64 (gather n (field 12 10 3 ++ field 6 5 6))))
  | 0, 6 => some (.store 2 rs1S rdS (nat64 (gather n (field 12 10 3 ++ [(6, 2), (5, 6)]))))
  | 0, 7 => some (.store 3 rs1S rdS (nat64 (gather n (field 12 10 3 ++ field 6 5 6))))
  | 1, 0 => some (.opImm .add false rd rd imm6)
  | 1, 1 => if rd = 0 then none else some (.opImm .add true rd rd imm6)
  | 1, 2 => some (.opImm .add false rd 0 imm6)
  | 1, 3 =>
    if rd = 2 then
      let u := gather n ([(12, 9), (6, 4), (5, 6), (2, 5)] ++ field 4 3 7)
      if u = 0 then none else some (.opImm .add false 2 2 (sext 10 u))
    else
      let u := gather n ([(12, 17)] ++ field 6 2 12)
      if u = 0 then none else some (.lui rd (sext 18 u))
  | 1, 4 =>
    (match b 11 10 with
      | 0 => some (.opImm .srl false rs1S rs1S shamt)
      | 1 => some (.opImm .sra false rs1S rs1S shamt)
      | 2 => some (.opImm .and false rs1S rs1S imm6)
      | _ =>
        if bitOf n 12 then
          (match b 6 5 with
            | 0 => some (.op .sub true rs1S rs1S rdS)
            | 1 => some (.op .add true rs1S rs1S rdS)
            | _ => none)
        else (([AluOp.sub, .xor, .or, .and])[b 6 5]?).map (fun o => .op o false rs1S rs1S rdS))
  | 1, 5 => some (.jal 0 (sext 12 (gather n ([(12, 11), (11, 4), (8, 10), (7, 6), (6, 7), (2, 5)] ++ field 10 9 8 ++ field 5 3 1))))
  | 1, 6 => some (.branch 0 rs1S 0 (sext 9 (gather n ([(12, 8), (2, 5)] ++ field 11 10 3 ++ field 6 5 6 ++ field 4 3 1))))
  | 1, 7 => some (.branch 1 rs1S 0 (sext 9 (gather n ([(12, 8), (2, 5)] ++ field 11 10 3 ++ field 6 5 6 ++ field 4 3 1))))
  | 2, 0 => some (.opImm .sll false rd rd shamt)
  | 2, 2 => if rd = 0 then none else some (.load 2 rd 2 (nat64 (gather n ([(12, 5)] ++ field 6 4 2 ++ field 3 2 6))))
  | 2, 3 => if rd = 0 then none else some (.load 3 rd 2 (nat64 (gather n ([(12, 5)] ++ field 6 5 3 ++ field 4 2 6))))
  | 2, 4 =>
    if bitOf n 12 then
      (if rs2 ≠ 0 then some (.op .add false rd rd rs2) else if rd = 0 then some .ebreak else some (.jalr 1 rd 0))
    else if rs2 ≠ 0 then some (.op .add false rd 0 rs2)
    else if rd = 0 then none else some (.jalr 0 rd 0)
  | 2, 6 => some (.store 2 2 rs2 (nat64 (gather n (field 12 9 2 ++ field 8 7 6))))
  | 2, 7 => some (.store 3 2 rs2 (nat64 (gather n (field 12 10 3 ++ field 9 7 6))))
  | _, _ => none

/-! ### Integer results -/

/-- A 32-bit result, sign-extended. -/
def sext32 (v : DWord) : DWord := (v.setWidth 32).signExtend 64

/-- Division and remainder as M has them: by zero, −1 or all ones and the dividend; the overflow wraps. -/
def divSigned (w : Nat) (a b : Int) : Int := if b = 0 then -1 else if a = -(2 ^ (w - 1) : Nat) ∧ b = -1 then a else a.tdiv b
def remSigned (w : Nat) (a b : Int) : Int := if b = 0 then a else if a = -(2 ^ (w - 1) : Nat) ∧ b = -1 then 0 else a.tmod b

/-- An operation on 64 bits. -/
def AluOp.eval (o : AluOp) (a b : DWord) : DWord :=
  match o with
  | .add => a + b
  | .sub => a - b
  | .sll => a <<< (b.toNat % 64)
  | .slt => BitVec.ofNat 64 (b01 (a.slt b))
  | .sltu => BitVec.ofNat 64 (b01 (a.ult b))
  | .xor => a ^^^ b
  | .srl => a >>> (b.toNat % 64)
  | .sra => a.sshiftRight (b.toNat % 64)
  | .or => a ||| b
  | .and => a &&& b
  | .mul => a * b
  | .mulh => BitVec.ofInt 64 (a.toInt * b.toInt / 2 ^ 64)
  | .mulhsu => BitVec.ofInt 64 (a.toInt * (b.toNat : Int) / 2 ^ 64)
  | .mulhu => BitVec.ofNat 64 (a.toNat * b.toNat / 2 ^ 64)
  | .div => BitVec.ofInt 64 (divSigned 64 a.toInt b.toInt)
  | .divu => if b = 0 then BitVec.allOnes 64 else a / b
  | .rem => BitVec.ofInt 64 (remSigned 64 a.toInt b.toInt)
  | .remu => if b = 0 then a else a % b

/-- The 32-bit form: on the low words, with the result sign-extended. -/
def AluOp.evalW (o : AluOp) (a b : DWord) : DWord :=
  let x := a.setWidth 32
  let y := b.setWidth 32
  sext32 (match o with
    | .sll => (x <<< (b.toNat % 32)).setWidth 64
    | .srl => (x >>> (b.toNat % 32)).setWidth 64
    | .sra => (x.sshiftRight (b.toNat % 32)).setWidth 64
    | .div => BitVec.ofInt 64 (divSigned 32 x.toInt y.toInt)
    | .divu => if y = 0 then BitVec.allOnes 64 else (x / y).setWidth 64
    | .rem => BitVec.ofInt 64 (remSigned 32 x.toInt y.toInt)
    | .remu => if y = 0 then a else (x % y).setWidth 64
    | o => o.eval a b)

/-- A branch's condition by funct3. -/
def branchTaken (f3 : Nat) (a b : DWord) : Bool :=
  match f3 with
  | 0 => a == b
  | 1 => a != b
  | 4 => a.slt b
  | 5 => !a.slt b
  | 6 => a.ult b
  | _ => !a.ult b

/-- An atomic operation's new value, on 64 bits or on the sign-extended low words. -/
def amoEval (f5 : Nat) (w : Bool) (a b : DWord) : DWord :=
  let x := if w then sext32 a else a
  let y := if w then sext32 b else b
  let less (p q : DWord) : Bool := if w then (p.setWidth 32).ult (q.setWidth 32) else p.ult q
  match f5 with
  | 0 => x + y
  | 1 => y
  | 4 => x ^^^ y
  | 8 => x ||| y
  | 12 => x &&& y
  | 16 => if x.slt y then x else y
  | 20 => if x.slt y then y else x
  | 24 => if less x y then x else y
  | _ => if less x y then y else x

end Sys2Proof.Machine
end

