-- ==== Sys2Proof/Machine/PawnFloat.lean ====
section
/-!
DEFINITION. The pawn's floating-point arithmetic (R122): the published F extension with its five rounding modes. Every result
is computed exactly and rounded once; subnormals are kept, and a NaN result is canonical.
-/

namespace Sys2Proof.Machine

open Sys2Proof

/-- Rounding modes by their code: 0 to nearest even, 1 towards zero, 2 down, 3 up, 4 to nearest, ties away. -/
def roundDir (rm : Nat) (neg : Bool) (m : Nat) (e q : Int) : Nat :=
  if q ≤ e then unitsAt m e q
  else
    let d := 2 ^ (q - e).toNat
    let k := m / d
    let r := m % d
    match rm with
    | 0 => if 2 * r < d then k else if d < 2 * r then k + 1 else k + k % 2
    | 1 => k
    | 2 => if neg && r ≠ 0 then k + 1 else k
    | 3 => if !neg && r ≠ 0 then k + 1 else k
    | _ => if d ≤ 2 * r then k + 1 else k

/-- What an overflow gives: an infinity, or the largest finite value where the mode rounds towards zero from there. -/
def overflowTo (rm : Nat) (neg : Bool) : Val :=
  if rm = 1 || (rm = 2 && !neg) || (rm = 3 && neg) then Fmt.fp32.maxVal neg else .inf neg

/-- Rounds a value to FP32. -/
def roundF (rm : Nat) : Val → Val
  | .fin s m e =>
    if m = 0 then .fin s 0 0
    else
      let q := ulpExp 24 (some (-149)) m e
      let k := roundDir rm s m e q
      if Fmt.fp32.tooBig (.fin s k q) then overflowTo rm s else .fin s k q
  | v => v

def codeF (rm : Nat) (v : Val) : Word := BitVec.ofNat 32 (Fmt.fp32.encodeFloat (roundF rm v))

def valF (w : Word) : Val := Fmt.fp32.decode w.toNat

/-- A sum; an exact zero of unlike signs is −0 when rounding down, +0 otherwise. -/
def addF (rm : Nat) (a b : Val) : Val :=
  let c := a.add b
  if c.isZero && (a.negative != b.negative) then .fin (decide (rm = 2)) 0 0 else c

def FOp.eval (o : FOp) (rm : Nat) (a b : Word) : Word :=
  let x := valF a
  let y := valF b
  codeF rm (match o with
    | .add => addF rm x y
    | .sub => addF rm x y.neg
    | .mul => x.mul y
    | .div => x.div y
    | .sqrt => x.sqrt)

/-- FMADD, FMSUB, FNMSUB, FNMADD by number. -/
def fusedEval (kind rm : Nat) (a b c : Word) : Word :=
  let p := (valF a).mul (valF b)
  let z := valF c
  codeF rm (match kind with
    | 0 => addF rm p z
    | 1 => addF rm p z.neg
    | 2 => addF rm p.neg z
    | _ => addF rm p.neg z.neg)

/-- The class of a value, one bit of ten. -/
def classF (a : Word) : Nat :=
  let ex := wbits a 30 23
  let fr := wbits a 22 0
  let s := a.getLsbD 31
  if ex = 255 then (if fr = 0 then (if s then 2 ^ 0 else 2 ^ 7) else if bitOf fr 22 then 2 ^ 9 else 2 ^ 8)
  else if ex = 0 then (if fr = 0 then (if s then 2 ^ 3 else 2 ^ 4) else if s then 2 ^ 2 else 2 ^ 5)
  else if s then 2 ^ 1 else 2 ^ 6

/-- Minimum and maximum: of a NaN and a number, the number; −0 lies below +0. -/
def minmaxF (mx : Bool) (a b : Word) : Word :=
  let x := valF a
  let y := valF b
  if x.isNaN && y.isNaN then 0x7FC00000
  else if x.isNaN then b
  else if y.isNaN then a
  else if mx then (if x.cmp y = .lt then b else a)
  else (if x.cmp y = .gt then b else a)

/-- Comparisons: with a NaN the answer is 0. -/
def lessF (orEq : Bool) (a b : Word) : Bool :=
  let x := valF a
  let y := valF b
  if x.isNaN || y.isNaN then false
  else if x.numEq y then orEq
  else x.cmp y = .lt

/-- Operations whose result is a floating-point register. -/
def FPlain.evalF (o : FPlain) (a b : Word) : Word :=
  match o with
  | .sgnj => (a &&& 0x7FFFFFFF) ||| (b &&& 0x80000000)
  | .sgnjn => (a &&& 0x7FFFFFFF) ||| ((b ^^^ 0x80000000) &&& 0x80000000)
  | .sgnjx => a ^^^ (b &&& 0x80000000)
  | .min => minmaxF false a b
  | .max => minmaxF true a b
  | _ => a

/-- Operations whose result is an integer register. -/
def FPlain.evalX (o : FPlain) (a b : Word) : DWord :=
  match o with
  | .le => BitVec.ofNat 64 (b01 (lessF true a b))
  | .lt => BitVec.ofNat 64 (b01 (lessF false a b))
  | .eq => BitVec.ofNat 64 (b01 ((valF a).numEq (valF b)))
  | .cls => BitVec.ofNat 64 (classF a)
  | _ => a.signExtend 64

/-- The operations that write an integer register. -/
def FPlain.toInteger : FPlain → Bool
  | .le | .lt | .eq | .cls | .toX => true
  | _ => false

/-- The integer range of a conversion's kind. -/
def intKind (kind : Nat) : Int × Int :=
  match kind with
  | 0 => (-2147483648, 2147483647)
  | 1 => (0, 4294967295)
  | 2 => (-9223372036854775808, 9223372036854775807)
  | _ => (0, 18446744073709551615)

/-- FCVT to an integer: a value outside the range, or a NaN, saturates. -/
def toIntF (kind rm : Nat) (a : Word) : DWord :=
  let (lo, hi) := intKind kind
  let i : Int := match valF a with
    | .nan => hi
    | .inf s => if s then lo else hi
    | .fin s m e =>
      let k : Int := (roundDir rm s m e 0 : Nat)
      clampInt lo hi (if s then -k else k)
  let v : DWord := BitVec.ofInt 64 i
  if kind < 2 then sext32 v else v

/-- FCVT from an integer. -/
def ofIntF (kind rm : Nat) (a : DWord) : Word :=
  let i : Int := match kind with
    | 0 => (a.setWidth 32).toInt
    | 1 => ((a.setWidth 32).toNat : Int)
    | 2 => a.toInt
    | _ => (a.toNat : Int)
  codeF rm (Val.ofInt i)

end Sys2Proof.Machine
end

