-- ==== Sys2Proof/Machine/Plan.lean ====
section
/-!
DEFINITION. The recovery plan (R541 to R543), MGMT messages between Arbiters (R544), and buddies (R553).
-/

namespace Sys2Proof.Machine

open Sys2Proof

def State.modRcv (s : State) (f : Recovery → Recovery) : State := { s with rcv := f s.rcv }

def State.setAdj (s : State) (p : Fin 16) (a : Adj) : State :=
  s.modRcv (fun r => { r with adj := r.adj.set (fun _ => Adj.reset) p.val a })

/-! ### Messages (R544) -/

def mkMctp : Nat := 1
def mkHeartbeat : Nat := 2
def mkEpoch : Nat := 3
def mkTake : Nat := 4
def mkAdjourn : Nat := 5
def mkReport : Nat := 6
def mkSealMsg : Nat := 7

def rpTakeOk : Nat := 0
def rpTakeRefused : Nat := 1
def rpDigest : Nat := 2
def rpLate : Nat := 3
def rpConfirm : Nat := 4
def rpFilled : Nat := 5
def rpRestored : Nat := 6

/-- Sends a message to another Arbiter; one to this device is kept in its mail. -/
def State.mgmt (s : State) (dst : BitVec 16) (kind : Nat) (bs : List Byte) : State :=
  let p := withPayload { s.mkPacket ptMgmt 0 dst with det := true, tag := 131071#17, arg := word kind } bs
  if dst = s.devId then s.modRcv (fun r => { r with mail := r.mail ++ [p] }) else (s.forward p).2

/-- Bytes [i : i + n - 1] of a payload, as a number. -/
def payNum (p : Packet) (i n : Nat) : Nat := leNat ((p.payload.drop i).take n)

/-- A REPORT to the captain. -/
def State.report (s : State) (kind : Nat) (p : Fin 16) (seq us : Nat) (digest : List Byte) : State :=
  s.mgmt s.rcv.captain mkReport
    (leBytes 8 (kind + 256 * p.val) ++ leBytes 8 seq ++ leBytes 8 us ++ (digest ++ List.replicate 64 0#8).take 64)

/-! ### The plan as words (R541) -/

def planWords : Nat := 228

/-- Bits of word i of a plan. -/
def planBits (ws : List Nat) (i hi lo : Nat) : Nat := bitsOf (nth 0 ws i) hi lo

/-- Every bit without a field is 0. -/
def planReservedOk (ws : List Nat) : Bool :=
  planBits ws 0 63 61 = 0 && planBits ws 1 23 17 = 0 && planBits ws 1 31 31 = 0 && planBits ws 1 63 39 = 0
  && planBits ws 2 63 48 = 0 && planBits ws 3 63 0 = 0
  && (List.range 64).all (fun i => planBits ws (4 + i) 63 32 = 0)
  && (List.range 16).all (fun j => planBits ws (68 + 2 * j) 63 32 = 0 && planBits ws (69 + 2 * j) 63 48 = 0)
  && (List.range 16).all (fun p =>
    let w := 100 + 8 * p
    planBits ws w 15 14 = 0 && planBits ws w 31 30 = 0 && planBits ws w 63 48 = 0 && planBits ws (w + 1) 63 48 = 0
    && planBits ws (w + 2) 63 48 = 0 && planBits ws (w + 3) 63 13 = 0
    && (List.range 4).all (fun i => nth 0 ws (w + 4 + i) = 0))

/-- A plan as its words give it, the ranges left out. -/
def planOf (ws : List Nat) (digest : List Byte) : Plan :=
  let b := planBits ws
  { captain := BitVec.ofNat 16 (b 0 15 0), deputy := BitVec.ofNat 16 (b 0 31 16), hbUs := b 0 48 32
    replaceOnShort := bitOf (nth 0 ws 1) 16, windowDays := b 1 30 24, rowSize := b 1 38 32, takeStage := b 2 47 0
    members := (List.range (b 0 55 49)).map (fun i => ⟨BitVec.ofNat 16 (b (4 + i) 15 0), b (4 + i) 23 16, b (4 + i) 31 24⟩)
    standbys := (List.range (b 0 60 56)).map (fun j => ⟨BitVec.ofNat 16 (b (68 + 2 * j) 15 0), b (68 + 2 * j) 31 16, b (69 + 2 * j) 47 0⟩)
    adjs := (allParts.filter (fun p => bitOf (nth 0 ws 1) p.val)).map (fun p =>
      let w := 100 + 8 * p.val
      ⟨p, b w 13 0, b w 29 16, b w 47 32, b (w + 1) 47 0, b (w + 2) 47 0, b (w + 3) 12 0, []⟩)
    digest := digest }

/-- The fields' ranges, and MEMBERS a multiple of ROW_SIZE (R541, R543). -/
def Plan.fieldsOk (pl : Plan) : Bool :=
  decide (1000 ≤ pl.hbUs) && decide (pl.hbUs ≤ 100000) && decide (1 ≤ pl.members.length) && decide (pl.members.length ≤ 64)
  && decide (pl.standbys.length ≤ 16) && decide (1 ≤ pl.windowDays) && decide (pl.windowDays ≤ 90)
  && decide (1 ≤ pl.rowSize) && pl.members.length % pl.rowSize = 0 && pl.takeStage % 4096 = 0
  && pl.standbys.all (fun x => decide (x.patchCount ≤ 4096))
  && pl.adjs.all (fun a => a.reserve % 4096 = 0 && decide (1 ≤ a.listCount) && decide (a.listCount ≤ 4096))

/-- The number of a member by its device ID. -/
def Plan.memberAt (pl : Plan) (d : BitVec 16) : Option Nat := findIdxFrom (fun m : Member => decide (m.dev = d)) 0 pl.members

def Plan.dev (pl : Plan) (m : Nat) : BitVec 16 := (nth ⟨0, 0, 0⟩ pl.members m).dev

def Plan.adj? (pl : Plan) (p : Fin 16) : Option AdjPlan := pl.adjs.find? (fun a => a.part = p)

/-- This device's role under a plan (R541, R542). -/
def Plan.roleOf (pl : Plan) (d : BitVec 16) : Role :=
  if d = pl.captain then .captain
  else if d = pl.deputy then .deputy
  else if pl.members.any (fun m => m.dev = d) then .member
  else if pl.standbys.any (fun x => x.dev = d) then .standby
  else .none

/-! ### Copy slots (R550 to R552) -/

/-- The configuration block's place at the front of a slot. -/
def configSize : Nat := 8 * 2 ^ 20
def shardSize : Nat := 64 * 2 ^ 20

def AdjPlan.slotSize (a : AdjPlan) : Nat := (a.ranges.map (·.2)).sum + configSize

/-- Slots OWN_A, OWN_B, BUDDY_A and BUDDY_B by number. -/
def AdjPlan.slotAt (a : AdjPlan) (i : Nat) : Nat := a.reserve + i * a.slotSize

/-- Each range with the place of its copy behind a slot's configuration block. -/
def placed : List (Nat × Nat) → Nat → List (Nat × Nat × Nat)
  | [], _ => []
  | (a, n) :: t, o => (a, n, o) :: placed t (o + n)

/-- A run cut into shards (R552). -/
def cutShards (a n : Nat) : List (Nat × Nat) :=
  (List.range (ceilDiv n shardSize)).map (fun i => (a + i * shardSize, min shardSize (n - i * shardSize)))

/-- The shards of a slot in order: the configuration block is shard 0. -/
def AdjPlan.shards (a : AdjPlan) (i : Nat) : List (Nat × Nat) :=
  (a.slotAt i, configSize) :: (placed a.ranges (a.slotAt i + configSize)).flatMap (fun r => cutShards r.2.2 r.2.1)

/-! ### Loading a plan (R543) -/

/-- A partition's range list. -/
def State.readRanges (s : State) (a : AdjPlan) : Option (List (Nat × Nat)) × State :=
  match s.memRead a.part s.devId.toNat a.listAt (16 * a.listCount) with
  | (.ok bs, s1) => (some ((chunks 16 bs).map (fun c => (leNat (c.take 8), leNat (c.drop 8)))), s1)
  | (_, s1) => (none, s1)

/-- An adjourning partition with the ranges its list gives, or none when the list cannot be read. -/
def State.fillRanges (s : State) (a : AdjPlan) : Option AdjPlan × State :=
  let (r, s1) := s.readRanges a
  (r.map (fun rs => { a with ranges := rs }), s1)

/-- The adjourning partitions of a member with their ranges. -/
def State.fillAdjs (s : State) (as : List AdjPlan) : Option (List AdjPlan) × State :=
  as.foldl (fun (acc, s) a =>
    let (x, s1) := s.fillRanges a
    (match acc, x with
      | some l, some y => some (l ++ [y])
      | _, _ => none, s1)) (some [], s)

def areasMeet (a b : Nat × Nat) : Bool := decide (a.1 < b.1 + b.2) && decide (b.1 < a.1 + a.2)

/-- The ranges, reserves and staging area lie where they must, and apart (R541, R543). -/
def State.placesOk (s : State) (pl : Plan) : Bool :=
  let stage := (pl.takeStage, 16 * 2 ^ 20)
  let ranges := pl.adjs.flatMap (·.ranges)
  let reserves := pl.adjs.map (fun a => (a.reserve, 4 * a.slotSize))
  s.memAllowed 0 stage.1 stage.2
  && pl.adjs.all (fun a => s.memAllowed a.part a.reserve (4 * a.slotSize)
    && a.ranges.all (fun r => r.1 % 4096 = 0 && r.2 % 4096 = 0 && s.memAllowed a.part r.1 r.2))
  && reserves.all (fun r => !ranges.any (areasMeet r) && !areasMeet r stage)
  && ranges.all (fun r => !areasMeet r stage)

def State.planResult (s : State) (v : Nat) : State := s.modRcv (fun r => { r with result := v })

/-- The live members. -/
def State.liveMembers (s : State) : List Nat :=
  match s.rcv.plan with
  | some pl => (List.range pl.members.length).filter (fun m => bitOf s.rcv.live.toNat m)
  | none => []

/-- A save of a partition is scheduled or runs: the captain's until every digest has arrived. -/
def State.savingOf (s : State) (p : Fin 16) : Bool :=
  let a := s.adjOf p
  a.goAt.isSome || (a.st = .saving && !s.liveMembers.all (fun m => a.digests.any (fun d => d.1 = m)))

def State.saving (s : State) : Bool := allParts.any s.savingOf

/-- The words of the plan, its checks, and what each adjourning partition has (R543); none when the plan is bad. A standby has no
partitions yet, so only its staging area is judged. -/
def State.loadPlan (s : State) : Option Plan × State :=
  let a := wbits s.rcv.planHi 15 0 * 2 ^ 32 + s.rcv.planLo.toNat
  match s.memRead 0 s.devId.toNat a (8 * planWords) with
  | (.ok bs, s1) =>
    let ws := (chunks 8 bs).map leNat
    let pl := planOf ws ((Config.sha512 bs).take 8)
    if !planReservedOk ws || !pl.fieldsOk || pl.roleOf s.devId = .none then (none, s1)
    else if pl.roleOf s.devId = .standby then (if s1.memAllowed 0 pl.takeStage (16 * 2 ^ 20) then some pl else none, s1)
    else
      let (as, s2) := s1.fillAdjs pl.adjs
      (match as with
        | none => none
        | some l => if s2.placesOk { pl with adjs := l } then some { pl with adjs := l } else none, s2)
  | (_, s1) => (none, s1)

/-! ### Buddies (R553, R554) -/

def liveBit (live : DWord) (m : Nat) : Bool := bitOf live.toNat m

/-- The first live member after m, in cyclic order, that holds no copy and differs from m in loop and feed, or else in feed. -/
def pickBuddy (ms : List Member) (live : DWord) (held : List Nat) (m : Nat) : Option Nat :=
  let n := ms.length
  let at' (b : Nat) : Member := nth ⟨0, 0, 0⟩ ms b
  let cs := ((List.range (n - 1)).map (fun i => (m + 1 + i) % n)).filter (fun b => liveBit live b && !held.contains b)
  let feed (b : Nat) : Bool := decide ((at' b).feed ≠ (at' m).feed)
  match cs.find? (fun b => feed b && decide ((at' b).loop ≠ (at' m).loop)) with
  | some b => some b
  | none => cs.find? feed

/-- Buddies in ascending member number; a live buddy already assigned stays. -/
def assignBuddies (ms : List Member) (live : DWord) (old : List (Option Nat)) : List (Option Nat) :=
  let kept (m : Nat) : Option Nat := (nth none old m).filter (liveBit live)
  let standing := (List.range ms.length).filterMap kept
  (List.range ms.length).foldl (fun acc m =>
    acc ++ [match kept m with
      | some b => some b
      | none => if liveBit live m then pickBuddy ms live (standing ++ acc.filterMap id) m else none]) []

/-! ### PLAN_LO, PLAN_HI, COMMIT (R542, R543) -/

/-- A plan takes effect (R543, R545, R555): the roles it names, every member live, buddies assigned anew, and GO_TALLY held. -/
def State.takePlan (s : State) (pl : Plan) : State :=
  let live : DWord := BitVec.ofNat 64 (2 ^ pl.members.length - 1)
  let s1 := s.modRcv (fun r => { r with
    plan := some pl, result := 0, role := pl.roleOf s.devId, captain := pl.captain, deputy := pl.deputy, commitAt := s.now
    live := live, misses := emptyMap, bad := [], steps := emptyMap, gstate := .steady, restoring := [], useOld := false
    failures := [], waiting := [], fills := [], used := [], extra := [], taken := none, filledSent := false
    buddies := assignBuddies pl.members live [], owes := [] })
  pl.adjs.foldl (fun s a =>
    (s.setAdj a.part { s.adjOf a.part with savedAt := s.now }).holdGo a.stepTally (s.tally a.stepTally)) s1

def State.commitPlan (s : State) : State :=
  if s.rcv.gstate ≠ .steady ∨ s.saving then s.planResult 2
  else
    match s.loadPlan with
    | (some pl, s1) => s1.takePlan pl
    | (none, s1) => s1.planResult 1

/-- What an effecter of R542 does: nothing while the Arbiter's firmware does not run. -/
def State.byArbiter (s : State) (f : State → State) : State := if s.arbiterRuns then f s else s

def execPlanLo (v : Word) (s : State) : Host.Outcome State Fault Refusal :=
  done s (s.byArbiter (fun s => s.modRcv (fun r => { r with planLo := v })))
def execPlanHi (v : Word) (s : State) : Host.Outcome State Fault Refusal :=
  done s (s.byArbiter (fun s => s.modRcv (fun r => { r with planHi := v &&& 0xFFFF })))
def execCommit (v : Word) (s : State) : Host.Outcome State Fault Refusal :=
  done s (s.byArbiter (fun s => if v = 1 then s.commitPlan else s))

end Sys2Proof.Machine
end

