-- ==== Sys2Proof/Machine/Save.lean ====
section
/-!
DEFINITION. Adjournments (R550 to R560): saving, sealing, the copies at buddies, and restoring.
-/

namespace Sys2Proof.Machine

open Sys2Proof

/-! ### Roles and members -/

def State.isCaptain (s : State) : Bool := s.rcv.role = .captain

/-- Runs `f` with the loaded plan. -/
def State.withPlan (s : State) (f : Plan → State → State) : State :=
  match s.rcv.plan with
  | some pl => f pl s
  | none => s

/-- Runs `f` with what the plan says of a partition. -/
def State.withAdj (s : State) (p : Fin 16) (f : Plan → AdjPlan → State → State) : State :=
  s.withPlan (fun pl s =>
    match pl.adj? p with
    | some a => f pl a s
    | none => s)

/-- This device's member number. -/
def State.myMember (s : State) : Option Nat := s.rcv.plan.bind (fun pl => pl.memberAt s.devId)

def State.buddyOf (s : State) (m : Nat) : Option Nat := nth none s.rcv.buddies m

/-- Every live member has a buddy (R553). -/
def State.allBuddied (s : State) : Bool := s.liveMembers.all (fun m => (s.buddyOf m).isSome)

/-! ### The configuration block (R550) -/

/-- The words 0 to 2 of a context's entry, alone. -/
def Ctx.savedWords (c : Ctx) : Ctx :=
  { Ctx.reset with
    stopOnRefuse := c.stopOnRefuse, intOnComplete := c.intOnComplete, tc := c.tc, ringLog2 := c.ringLog2, budget := c.budget
    ringBase := c.ringBase, cqBase := c.cqBase }

/-- The offsets of the route and epoch tables on the RTE page. -/
def tableOffsets : List Nat := (List.range 896).map (fun i => R.RTE_INTRA + 4 * i)

/-- What a save keeps of partition p and of the device's tables. -/
def State.snapshot (s : State) (p : Fin 16) : Snapshot :=
  { ctxs := (s.sch.ctxs.keys.filter (s.holdsCtx p)).map (fun n => (n, (s.ctx n).savedWords))
    tcs := (s.sch.tcs.keys.filter (s.holdsTc p)).map (fun n => (n, s.tc n))
    tallies := (s.sch.tallies.keys.filter (s.holdsTally p)).map (fun n => (n, s.tally n))
    grps := (s.col.groups.keys.filter (s.holdsGrp p)).map (fun n => (n, s.grp n))
    rte := tableOffsets.map (fun o => (o, s.reg pgRte o)) }

/-- A configuration block that this device did not write itself: its contents are without a stated value here. -/
def State.openSnapshot (s : State) (p : Fin 16) (n : Nat) : Snapshot :=
  let f (k i : Nat) : Nat := Config.freeNat n (64 * k + i)
  let nums (r : Range) : List Nat := span r.first r.count
  { ctxs := (nums (s.rangeOf Part.ctx 65536 p)).map (fun k =>
      (k, { Ctx.reset with
        stopOnRefuse := bitOf (f k 0) 0, intOnComplete := bitOf (f k 0) 1, tc := f k 1 % 4096, ringLog2 := f k 2 % 16
        budget := f k 3 % 2 ^ 32, ringBase := f k 4 % 2 ^ 48, cqBase := f k 5 % 2 ^ 48 }))
    tcs := (nums (s.rangeOf Part.tc 4096 p)).map (fun k =>
      (k, ⟨f k 8 % 256, f k 9 % 256, f k 10 % 256, f k 11 % 256, f k 12 % 256, f k 13 % 256, f k 14 % 64,
        BitVec.ofNat 64 (f k 15), f k 16 % 256, f k 17 % 131073, word (f k 18)⟩))
    tallies := (nums (s.rangeOf Part.tally 16384 p)).map (fun k => (k, word (f k 24)))
    grps := (nums (s.rangeOf Part.grp 1024 p)).map (fun k =>
      (k, ⟨f k 32 % 4097, f k 33 % 4096, f k 34 % 4, bitOf (f k 35) 0, f k 36 % 2 ^ 48, f k 37 % 2 ^ 16,
        (List.range (f k 32 % 4097)).map (fun i => (Config.freeNat n (2 ^ 20 + 4096 * k + i) % 2 ^ 16, 0))⟩))
    rte := [] }

/-- Applies a configuration block (R559 step 4): contexts IDLE with their saved words, time controls, groups and tallies as
saved; a group's epoch is never lowered. -/
def State.applySnapshot (s : State) (p : Fin 16) (x : Snapshot) : State :=
  let s1 := { s with
    sch := { s.sch with
      ctxs := s.sch.ctxs.keep (fun n => !s.holdsCtx p n)
      tcs := s.sch.tcs.keep (fun n => !s.holdsTc p n)
      tallies := s.sch.tallies.keep (fun n => !s.holdsTally p n) }
    col := { s.col with groups := s.col.groups.keep (fun n => !s.holdsGrp p n) } }
  let s2 := x.ctxs.foldl (fun s c => s.setCtx c.1 c.2) s1
  let s3 := x.tcs.foldl (fun s c => s.setTc c.1 c.2) s2
  let s4 := x.grps.foldl (fun s c => s.setGrp c.1 c.2) s3
  let s5 := x.tallies.foldl (fun s c => s.putTally c.1 c.2) s4
  x.rte.foldl (fun s c =>
    if R.RTE_EPOCH ≤ c.1 ∧ c.2.toNat < (s.reg pgRte c.1).toNat then s else s.setReg pgRte c.1 c.2) s5

/-! ### Saving (R555, R556) -/

/-- Copies a run for a partition; what cannot be read has no stated value. -/
def State.copyRun (s : State) (p : Fin 16) (src dst n : Nat) : State :=
  match s.memRead p s.devId.toNat src n with
  | (.ok bs, s1) => (s1.memWriteCells p s.devId.toNat dst (bs.map Cell.known)).2
  | (_, s1) =>
    let (k, s2) := s1.fresh
    (s2.memWriteCells p s.devId.toNat dst (openCells k n)).2

/-- The bytes of a run as they stand. -/
def State.bytesAt (s : State) (a n : Nat) : List Byte := (span a n).map s.memByte

/-- The own slot that a save writes: the one that does not hold the last secured adjournment (R551). -/
def Adj.saveSlot (a : Adj) : Nat :=
  if (nth none a.own 0).any (fun c => decide (c.seq = a.secured) && decide (a.secured ≠ 0)) then 1 else 0

/-- Runs cut into shards, with the place each goes to. -/
def shardRuns (a : AdjPlan) (base : Nat) : List (Nat × Nat × Nat) :=
  (placed a.ranges base).flatMap (fun r => (cutShards r.1 r.2.1).map (fun x => (x.1, x.1 - r.1 + r.2.2, x.2)))

/-- The words of a mover's COPY of `len` bytes, a multiple of 4 KiB, as INT32 elements (R286, R287). -/
def copyWords (x : ArbCopy) (chan : Nat) : List DWord :=
  let perm := ((List.range 5).map (fun d => d * 2 ^ (24 + 3 * d))).sum
  let dev := match x.dev with
    | some d => d.toNat
    | none => hereDev
  ([mCopy + chan * 2 ^ 8 + perm + Fmt.i32.code * 2 ^ 40 + Fmt.i32.code * 2 ^ 49, 0, 0, 0, 1024 + x.len / 4096 * 2 ^ 23, 1 + 2 ^ 23, 1, 0,
    hereDev * 2 ^ 48 + x.src, 0, 1, 1024, 0, 0, 0, 0, 0, 0, 0, dev * 2 ^ 48 + x.dst, 0, 1, 1024, 0, 0, 0, 0, 0, 0, 0]).map (BitVec.ofNat 64)

/-- The command of a copy under SAVE_CTX, on a mover of the partition's squares; which one is the model's choice (assumption 88). -/
def State.copyCmd (s : State) (ctx : Nat) (x : ArbCopy) : Option Cmd :=
  let qs := s.squaresOf x.part
  let n := s.sch.nextJob
  if qs.isEmpty then none
  else some ⟨x.part, ctx, .arbiter x, tMov, nth 0 qs (n % qs.length), 0, copyWords x (n / qs.length % 4), none, (s.ctx ctx).budget, []⟩

/-- The two halves of a copy. -/
def ArbCopy.halves (x : ArbCopy) : List ArbCopy :=
  let n := x.len / 8192 * 4096
  [{ x with len := n }, { x with src := x.src + n, dst := x.dst + n, len := x.len - n }]

/-- A copy is given to a mover under SAVE_CTX, at that context's price (R556): admitted, cut in two because it exceeds CMD_LIMIT, or
not yet. -/
def State.giveCopy (s : State) (ctx : Nat) (x : ArbCopy) : Option (List ArbCopy × State) :=
  match s.copyCmd ctx x with
  | none => none
  | some c =>
    let tcn := (s.ctx ctx).tc
    if (s.ctx ctx).st ≠ .active || !s.running pgSch || !s.hasRoom tcn c then none
    else
      match s.stageOf c with
      | (.ok _ cost, _) =>
        if (s.tc tcn).cmdLimit < cost.beats then (if 8192 ≤ x.len then some (x.halves, s) else none)
        else
          (match s.admitCmd c s.now with
            | (.accepted, s1) => some ([], s1)
            | _ => none)
      | _ => none

/-- Gives the movers the copies that wait, in order, as far as admission takes them; `fuel` of them at most. The Arbiter so paces a
save (R22). -/
def State.feedCopies : Nat → State → State
  | 0, s => s
  | n + 1, s =>
    match s.rcv.copies with
    | [] => s
    | x :: rest =>
      match (s.rcv.plan.bind (fun pl => pl.adj? x.part)).bind (fun a => s.giveCopy a.saveCtx x) with
      | none => s
      | some (more, s1) => State.feedCopies n (s1.modRcv (fun r => { r with copies := more ++ rest }))

/-- The Arbiter sets copies going. -/
def State.pace (s : State) : State := State.feedCopies (2 * s.rcv.copies.length + 64) s

/-- Asks for copies. -/
def State.askCopies (s : State) (xs : List ArbCopy) : State := s.modRcv (fun r => { r with copies := r.copies ++ xs })

/-- A copy into an own slot of a partition. -/
def ArbCopy.savesFor (p : Fin 16) (x : ArbCopy) : Bool := decide (x.part = p) && x.dev.isNone

/-- Whether a save of a partition has copies that are not made. -/
def State.copying (s : State) (p : Fin 16) : Bool :=
  s.rcv.copies.any (ArbCopy.savesFor p) || s.sch.jobs.any (fun j => match j.origin with
    | .arbiter x => x.savesFor p
    | _ => false)

/-- The copies into an own slot of a partition that no mover has yet are given up. -/
def State.dropCopies (s : State) (p : Fin 16) : State :=
  s.modRcv (fun r => { r with copies := r.copies.filter (fun x => !x.savesFor p) })

/-- Step 3 begins: the configuration block is laid down, and the movers are asked to copy the ranges into an own slot. -/
def State.beginSave (s : State) (p : Fin 16) (a : AdjPlan) (goal : Nat) : State :=
  let ad := s.adjOf p
  let i := ad.saveSlot
  let base := a.slotAt i
  let (n, s1) := s.fresh
  let s2 := (s1.memWriteCells p s.devId.toNat base (openCells n configSize)).2
  let s3 := s2.setAdj p { ad with saveFrom := some s.now, own := setNth ad.own i (some ⟨ad.seq, goal, s.snapshot p, [], []⟩) }
  s3.askCopies ((shardRuns a (base + configSize)).map (fun r => ⟨p, r.1, none, r.2.1, r.2.2, false⟩))

/-- A member digest (R552). -/
def memberDigest (ds : List (List Byte)) : List Byte := Config.sha512 ds.flatten

/-- Steps 3 and 4 end: every shard is digested, training resumes, and the digest is reported with the save time. -/
def State.endSave (s : State) (p : Fin 16) (a : AdjPlan) (goal since : Nat) : State :=
  let ad := s.adjOf p
  let i := ad.saveSlot
  let ds := (a.shards i).map (fun r => Config.sha512 (s.bytesAt r.1 r.2))
  let us := (s.now - since) / 1000
  let s1 := s.setAdj p { ad with
    goAt := none, saveFrom := none, own := setNth ad.own i ((nth none ad.own i).map (fun c => { c with digests := ds })) }
  let s2 := s1.putTally a.goTally (word (goal + 2 ^ 30))
  (s2.record 0x105 p (ad.seq % 2 ^ 32) (us / 1000)).report rpDigest p ad.seq us (memberDigest ds)

/-- A restore takes an unstated time, in µs. -/
def State.takeTime (s : State) : Nat × State :=
  let (n, s1) := s.fresh
  let us := Config.freeNat n 0 % 2 ^ 40
  (us, s1.reach (s1.now + 1000 * us))

/-- SAVE_START (R556 steps 3 and 4): with STEP_TALLY at a the save begins; once the movers have made every copy it ends. -/
def State.saveNow (s : State) (p : Fin 16) : State :=
  s.withAdj p (fun _ a s =>
    let ad := s.adjOf p
    match ad.goAt with
    | none => s
    | some goal =>
      if !tallyReached (s.tally a.stepTally) (word goal) then s
      else
        match ad.saveFrom with
        | none => (s.beginSave p a goal).pace
        | some since => if s.copying p then s.pace else s.endSave p a goal since)

/-- The highest STEP_TALLY reported, the captain's own included. -/
def State.topStep (s : State) (a : AdjPlan) : Nat :=
  let mine := s.myMember
  s.liveMembers.foldl (fun t m =>
    max t (if mine = some m then (s.tally a.stepTally).toNat else s.rcv.steps.get (fun _ => 0) (16 * m + a.part.val))) 0

/-- Step 1: the captain sends ADJOURN with the next SEQ. -/
def State.sendAdjourn (s : State) (p : Fin 16) : State :=
  s.withAdj p (fun pl a s =>
    let ad := s.adjOf p
    let step := (s.topStep a + 2) % 2 ^ 32
    let s1 := s.setAdj p { ad with seq := ad.seq + 1, step := step, st := .saving, digests := [], times := [], confirmed := [] }
    s.liveMembers.foldl (fun s m =>
      s.mgmt (pl.dev m) mkAdjourn (leBytes 4 p.val ++ leBytes 4 step ++ leBytes 8 (ad.seq + 1))) s1)

/-- A new adjournment begins on the captain of a group that is STEADY, unless one of the partition runs. -/
def State.startAdjourn (s : State) (p : Fin 16) : State :=
  if s.isCaptain && s.rcv.gstate = .steady && !s.savingOf p then s.sendAdjourn p else s

/-! ### The interval (R558) -/

/-- I in seconds, from the longest save time in µs, the time since COMMIT, and the failures declared within W. -/
def adjournSeconds (timeUs w k : Nat) : Nat := min 21600 (max 60 (isqrt (2 * timeUs * w / ((k + 1) * 1000000))))

/-- The interval of a partition after a save or a declaration. -/
def State.intervalOf (s : State) (pl : Plan) (ad : Adj) : Nat :=
  let w := min (pl.windowDays * 86400) ((s.now - s.rcv.commitAt) / 1000000000)
  let k := (s.rcv.failures.filter (fun t => decide (s.now ≤ t + w * 1000000000))).length
  adjournSeconds ((ad.times.map (·.2)).foldl max 0) w k

def State.refreshIntervals (s : State) : State :=
  s.withPlan (fun pl s => pl.adjs.foldl (fun s a =>
    s.setAdj a.part { s.adjOf a.part with interval := s.intervalOf pl (s.adjOf a.part) }) s)

/-- ADJOURN_INTERVAL: I has passed since the previous save's step 4, or since COMMIT. -/
def State.intervalPassed (s : State) (p : Fin 16) : State :=
  if s.isCaptain ∧ s.rcv.plan.isSome then
    (s.reach ((s.adjOf p).savedAt + (s.adjOf p).interval * 1000000000)).startAdjourn p
  else s

/-- Step 2: a member sets GO_TALLY, or sends LATE when its STEP_TALLY exceeds a − 1. -/
def State.takeAdjourn (s : State) (q : Packet) : State :=
  let p := Fin.ofNat 16 (payNum q 0 1)
  let step := payNum q 4 4
  let seq := payNum q 8 8
  if q.src ≠ s.rcv.captain ∨ s.rcv.role = .standby ∨ s.rcv.role = .none then s
  else s.withAdj p (fun _ a s =>
    if tallyReached (s.tally a.stepTally) (word step) then s.report rpLate p seq 0 []
    else
      let ad := s.adjOf p
      ((s.dropCopies p).setAdj p { ad with seq := seq, step := step, st := .saving, goAt := some step, saveFrom := none }).putTally
        a.goTally (word step))

/-- LATE: the captain repeats step 1. -/
def State.takeLate (s : State) (p : Fin 16) (seq : Nat) : State :=
  if s.isCaptain && (s.adjOf p).st = .saving && decide ((s.adjOf p).seq = seq) then s.sendAdjourn p else s

/-! ### Sealing (R552, R556, R557) -/

/-- The seal over the members' digests. -/
def sealBytes (dev0 : BitVec 16) (p : Fin 16) (step seq members : Nat) (ds : List (List Byte)) : List Byte :=
  Config.sha512 (leBytes 2 dev0.toNat ++ leBytes 1 p.val ++ [0#8] ++ leBytes 4 step ++ leBytes 8 seq ++ leBytes 8 members
    ++ ds.flatten)

/-- An adjournment is EXPOSED for the sake of a member (R557, R563). -/
def State.recordExposed (s : State) (p : Fin 16) (d : BitVec 16) : State := s.record 0x106 p d.toNat 1

/-- An adjournment becomes SECURED. -/
def Adj.secure (a : Adj) : Adj :=
  { a with st := .secured, prior := if a.secured = a.seq then a.prior else a.secured, secured := a.seq }

/-- Step 5: the captain forms the seal. A member without a buddy leaves the adjournment EXPOSED. -/
def State.formSeal (s : State) (p : Fin 16) (pl : Plan) : State :=
  let ad := s.adjOf p
  let ds := s.liveMembers.map (fun m => ((ad.digests.find? (fun d => d.1 = m)).map (·.2)).getD [])
  let sl := sealBytes (pl.dev 0) p ad.step ad.seq pl.members.length ds
  let s1 := s.liveMembers.foldl (fun s m => s.mgmt (pl.dev m) mkSealMsg (leBytes 8 p.val ++ leBytes 8 ad.seq ++ sl)) s
  let lone := s.liveMembers.filter (fun m => (s.buddyOf m).isNone)
  let s2 := lone.foldl (fun s m => s.recordExposed p (pl.dev m)) s1
  (s2.setAdj p { s2.adjOf p with st := if lone.isEmpty then .saving else .exposed, savedAt := s2.now }).refreshIntervals

/-- DIGEST: a member's digest reaches the captain. -/
def State.takeDigest (s : State) (q : Packet) (p : Fin 16) (seq : Nat) : State :=
  s.withPlan (fun pl s =>
    let ad := s.adjOf p
    match pl.memberAt q.src with
    | none => s
    | some m =>
      if !s.isCaptain || ad.st ≠ .saving || !s.savingOf p || decide (ad.seq ≠ seq) then s
      else
        let ad1 := { ad with
          digests := (m, (q.payload.drop 24).take 64) :: ad.digests.filter (fun d => d.1 ≠ m)
          times := (m, payNum q 16 8) :: ad.times.filter (fun d => d.1 ≠ m) }
        let s1 := s.setAdj p ad1
        if s.liveMembers.all (fun m => ad1.digests.any (fun d => d.1 = m)) then s1.formSeal p pl else s1)

/-- Writes a run of this device's memory to another device's, in packets of 2,048 bytes (R395, R421). -/
def State.sendRun (s : State) (p : Fin 16) (dev : BitVec 16) (src dst n : Nat) : State :=
  (List.range (ceilDiv n 2048)).foldl (fun s i =>
    let k := min 2048 (n - 2048 * i)
    s.request p .island dev (dst + 2048 * i) k (some (s.bytesAt (src + 2048 * i) k)) 0 none) s

/-- Step 6: the movers are asked to copy an own slot to the buddy's slot of the same letter, shard by shard. -/
def State.sendSlot (s : State) (pl : Plan) (a : AdjPlan) (i : Nat) : State :=
  match s.myMember.bind s.buddyOf with
  | some b =>
    if (nth none (s.adjOf a.part).own i).isSome then
      s.askCopies ((a.shards i).map (fun r =>
        ⟨a.part, r.1, some (pl.dev b), r.1 - a.slotAt i + a.slotAt (2 + i), r.2, false⟩))
    else s
  | none => s

/-- The members whose buddy this device is. -/
def State.wards (s : State) : List Nat :=
  match s.myMember with
  | none => []
  | some me => (List.range s.rcv.buddies.length).filter (fun m => s.buddyOf m = some me)

/-- SEAL: a member keeps the seal with its slot and copies the slot to its buddy; a buddy owes the check of its ward's copy. A
member other than the captain, which hears no CONFIRM, takes a sealed adjournment for SECURED when every member has a buddy. -/
def State.takeSeal (s : State) (q : Packet) : State :=
  let p := Fin.ofNat 16 (payNum q 0 1)
  let seq := payNum q 8 8
  if q.src ≠ s.rcv.captain ∨ s.rcv.role = .standby ∨ s.rcv.role = .none then s
  else s.withAdj p (fun pl a s =>
    let ad := s.adjOf p
    let i := if (nth none ad.own 0).any (fun c => c.seq = seq) then 0 else 1
    match (nth none ad.own i).filter (fun c => c.seq = seq) with
    | none => s
    | some c =>
      let ad1 := { ad with own := setNth ad.own i (some { c with sealed := (q.payload.drop 16).take 64 }) }
      let ad2 := if s.isCaptain then ad1 else if s.allBuddied then ad1.secure else { ad1 with st := .exposed }
      let s1 := (s.setAdj p ad2).sendSlot pl a i
      s1.modRcv (fun r => { r with owes := r.owes ++ s.wards.map (fun m => (p, m)) }))

/-- Step 7: the buddy's check of one copy, whose outcome this model leaves free; a sound copy is confirmed. -/
def State.checkOwed (s : State) (o : Fin 16 × Nat) : State :=
  let (n, s1) := s.fresh
  if Config.freeNat n 0 % 2 = 1 then
    (s1.report rpConfirm o.1 (s1.adjOf o.1).seq 0 []).modRcv (fun r => { r with owes := r.owes.filter (· ≠ o) })
  else s1

/-- CONFIRM: a buddy vouches for its ward; with every member confirmed the adjournment is SECURED (R557). -/
def State.takeConfirm (s : State) (q : Packet) (p : Fin 16) (seq : Nat) : State :=
  s.withPlan (fun pl s =>
    let ad := s.adjOf p
    match pl.memberAt q.src with
    | none => s
    | some b =>
      if !s.isCaptain || decide (ad.seq ≠ seq) || (ad.st ≠ .saving && ad.st ≠ .exposed) then s
      else
        let wards := (List.range pl.members.length).filter (fun m => s.buddyOf m = some b)
        let ad1 := { ad with confirmed := (ad.confirmed ++ wards).eraseDups }
        let full := s.liveMembers.all (fun m => ad1.confirmed.contains m) && s.liveMembers.all (fun m => ad1.digests.any (fun d => d.1 = m))
        s.setAdj p (if full then ad1.secure else ad1))

/-- HOST_CONFIRM: the host holds every copy and the seal (R557). -/
def State.hostConfirm (s : State) (v : Word) : State :=
  let p := Fin.ofNat 16 (wbits v 27 24)
  let ad := s.adjOf p
  if ad.seq % 2 ^ 24 = wbits v 23 0 ∧ ad.seq ≠ 0 then
    let ad1 := { ad with hostHas := ad.seq }
    s.setAdj p (if ad.st = .exposed then ad1.secure else ad1)
  else s

def execHostConfirm (v : Word) (s : State) : Host.Outcome State Fault Refusal :=
  done s (s.byArbiter (fun s => s.hostConfirm v))

/-! ### Restoring (R559, R560) -/

/-- Step 1: every context of the partition stops, and its commands end ABORTED, which empties its engines (DESIGN CHOICE, assumption 88:
at once). -/
def State.stopPart (s : State) (p : Fin 16) : State :=
  let s1 := (s.sch.ctxs.keys.filter (s.holdsCtx p)).foldl (fun s n =>
    if (s.ctx n).st = .active ∨ (s.ctx n).st = .parked then State.stopCtx p n s else s) s
  let s2 := s1.colAbort (fun c => c.part = p)
  let s3 := (s2.sch.jobs.filter (fun j => decide (j.target = tUpd) && decide (j.part = p) && j.live)).foldl
    (fun s j => s.updEnd j.id cAborted noBlock) s2
  let s4 := (s3.squaresOf p).foldl State.dropEngines ((s3.endNoted (fun j => decide (j.part = p)) cAborted).dropEndedTxs)
  let s5 := s4.modRcv (fun r => { r with copies := r.copies.filter (fun x => x.part ≠ p) })
  let s6 := { s5 with sch := { s5.sch with held := s5.sch.held.filter (fun h => h.part ≠ p) } }
  (s6.sch.jobs.filter (fun j => decide (j.part = p))).foldl (fun s j => s.completeNow j.id 0) s6

/-- A shard's bytes can be read. -/
def State.runSound (s : State) (a n : Nat) : Bool := (granules a n).all (fun g => decide (s.memMark g ≠ 3))

/-- Steps 2 and 3: each shard of an own slot is checked; the buddy's copy replaces one that fails. Whether the buddy's shard is
sound, and what it holds, this device cannot tell: both are free. -/
def State.checkSlot (s : State) (a : AdjPlan) (i : Nat) (c : CopySlot) : Bool × State :=
  ((a.shards i).zip c.digests).zipIdx.foldl (fun (ok, s) x =>
    let r := x.1.1
    if s.runSound r.1 r.2 && Config.sha512 (s.bytesAt r.1 r.2) = x.1.2 then (ok, s)
    else
      let (n, s1) := (s.record 0x108 a.part x.2 1).fresh
      if Config.freeNat n 0 % 2 = 1 then (ok, (s1.memWriteCells a.part s.devId.toNat r.1 (openCells n r.2)).2)
      else (false, s1)) (true, s)

/-- Steps 4 and 5 but for the report: the ranges and the configuration are written back. -/
def State.writeBack (s : State) (a : AdjPlan) (i step : Nat) (x : Snapshot) : State :=
  let s1 := (placed a.ranges (a.slotAt i + configSize)).foldl (fun s r => s.copyRun a.part r.2.2 r.1 r.2.1) s
  let s2 := s1.applySnapshot a.part x
  (s2.putTally a.stepTally (word step)).putTally a.goTally (word (step + 2 ^ 30))

/-- The plan's word on a partition with its ranges, read now when the commit had none. -/
def State.rangesOf (s : State) (a : AdjPlan) : AdjPlan × State :=
  if a.ranges.isEmpty then
    match s.fillRanges a with
    | (some b, s1) => (b, s1)
    | (none, s1) => (a, s1)
  else (a, s)

/-- RESTORE on this device; the answer says whether it could (R559, R560). A device that took a failed one's place, and one
whose reserves the host has filled, restores from its first own slot, whose configuration block it did not write itself. -/
def State.restoreHere (s : State) (p : Fin 16) (seq : Nat) : Bool × State :=
  match s.rcv.plan.bind (fun pl => pl.adj? p) with
  | none => (false, s)
  | some a0 =>
    let s0 := s.stopPart p
    let (a, s1) := s0.rangesOf a0
    let ad := s1.adjOf p
    let i := if (nth none ad.own 0).any (fun c => c.seq % 2 ^ 24 = seq) then 0 else 1
    let full := ad.seq / 2 ^ 24 * 2 ^ 24 + seq
    let finish (s : State) : State :=
      let (us, s2) := s.takeTime
      let s3 := s2.setAdj p { s2.adjOf p with goAt := none, saveFrom := none }
      (s3.record 0x107 p (full % 2 ^ 32) (us / 1000)).report rpRestored p full us []
    match (nth none ad.own i).filter (fun c => decide (c.seq % 2 ^ 24 = seq) && !c.digests.isEmpty) with
    | some c =>
      let (ok, s2) := s1.checkSlot a i c
      if ok then (true, finish (s2.writeBack a i c.step c.snap)) else (false, s2)
    | none =>
      if s.rcv.taken.isSome || s.rcv.gstate = .halted then
        let (n, s2) := s1.fresh
        (true, finish (s2.writeBack a 0 (Config.freeNat n 63 % 2 ^ 32) (s2.openSnapshot p n)))
      else (false, s1)

/-- The PLDM message that writes RESTORE on a member (R542; its bytes PRESUMED, assumption 44). -/
def restoreMessage (src : Byte) (p : Fin 16) (seq : Nat) : List Byte :=
  [src, 0, 1, 0x80, 0x02, 0x31] ++ leBytes 2 0x15 ++ [4] ++ leBytes 4 (p.val * 2 ^ 24 + seq % 2 ^ 24)

/-- The captain restores the group: it restores itself, from the previous secured adjournment when a shard of the asked one is
lost (R560), and every other live member by an effecter write. -/
def State.restoreGroup (s : State) (p : Fin 16) (seq : Nat) : State :=
  s.withPlan (fun pl s =>
    let begin' (s : State) (q : Nat) : State :=
      let s1 := s.modRcv (fun r => { r with
        gstate := .restoring, restoring := r.restoring.filter (fun x => x.1 ≠ p) ++ [(p, q)] })
      s1.setAdj p { s1.adjOf p with restoredBy := [] }
    let send (s : State) (q : Nat) : State :=
      (s.liveMembers.filter (fun m => pl.dev m ≠ s.devId)).foldl (fun s m =>
        s.mgmt (pl.dev m) mkMctp (restoreMessage (BitVec.ofNat 8 (wbits (s.reg pgArb R.ARB_MCTP) 7 0)) p q)) s
    match s.restoreHere p (seq % 2 ^ 24) with
    | (true, s1) => send (begin' s1 seq) seq
    | (false, s1) =>
      let prior := (s1.adjOf p).prior
      match s1.restoreHere p (prior % 2 ^ 24) with
      | (true, s2) => if prior = 0 then s1.modRcv (fun r => { r with gstate := .halted }) else send (begin' s2 prior) prior
      | (false, s2) => s2.modRcv (fun r => { r with gstate := .halted }))

/-- RESTORE (R559, R561): on the captain it restores the group, unless a fill or another restore is under way. -/
def State.restoreAsked (s : State) (v : Word) : State :=
  let p := Fin.ofNat 16 (wbits v 27 24)
  let seq := wbits v 23 0
  if s.isCaptain then
    if s.rcv.gstate = .filling then s else s.restoreGroup p seq
  else if s.rcv.role = .standby ∨ s.rcv.role = .none then s
  else (s.restoreHere p seq).2

/-- RESTORED: with every live member restored in every partition, the group is STEADY (R561). -/
def State.takeRestored (s : State) (q : Packet) (p : Fin 16) : State :=
  s.withPlan (fun pl s =>
    match pl.memberAt q.src with
    | none => s
    | some m =>
      if !s.isCaptain || s.rcv.gstate ≠ .restoring then s
      else
        let ad := s.adjOf p
        let s1 := s.setAdj p { ad with restoredBy := (m :: ad.restoredBy).eraseDups }
        if s1.rcv.restoring.all (fun x => s1.liveMembers.all (fun m => (s1.adjOf x.1).restoredBy.contains m)) then
          s1.modRcv (fun r => { r with gstate := .steady, restoring := [], useOld := false, fills := [] })
        else s1)

end Sys2Proof.Machine
end

