-- ==== Sys2Proof/Machine/Recovery.lean ====
section
/-!
DEFINITION. Recovery of a group (R537 to R549, R561, R562): heartbeats, declarations and epochs, succession, takeovers and
shrinks, and the MGMT messages that carry them.
-/

namespace Sys2Proof.Machine

open Sys2Proof

/-! ### Heartbeats (R537, R544, R545) -/

def GState.ofCode (n : Nat) : GState :=
  match n with
  | 0 => .steady
  | 1 => .filling
  | 2 => .restoring
  | 3 => .shrunk
  | _ => .halted

/-- SHORT (R532, R536, R537). -/
def State.short (s : State) : Bool :=
  allSquares.any (fun q => (s.page (pgSq q 0)).st = .retired)
  || s.sys.variant.stacks.any (fun k => (s.reg (pgMem k) hIntStatus).getLsbD 7 || (s.page (pgUpd k)).st = .retired)
  || (s.page pgCol).st = .retired

/-- The payload of a HEARTBEAT of this device under a plan. -/
def State.heartbeatBytes (s : State) (pl : Plan) : List Byte :=
  let r := s.rcv
  let flags := b01 s.short + 2 * b01 (s.sys.devState = .safe) + 4 * b01 r.taken.isSome
  let step (p : Fin 16) : Nat := match pl.adj? p with
    | some a => (s.tally a.stepTally).toNat
    | none => 0
  leBytes 4 (s.epochOf (devGroup s.devId)).toNat ++ leBytes 1 r.role.code ++ leBytes 1 flags ++ leBytes 1 r.gstate.code ++ [0#8]
    ++ (pl.digest ++ List.replicate 8 0#8).take 8 ++ leBytes 8 (if s.isCaptain then r.live.toNat else 0)
    ++ allParts.flatMap (fun p => leBytes 4 (step p))

/-- Whom this device sends its heartbeats to: the captain to every member and standby of its plan, a member to the devices it
last learned to be captain and deputy. -/
def State.heartbeatTo (s : State) (pl : Plan) : List (BitVec 16) :=
  let all := match s.rcv.role with
    | .captain => pl.members.map Member.dev ++ pl.standbys.map Standby.dev
    | .member | .deputy => [s.rcv.captain, s.rcv.deputy]
    | _ => []
  (all.filter (fun d => d ≠ s.devId)).eraseDups

/-- Step 9 of a takeover: with its partitions recreated, whether the standby has verified its fill is left free; a sound fill is
reported. -/
def State.checkFill (s : State) (pl : Plan) : State :=
  if s.rcv.taken.isSome && !s.rcv.filledSent && s.rcv.gstate = .filling && pl.adjs.all (fun a => (s.part a.part).st = .active) then
    let (n, s1) := s.fresh
    if Config.freeNat n 0 % 2 = 1 then
      (s1.report rpFilled 0 0 0 []).modRcv (fun r => { r with filledSent := true })
    else s1
  else s

/-! ### Recreating partitions on a standby (R539 step 7, R540) -/

/-- A request of R474 that the Arbiter makes for a partition. -/
def tableRequest (p : Fin 16) (op : Nat) (args : List Word) (buf : List Byte) : RotReq := ⟨none, op, p, 0, args, buf, false⟩

/-- The requests that give a partition the ranges, frame slots, regions and peers of its entry in the configuration block; word 0 to 7
and 16 to 20 the arguments of PT_RANGES and PT_SHARES, and behind them the peer list, the regions and the squares (assumption 143). -/
def State.entryRequests (s : State) (p : Fin 16) (w : Nat → Nat) : List RotReq :=
  let n := w 24 % 257
  [tableRequest p 1 [] [], tableRequest p 2 ((List.range 8).map (fun i => word (w i))) [],
    tableRequest p 3 ((List.range 5).map (fun i => word (w (16 + i)))) []]
  ++ ((List.range s.regions).filter (fun x => w (1024 + x) % 2 = 1)).map (fun x => tableRequest p 4 [word x, 1, 0] [])
  ++ [tableRequest p 5 [word n] ((List.range n).flatMap (fun i => leBytes 4 (w (2048 + i))))]

/-- The next of step 7 for one partition: its table entry is made; then, when that has been served, its squares are given to it, its
configuration block is laid into its own slot, and it is activated. -/
def State.rebuildOne (s : State) (pl : Plan) (bs : List Byte) (a : AdjPlan) : State :=
  let p := a.part
  let w := Config.blockWord bs p.val
  let ask (s : State) (rs : List RotReq) : State := ({ s with rot := { s.rot with queue := s.rot.queue ++ rs } }).rotGo
  if s.rot.queue.any (fun r => r.bank.isNone && r.part = p) then s
  else
    match (s.part p).st with
    | .free => ask s (s.entryRequests p w)
    | .configuring =>
      let s1 := (allSquares.filter (fun q => w (4096 + q) % 2 = 1)).foldl
        (fun s q => s.drsWrite .arbiter (pgSq q 0 * 4096 + hOwner) (word p.val)) s
      ask (s1.memWriteCells p s1.devId.toNat (a.slotAt 0) ((s1.bytesAt pl.takeStage configSize).map Cell.known)).2
        [tableRequest p 6 [] []]
    | _ => s

/-- Step 7 on a standby that has taken a member's place and holds its configuration block: each adjourning partition is recreated,
when the block passes its shard digest. -/
def State.rebuild (s : State) (pl : Plan) : State :=
  let bs := s.bytesAt pl.takeStage (16 * 2 ^ 20)
  if s.rcv.taken.isSome && s.rcv.gstate = .filling && Config.blockSound bs then
    pl.adjs.foldl (fun s a => s.rebuildOne pl bs a) s
  else s

/-- HEARTBEAT_SEND: HB_US has passed. What a buddy and a standby do and find out in the meantime comes with it. -/
def State.sendHeartbeats (s : State) : State :=
  s.withPlan (fun pl s =>
    let s1 := s.rcv.owes.foldl State.checkOwed s
    let s2 := ((s1.rebuild pl).checkFill pl).pace
    (s2.heartbeatTo pl).foldl (fun s d => s.mgmt d mkHeartbeat (s.heartbeatBytes pl)) s2)

/-! ### Adjournments under failures (R554, R557) -/

/-- What the failure of some members does to each adjournment: one not yet sealed is ABANDONED, and training resumes; a sealed
one whose copy a failed buddy held is EXPOSED. -/
def State.adjUnderFailure (s : State) (ms : List Nat) : State :=
  s.withPlan (fun pl s => pl.adjs.foldl (fun s a =>
    let p := a.part
    let ad := s.adjOf p
    if s.savingOf p then
      let s1 := (s.dropCopies p).setAdj p { ad with
        st := .abandoned, goAt := none, saveFrom := none, own := ad.own.map (fun c => c.filter (fun x => decide (x.seq ≠ ad.seq))) }
      s1.holdGo a.stepTally (s.tally a.stepTally)
    else
      let lost := (List.range pl.members.length).filter (fun m => !ms.contains m && (s.buddyOf m).any (fun b => ms.contains b))
      if lost.isEmpty || (ad.st ≠ .secured && ad.st ≠ .saving && ad.st ≠ .exposed) then s
      else
        let s1 := if ad.st = .secured then lost.foldl (fun s m => s.recordExposed p (pl.dev m)) s else s
        s1.setAdj p { ad with
          st := if ad.st = .saving then .saving else .exposed
          confirmed := ad.confirmed.filter (fun m => !lost.contains m) }) s)

/-- Buddies are assigned anew (R554): a member whose buddy has changed copies its slots to the new one, and a buddy owes the
check of a new ward's copies. -/
def State.reassign (s : State) : State :=
  s.withPlan (fun pl s =>
    let before := s.wards
    let mine := s.myMember.bind s.buddyOf
    let s1 := s.modRcv (fun r => { r with buddies := assignBuddies pl.members r.live r.buddies })
    let fresh := s1.wards.filter (fun m => !before.contains m)
    let s2 := s1.modRcv (fun r => { r with
      owes := r.owes.filter (fun o => s1.wards.contains o.2) ++ fresh.flatMap (fun m => pl.adjs.map (fun a => (a.part, m))) })
    let now := s2.myMember.bind s2.buddyOf
    if now = mine ∨ now.isNone then s2
    else pl.adjs.foldl (fun s a => (s.sendSlot pl a 0).sendSlot pl a 1) s2)

/-! ### Epochs (R548) -/

/-- The device IDs that the route tables reach. -/
def State.reachable (s : State) : List (BitVec 16) :=
  let g := devGroup s.devId
  let valid (off : Nat) : Bool := !(routeCandidates (s.pairAt pgRte off)).isEmpty
  let intra := ((List.range 64).filter (fun m => valid (R.RTE_INTRA + 8 * m))).map (mkDev g)
  let inter := ((List.range 256).filter (fun x => x ≠ g && valid (R.RTE_INTER + 8 * x))).flatMap (fun x =>
    (List.range 64).map (mkDev x))
  (intra ++ inter).filter (fun d => d ≠ s.devId)

/-- Members as a mask. -/
def memberMask (ms : List Nat) : Nat := ms.foldl (fun a m => a ||| 2 ^ m) 0

/-- The raise of a declaration: the own entry first, then EPOCH to every device. -/
def State.raiseGroup (s : State) (ms : List Nat) : State :=
  let g := devGroup s.devId
  let e := s.epochOf g + 1
  let s1 := ((s.raiseEpoch g e).record 0x103 0 g e.toNat).releaseEpochs
  let bs := leBytes 4 e.toNat ++ leBytes 2 s1.rcv.captain.toNat ++ leBytes 2 s1.rcv.deputy.toNat ++ leBytes 8 (memberMask ms)
  s1.reachable.foldl (fun s d => s.mgmt d mkEpoch bs) s1

/-! ### Takeovers and shrinks (R539, R561) -/

/-- The devices that may stand by: the plan's, and the live ones of removed rows. -/
def State.freeStandby (s : State) (pl : Plan) : Option (BitVec 16) :=
  (pl.standbys.map Standby.dev ++ s.rcv.extra.map (BitVec.ofNat 16)).find? (fun d => !s.rcv.used.contains d.toNat)

/-- Step 2: TAKE goes to a standby, which is used up by it. -/
def State.sendTake (s : State) (pl : Plan) (m : Nat) (d : BitVec 16) : State :=
  (s.modRcv (fun r => { r with used := r.used ++ [d.toNat] })).mgmt d mkTake (leBytes 2 (pl.dev m).toNat ++ leBytes 2 s.devId.toNat)

/-- The adjournment that a restore goes back to (R561). -/
def State.restoreSeq (s : State) (p : Fin 16) : Nat :=
  let a := s.adjOf p
  if s.rcv.useOld then (if a.st = .secured then a.prior else a.secured) else a.secured

/-- Member m can be filled: a live buddy has its copy, or the host has every copy (R561). -/
def State.copyLives (s : State) (pl : Plan) (m : Nat) : Bool :=
  pl.adjs.all (fun a => decide ((s.adjOf a.part).hostHas ≠ 0 ∧ (s.adjOf a.part).hostHas = (s.adjOf a.part).seq)
    || ((s.buddyOf m).any (liveBit s.rcv.live) && decide (s.restoreSeq a.part ≠ 0)))

/-- A takeover of member m starts (R539). With no copy of a secured adjournment left the group is HALTED. -/
def State.startFill (s : State) (pl : Plan) (m : Nat) (d : BitVec 16) : State :=
  let f : Fill := ⟨m, d.toNat, (s.buddyOf m).filter (liveBit s.rcv.live), false, false⟩
  let s1 := s.modRcv (fun r => { r with
    fills := r.fills.filter (fun x => x.member ≠ m) ++ [f]
    gstate := if s.copyLives pl m then .filling else .halted })
  s1.sendTake pl m d

/-- The data-parallel width: the rows whose members all live (R563). -/
def State.rowsLeft (s : State) (pl : Plan) : Nat :=
  ((List.range (pl.members.length / pl.rowSize)).filter (fun r =>
    (List.range pl.rowSize).all (fun i => liveBit s.rcv.live (r * pl.rowSize + i)))).length

/-- The failed member's row is removed, and its live devices become standbys (R561). -/
def State.shrink (s : State) (pl : Plan) (m : Nat) : State :=
  let row := m / pl.rowSize
  let ms := span (row * pl.rowSize) pl.rowSize
  let freed := (ms.filter (liveBit s.rcv.live)).map (fun x => (pl.dev x).toNat)
  let s1 := s.modRcv (fun r => { r with
    live := r.live &&& ~~~(BitVec.ofNat 64 (memberMask ms)), extra := r.extra ++ freed, gstate := .shrunk })
  s1.record 0x109 0 row (s1.rowsLeft pl)

/-- A failure met as from STEADY. -/
def State.fillOrShrink (s : State) (pl : Plan) (m : Nat) : State :=
  match s.freeStandby pl with
  | some d => s.startFill pl m d
  | none => s.shrink pl m

/-- R561 for one failed member. -/
def State.meetFailure (s : State) (pl : Plan) (m : Nat) : State :=
  let r := s.rcv
  if r.gstate = .halted then s
  else if r.gstate = .filling then
    match r.fills.find? (fun f => !f.filled && (f.member = m || f.source = some m)) with
    | some f =>
      let host := pl.adjs.all (fun a => decide ((s.adjOf a.part).hostHas = (s.adjOf a.part).seq))
      let s1 := s.modRcv (fun r => { r with
        fills := r.fills.filter (fun x => x.member ≠ f.member), useOld := r.useOld || !host })
      let s2 := s1.fillOrShrink pl f.member
      if f.member = m then s2 else s2.fillOrShrink pl m
    | none =>
      match s.freeStandby pl with
      | some d => s.startFill pl m d
      | none => s.modRcv (fun r => { r with waiting := r.waiting ++ [m] })
  else s.fillOrShrink pl m

/-- R562: the active bridge has failed, and the plan lists a member that stands by as bridge. -/
def State.moveBridge (s : State) (pl : Plan) (ms : List Nat) : State :=
  let b := s.reg pgRte R.RTE_BRIDGE
  if b.getLsbD 16 && ms.any (fun m => pl.dev m = b.setWidth 16) then
    match s.liveMembers.find? (fun m => Config.bridgeStandby (pl.dev m)) with
    | none => s
    | some m =>
      let d := pl.dev m
      let put (s : State) (dst : BitVec 16) (pn off : Nat) (v : Word) : State :=
        if dst = s.devId then s.drsWrite .arbiter (pn * 4096 + off) v
        else s.request 0 .island dst (drsBase + pn * 4096 + off) 4 (some (leBytes 4 v.toNat)) 0 none
      let s1 := put s d pgHbr R.HBR_ROLE 8
      s.liveMembers.foldl (fun s m => put s (pl.dev m) pgRte R.RTE_BRIDGE (word (2 ^ 16 + d.toNat))) s1
  else s

/-! ### Declarations (R538, R547) -/

/-- The captain declares members failed together (R548). -/
def State.declare (s : State) (pl : Plan) (ms : List Nat) : State :=
  let s1 := ms.foldl (fun s m =>
    s.record 0x102 0 (pl.dev m).toNat (s.rcv.misses.get (fun _ => 0) (pl.dev m).toNat)) s
  let s2 := s1.modRcv (fun r => { r with
    live := r.live &&& ~~~(BitVec.ofNat 64 (memberMask ms)), bad := r.bad.filter (fun d => !ms.any (fun m => (pl.dev m).toNat = d))
    failures := r.failures ++ ms.map (fun _ => s.now) })
  let s3 := (s2.adjUnderFailure ms).raiseGroup ms
  let s4 := ms.foldl (fun s m => s.meetFailure pl m) s3
  ((s4.moveBridge pl ms).reassign).refreshIntervals

/-- MEMBER_DECLARED_FAILED: three misses, SAFE, or SHORT where the plan replaces on it (R538). -/
def State.declareOne (s : State) (m : Nat) : State :=
  s.withPlan (fun pl s =>
    let d := pl.dev m
    let cause := decide (3 ≤ s.rcv.misses.get (fun _ => 0) d.toNat) || s.rcv.bad.contains d.toNat
    if s.isCaptain && liveBit s.rcv.live m && decide (m < pl.members.length) && decide (d ≠ s.devId) && cause then s.declare pl [m] else s)

/-- The devices that follow a silent captain and deputy, in order of device ID (R546). -/
def State.heirs (s : State) (pl : Plan) : List (BitVec 16) :=
  let ds := (s.liveMembers.map pl.dev).filter (fun d => d ≠ s.rcv.captain && d ≠ s.rcv.deputy)
  (ds.map (fun d => (d.toNat, 0))).foldl (fun acc x => insertDim x acc) [] |>.map (fun x => BitVec.ofNat 16 x.1)

/-- The misses of the captain after which this device claims (R546); none for a device that does not. -/
def State.claimAt (s : State) (pl : Plan) : Option Nat :=
  if s.rcv.role = .deputy then some 3
  else if s.rcv.role = .member then (findIdxFrom (fun d => decide (d = s.devId)) 0 (s.heirs pl)).map (fun i => 6 + 3 * i)
  else none

/-- Steps 6 and 8 of a takeover on the buddy of member m: its standby is filled from the copy, from the beginning. -/
def State.fillWard (s : State) (pl : Plan) (m : Nat) : State :=
  let d := pl.dev m
  let s1 := s.modRcv (fun r => { r with
    fed := m :: r.fed.filter (· ≠ m), copies := r.copies.filter (fun x => !(x.fill && x.dev = some d)) })
  pl.adjs.foldl (fun s a =>
    let i := (s.adjOf a.part).saveSlot
    let src := a.slotAt (2 + (1 - i))
    (s.sendRun 0 d src pl.takeStage configSize).askCopies ((shardRuns a (a.slotAt 0 + configSize)).map (fun r =>
      ⟨a.part, r.2.1 - a.slotAt 0 + src, some d, r.2.1, r.2.2, true⟩))) s1

/-- A new captain restarts from the beginning every fill under way (R547): the buddies fill anew. -/
def State.refill (s : State) (pl : Plan) (anew : Bool) : State :=
  if anew ∧ s.rcv.gstate = .filling then s.rcv.fed.foldl (fun s m => s.fillWard pl m) s else s

/-- CAPTAIN_SUCCESSION (R546, R547). -/
def State.claim (s : State) : State :=
  s.withPlan (fun pl s =>
    match s.claimAt pl with
    | none => s
    | some n =>
      if s.rcv.misses.get (fun _ => 0) s.rcv.captain.toNat < n then s
      else
        let byDeputy := decide (s.rcv.role = .deputy)
        let gone := (List.range pl.members.length).filter (fun m =>
          pl.dev m ≠ s.devId &&
          (pl.dev m = s.rcv.captain || (!byDeputy && pl.dev m = s.rcv.deputy) || !liveBit s.rcv.live m))
        let left := (s.liveMembers.filter (fun m => !gone.contains m && pl.dev m ≠ s.devId)).map (fun m => ((pl.dev m).toNat, 0))
        let deputy := ((left.foldl (fun acc x => insertDim x acc) []).map (fun x => BitVec.ofNat 16 x.1)).headD s.devId
        let s1 := s.modRcv (fun r => { r with role := .captain, captain := s.devId, deputy := deputy })
        let s2 := (s1.record 0x104 0 s.devId.toNat (b01 (!byDeputy))).declare pl gone
        (if byDeputy then s2 else s2.modRcv (fun r => { r with misses := emptyMap })).refill pl true)

/-! ### What arrives -/

/-- The captain's word in its heartbeat (R543, R545, R561): a ward that lives again in FILLING is filled. -/
def State.hearCaptain (s : State) (pl : Plan) (q : Packet) : State :=
  let live := BitVec.ofNat 64 (payNum q 16 8)
  let was := s.rcv.live
  let anew := decide (s.rcv.captain ≠ q.src)
  let s1 := s.modRcv (fun r => { r with
    captain := q.src, live := live, gstate := GState.ofCode (payNum q 6 1)
    filledSent := r.filledSent && r.captain = q.src })
  if (s1.rcv.role = .member ∨ s1.rcv.role = .deputy) ∧ (q.payload.drop 8).take 8 ≠ pl.digest then
    s1.modRcv (fun r => { r with result := 3, role := .none })
  else
    let s2 : State := match s1.myMember with
      | some me =>
        if s1.rcv.gstate = GState.shrunk ∧ s1.rcv.role ≠ Role.standby ∧ ¬ liveBit live me then
          s1.modRcv (fun r => { r with role := .standby })
        else s1
      | none => s1
    if s2.rcv.gstate = .filling then
      ((s2.wards.filter (fun m => liveBit live m && !liveBit was m)).foldl (fun s m => s.fillWard pl m) s2).refill pl anew
    else s2.modRcv (fun r => { r with fed := [] })

/-- A member's word in its heartbeat, to the captain and the deputy (R538, R556). -/
def State.hearMember (s : State) (pl : Plan) (m : Nat) (q : Packet) : State :=
  let flags := payNum q 5 1
  let d := q.src.toNat
  let wrong := bitOf flags 1 || (pl.replaceOnShort && bitOf flags 0)
  let s1 := s.modRcv (fun r => { r with
    bad := if wrong then (d :: r.bad).eraseDups else r.bad.filter (fun x => x ≠ d)
    steps := allParts.foldl (fun t p => t.set (fun _ => 0) (16 * m + p.val) (payNum q (24 + 4 * p.val) 4)) r.steps })
  -- A captain that has succeeded in FILLING learns of a fill by TAKEN (R547).
  if s1.isCaptain && s1.rcv.gstate = .filling && bitOf flags 2 && !s1.rcv.fills.any (fun f => f.member = m) then
    s1.modRcv (fun r => { r with fills := r.fills ++ [⟨m, d, s1.buddyOf m, true, false⟩] })
  else s1

/-- HEARTBEAT (R545). A claim of captaincy under an epoch this device has left behind is none. -/
def State.takeHeartbeat (s : State) (q : Packet) : State :=
  s.withPlan (fun pl s =>
    let s1 := s.modRcv (fun r => { r with misses := r.misses.set (fun _ => 0) q.src.toNat 0 })
    let old := decide (payNum q 0 4 < (s.epochOf (devGroup s.devId)).toNat)
    let s2 := if payNum q 4 1 = 2 ∧ ¬ s.isCaptain ∧ ¬ old then s1.hearCaptain pl q else s1
    match pl.memberAt q.src with
    | some m =>
      if (s2.isCaptain || s2.rcv.role = .deputy) && liveBit s2.rcv.live m then s2.hearMember pl m q else s2
    | none => s2)

/-- HEARTBEAT_MISSED: captain and deputy count every member, the others the captain (R538, R546, R547). -/
def State.missHeartbeat (s : State) (m : Nat) : State :=
  s.withPlan (fun pl s =>
    let d := pl.dev m
    let counts := match s.rcv.role with
      | .captain | .deputy => true
      | .member => decide (d = s.rcv.captain)
      | _ => false
    if counts && decide (m < pl.members.length) && decide (d ≠ s.devId) then
      s.modRcv (fun r => { r with misses := r.misses.set (fun _ => 0) d.toNat (r.misses.get (fun _ => 0) d.toNat + 1) })
    else s)

/-- The members of a mask. -/
def maskMembers (n : Nat) : List Nat := (List.range 64).filter (bitOf n)

/-- A raise of this device's own group, seen by a device that is not behind it (R545, R549, R554). -/
def State.followEpoch (s : State) (q : Packet) (newer : Bool) : State :=
  s.withPlan (fun pl s =>
    let cap : BitVec 16 := BitVec.ofNat 16 (payNum q 4 2)
    let dep : BitVec 16 := BitVec.ofNat 16 (payNum q 6 2)
    let ms := maskMembers (payNum q 8 8)
    let yields := s.isCaptain && (newer || decide (cap.toNat < s.devId.toNat))
    if s.isCaptain && !yields then s
    else
      let role := match s.rcv.role with
        | .standby => Role.standby
        | .none => Role.none
        | _ => if dep = s.devId then .deputy else .member
      let s1 := s.modRcv (fun r => { r with
        captain := cap, deputy := dep, role := role, misses := r.misses.set (fun _ => 0) cap.toNat 0
        filledSent := r.filledSent && r.captain = cap
        fills := if yields then [] else r.fills, waiting := if yields then [] else r.waiting
        restoring := if yields then [] else r.restoring
        live := r.live &&& ~~~(BitVec.ofNat 64 (memberMask ms))
        failures := if newer then r.failures ++ ms.map (fun _ => s.now) else r.failures })
      let s2 := if newer then (((s1.adjUnderFailure ms).reassign).refreshIntervals) else s1
      s2.refill pl (decide (cap ≠ s.rcv.captain)))

/-- EPOCH (R548, R549): the entry of the captain's group is raised, and held requests that it admits go on (R430). -/
def State.takeEpoch (s : State) (q : Packet) : State :=
  let e := payNum q 0 4
  let g := devGroup (BitVec.ofNat 16 (payNum q 4 2))
  let old := (s.epochOf g).toNat
  let s1 := if old < e then (s.raiseEpoch g (word e)).releaseEpochs else s
  if g = devGroup s.devId ∧ old ≤ e then s1.followEpoch q (decide (old < e)) else s1

/-- Step 4 of a takeover: every LNK page goes OFF, `DEV_ID` takes the failed member's ID, and the links start anew. -/
def State.becomeMember (s : State) (d : BitVec 16) : State :=
  let ns := (List.range 64).filter (fun n => s.linkFitted n && (s.page (pgLnk n)).st ≠ .retired)
  let s1 := ns.foldl (fun s n => (s.linkOff n).toPage (pgLnk n) { (s.linkOff n).page (pgLnk n) with st := .off, pendingEn := false }) s
  let s2 := s1.setReg pgDev R.DEV_ID (word (2 ^ 31 + d.toNat))
  ns.foldl (fun s n =>
    let p := s.page (pgLnk n)
    if p.enable then
      (s.setLink n { s.link n with st := .detect }).toPage (pgLnk n) { p with st := .starting }
    else s) s2

/-- TAKE (R539): a standby that has accepted none yet becomes the member. -/
def State.takeTake (s : State) (q : Packet) : State :=
  let d : BitVec 16 := BitVec.ofNat 16 (payNum q 0 2)
  let s1 := s.modRcv (fun r => { r with captain := BitVec.ofNat 16 (payNum q 2 2) })
  match s.rcv.plan.bind (fun pl => pl.memberAt d) with
  | some m =>
    if s.rcv.role = .standby ∧ s.rcv.taken.isNone then
      ((s1.report rpTakeOk 0 0 0 []).becomeMember d).modRcv (fun r => { r with role := .member, taken := some m, filledSent := false })
    else s1.report rpTakeRefused 0 0 0 []
  | none => s1.report rpTakeRefused 0 0 0 []

/-- Writes a register pair or word of a device for the captain. -/
def State.captainWrite (s : State) (d : BitVec 16) (off size : Nat) (v : Nat) : State :=
  if d = s.devId then (if size = 8 then s.drsWrite8 .arbiter off (BitVec.ofNat 64 v) else s.drsWrite .arbiter off (word v))
  else s.request 0 .island d (drsBase + off) size (some (leBytes size v)) 0 none

/-- A route patch as its bytes give it: devices and route entries (R541). -/
def patchEntries (bs : List Byte) : List (Nat × Nat) :=
  (chunks 16 bs).map (fun c => (leNat (c.take 8) % 2 ^ 16, leNat (c.drop 8)))

/-- TAKE_OK: step 5, and the member counts as live again; a captain that is its buddy fills the standby itself. A live device of a
removed row has no route patch in the plan. -/
def State.takeOk (s : State) (q : Packet) : State :=
  s.withPlan (fun pl s =>
    match s.rcv.fills.find? (fun f => f.standby = q.src.toNat && !f.accepted) with
    | none => s
    | some f =>
      if !s.isCaptain then s
      else
        let d := pl.dev f.member
        let s1 := s.modRcv (fun r => { r with
          fills := r.fills.map (fun x => if x.member = f.member then { x with accepted := true } else x)
          live := r.live ||| BitVec.ofNat 64 (2 ^ f.member), misses := r.misses.set (fun _ => 0) d.toNat 0 })
        let (es, s2) := match pl.standbys.find? (fun x => x.dev = q.src) with
          | none => ([], s1)
          | some x =>
            (match s1.memRead 0 s.devId.toNat x.patchAddr (16 * x.patchCount) with
              | (.ok bs, t) => (patchEntries bs, t)
              | (_, t) => ([], t))
        let s3 := es.foldl (fun s e => s.captainWrite (BitVec.ofNat 16 e.1) (pgRte * 4096 + R.RTE_INTRA + 8 * devMember d) 8 e.2) s2
        let g := devGroup s.devId
        let s4 := s3.captainWrite d (pgRte * 4096 + R.RTE_EPOCH + 4 * g) 4 (s3.epochOf g).toNat
        if s4.wards.contains f.member then s4.fillWard pl f.member else s4)

/-- Every fill has ended: a failure that waited is met as from STEADY; else the group restores (R561). -/
def State.fillsOver (s : State) (pl : Plan) : State :=
  match s.rcv.waiting with
  | m :: rest => (s.modRcv (fun r => { r with waiting := rest, fills := [] })).fillOrShrink pl m
  | [] => pl.adjs.foldl (fun s a => s.restoreGroup a.part (s.restoreSeq a.part)) s

/-- TAKE_REFUSED: the next standby is tried, or the row is removed. -/
def State.takeRefusal (s : State) (q : Packet) : State :=
  s.withPlan (fun pl s =>
    match s.rcv.fills.find? (fun f => f.standby = q.src.toNat && !f.accepted) with
    | none => s
    | some f =>
      if !s.isCaptain then s
      else (s.modRcv (fun r => { r with fills := r.fills.filter (fun x => x.member ≠ f.member) })).fillOrShrink pl f.member)

/-- FILLED: with every fill verified the captain sends RESTORE. -/
def State.takeFilled (s : State) (q : Packet) : State :=
  s.withPlan (fun pl s =>
    match pl.memberAt q.src with
    | none => s
    | some m =>
      if !s.isCaptain || s.rcv.gstate ≠ .filling || !s.rcv.fills.any (fun f => f.member = m && f.accepted) then s
      else
        let s1 := s.modRcv (fun r => { r with
          fills := r.fills.map (fun x => if x.member = m then { x with filled := true } else x) })
        if s1.rcv.fills.all (·.filled) then s1.fillsOver pl else s1)

/-! ### MGMT packets (R544) -/

/-- A REPORT. -/
def State.takeReport (s : State) (q : Packet) : State :=
  let p := Fin.ofNat 16 (payNum q 1 1)
  let seq := payNum q 8 8
  let k := payNum q 0 1
  if k = rpTakeOk then s.takeOk q
  else if k = rpTakeRefused then s.takeRefusal q
  else if k = rpDigest then s.takeDigest q p seq
  else if k = rpLate then s.takeLate p seq
  else if k = rpConfirm then s.takeConfirm q p seq
  else if k = rpFilled then s.takeFilled q
  else if k = rpRestored then s.takeRestored q p
  else s

/-- A MGMT packet at its destination; another MKIND is dropped. MCTP messages go to the endpoint (R521). -/
def State.mgmtIn (s : State) (q : Packet) : State :=
  let k := q.arg.toNat % 256
  if k = mkMctp then
    s.mctpArrives ⟨tpMgmt, q.payload.headD 0, (q.payload.drop 1).headD 0, (q.payload.drop 2).headD 0, q.payload.drop 3, 0⟩
  else if k = mkHeartbeat then s.takeHeartbeat q
  else if k = mkEpoch then s.takeEpoch q
  else if k = mkTake then s.takeTake q
  else if k = mkAdjourn then s.takeAdjourn q
  else if k = mkReport then s.takeReport q
  else if k = mkSealMsg then s.takeSeal q
  else s

/-- The mail that this device has sent to itself, in order; `fuel` messages at most. -/
def State.readMail : Nat → State → State
  | 0, s => s
  | n + 1, s =>
    match s.rcv.mail with
    | [] => s
    | q :: rest => State.readMail n ((s.modRcv (fun r => { r with mail := rest })).mgmtIn q)

/-- What the Arbiter does, and the mail it leaves itself by it. -/
def State.arbiterActs (s : State) (f : State → State) : State :=
  s.byArbiter (fun s => State.readMail 4096 (f s))

/-- A MGMT packet arrives. -/
def State.takeMgmt (s : State) (q : Packet) : State := s.arbiterActs (fun s => s.mgmtIn q)

/-- A MGMT packet of a kind arrives at this device, a REPORT of its own kind. -/
def State.mgmtAs (s : State) (kind : Nat) (rep : Option Nat) (q : Packet) : State :=
  if q.type = ptMgmt ∧ q.dst = s.devId ∧ q.arg.toNat % 256 = kind ∧ rep.all (fun n => decide (payNum q 0 1 = n)) then s.takeMgmt q
  else s

/-! ### The commands -/

def execRestore (v : Word) (s : State) : Host.Outcome State Fault Refusal :=
  done s (s.arbiterActs (fun s => s.restoreAsked v))
def execHeartbeatSend (s : State) : Host.Outcome State Fault Refusal := done s (s.arbiterActs State.sendHeartbeats)
def execHeartbeat (p : Packet) (s : State) : Host.Outcome State Fault Refusal := done s (s.mgmtAs mkHeartbeat none p)
def execHeartbeatMissed (member : BitVec 6) (s : State) : Host.Outcome State Fault Refusal :=
  done s (s.arbiterActs (fun s => s.missHeartbeat member.toNat))
def execMemberDeclaredFailed (member : BitVec 6) (s : State) : Host.Outcome State Fault Refusal :=
  done s (s.arbiterActs (fun s => s.declareOne member.toNat))
def execCaptainSuccession (s : State) : Host.Outcome State Fault Refusal := done s (s.arbiterActs State.claim)
def execEpoch (p : Packet) (s : State) : Host.Outcome State Fault Refusal := done s (s.mgmtAs mkEpoch none p)
def execTake (p : Packet) (s : State) : Host.Outcome State Fault Refusal := done s (s.mgmtAs mkTake none p)
def execTakeOk (p : Packet) (s : State) : Host.Outcome State Fault Refusal := done s (s.mgmtAs mkReport (some rpTakeOk) p)
def execTakeRefused (p : Packet) (s : State) : Host.Outcome State Fault Refusal :=
  done s (s.mgmtAs mkReport (some rpTakeRefused) p)
def execFilled (p : Packet) (s : State) : Host.Outcome State Fault Refusal := done s (s.mgmtAs mkReport (some rpFilled) p)
def execAdjourn (p : Packet) (s : State) : Host.Outcome State Fault Refusal := done s (s.mgmtAs mkAdjourn none p)
def execSaveStart (p : Fin 16) (s : State) : Host.Outcome State Fault Refusal := done s (s.arbiterActs (fun s => s.saveNow p))
def execDigest (p : Packet) (s : State) : Host.Outcome State Fault Refusal := done s (s.mgmtAs mkReport (some rpDigest) p)
def execLate (p : Packet) (s : State) : Host.Outcome State Fault Refusal := done s (s.mgmtAs mkReport (some rpLate) p)
def execSeal (p : Packet) (s : State) : Host.Outcome State Fault Refusal := done s (s.mgmtAs mkSealMsg none p)
def execConfirm (p : Packet) (s : State) : Host.Outcome State Fault Refusal := done s (s.mgmtAs mkReport (some rpConfirm) p)
def execRestored (p : Packet) (s : State) : Host.Outcome State Fault Refusal := done s (s.mgmtAs mkReport (some rpRestored) p)
def execAdjournNow (p : Fin 16) (s : State) : Host.Outcome State Fault Refusal :=
  done s (s.arbiterActs (fun s => s.startAdjourn p))
def execAdjournInterval (p : Fin 16) (s : State) : Host.Outcome State Fault Refusal :=
  done s (s.arbiterActs (fun s => s.intervalPassed p))

end Sys2Proof.Machine
end

