-- ==== Sys2Proof/Machine/Route.lean ====
section
/-!
DEFINITION. The router (R422, R424 to R427, R443): a packet that reaches the device is delivered here, sent on, or dropped;
and the flits that bring packets (R410, R421).
-/

namespace Sys2Proof.Machine

open Sys2Proof

/-- A packet reaches the device. A packet sent on spends no time in it (R423), but for one held while the RTE page is not
RUNNING. -/
def State.route (s : State) (p : Packet) : State :=
  if p.type.toNat = 0 ∨ 0x0B ≤ p.type.toNat then s.countDrop p 1
  else if p.dst = s.devId then (if p.type = ptMgmt then s.takeMgmt p else (s.deliver p).releaseEpochs)
  else s.sendOrFail p

def execPacketRoute (p : Packet) (s : State) : Host.Outcome State Fault Refusal := done s (s.route p)

/-- FLIT_RECEIVED (R410): each packet that the flit completes reaches the router. -/
def execFlitReceived (n : Fin 64) (f : Flit) (s : State) : Host.Outcome State Fault Refusal :=
  done s (let (ps, s1) := s.flitArrives n.val f; ps.foldl State.route s1)

end Sys2Proof.Machine
end

