-- ==== Sys2Proof/Machine/PawnMem.lean ====
section
/-!
DEFINITION. What a pawn reaches (R123 to R127, R129, R130): physical memory protection, its private region with the control
page and the command ports, its square's scratchpad, this device's local map, and other devices.
-/

namespace Sys2Proof.Machine

open Sys2Proof

/-! ### Physical memory protection (R122, R123) -/

/-- A kind of access. -/
inductive PAcc where
  | fetch | load | store
deriving DecidableEq, Repr

/-- The run of bytes that entry i covers: its first byte and the byte past its last; none while the entry is off
or its range is empty. An address
register holds address bits [63:2], so that entries reach the private region (assumption 20). -/
def Pawn.pmpRun (w : Pawn) (i : Nat) : Option (Nat × Nat) :=
  let a := (nth 0#64 w.pmpaddr i).toNat
  match bitsOf (nth 0#8 w.pmpcfg i).toNat 4 3 with
  | 0 => none
  | 1 =>
    let low := if i = 0 then 0 else 4 * (nth 0#64 w.pmpaddr (i - 1)).toNat
    if low < 4 * a then some (low, 4 * a) else none
  | 2 => some (4 * a, 4 * a + 4)
  | _ =>
    let ones := (findIdxFrom (fun b => !bitOf a b) 0 (List.range 62)).getD 62
    let base := a / 2 ^ (ones + 1) * 2 ^ (ones + 1)
    some (4 * base, 4 * (base + 2 ^ (ones + 1)))

/-- Whether an access of a mode is allowed: the lowest entry that matches any of its bytes decides and must match all of them;
without one, machine mode is allowed and user mode is not. -/
def Pawn.pmpOk (w : Pawn) (mode : PawnMode) (k : PAcc) (a n : Nat) : Bool :=
  match (List.range 16).find? (fun i => (w.pmpRun i).any (fun r => decide (a < r.2) && decide (r.1 < a + n))) with
  | none => mode = .machine
  | some i =>
    let c := (nth 0#8 w.pmpcfg i).toNat
    let whole := (w.pmpRun i).any (fun r => decide (r.1 ≤ a) && decide (a + n ≤ r.2))
    let right := match k with
      | .fetch => bitOf c 2
      | .load => bitOf c 0
      | .store => bitOf c 1
    whole && ((mode = .machine && !bitOf c 7) || right)

/-- The mode of a load or store: MPP's while machine mode has MPRV set. -/
def Pawn.dataMode (w : Pawn) : PawnMode :=
  if w.mode = .machine ∧ w.mstatus.getLsbD 17 then (if bitsOf w.mstatus.toNat 12 11 = 3 then .machine else .user) else w.mode

/-! ### Instruction and data memory (R124, R127) -/

/-- The key of an offset in a pawn's memories. -/
def State.pawnKey (s : State) (i off : Nat) : Nat :=
  let k := i * 0x20000 + off
  if off < 0x10000 then pawnEra (s.squares.pawnImage.get (fun _ => 0) i) k else k

def State.pawnByte (s : State) (i off : Nat) : Byte := s.squares.pawnMem.get pawnDefault (s.pawnKey i off)

def State.setPawnByte (s : State) (i off : Nat) (b : Byte) : State :=
  { s with squares := { s.squares with pawnMem := s.squares.pawnMem.set pawnDefault (s.pawnKey i off) b } }

/-- An access finds the mark of its word: a single-bit error is corrected, an uncorrectable word counts one UNIT_FAULT against
square q (R118, R127). -/
def State.pawnFind (s : State) (q i off : Nat) : Bool × State :=
  match s.pawnMark i off with
  | 0 => (true, s)
  | 1 => (true, s.setPawnMark i off 0)
  | _ => (false, s.unitFault q)

/-- The reservation number of a word of pawn i's data memory. -/
def pawnReservation (i off : Nat) : Nat := (i * 0x20000 + off) / 8

/-! ### The control page (R129) -/

/-- The number of the MTIMECMP pair among register pairs. -/
def mtimePair : Nat := 2 ^ 24 + 0x27000

def ctlWord (w : Pawn) (off : Nat) : Nat :=
  if off = 0 then w.mtimecmp.toNat % 2 ^ 32
  else if off = 4 then w.mtimecmp.toNat / 2 ^ 32
  else if off = 8 then w.irqPend.toNat
  else if off = 0xC then w.irqEn.toNat
  else if off = 0x14 then w.mboxTarget.toNat
  else if off = 0x18 then w.mboxRecv.toNat
  else 0

/-- A message to pawn TARGET of the square: `MBOX_RECV` and PAWN_MBOX. -/
def State.mboxSend (s : State) (q k : Nat) (v : Word) : State :=
  let ph := s.phys q
  let t := (s.pawn ph k).mboxTarget.toNat
  s.setPawn ph t { s.pawn ph t with mboxRecv := v, irqPend := (s.pawn ph t).irqPend ||| 0x40 }

/-- A 4-byte load of the page; the low word of MTIMECMP latches its high word (R78). -/
def State.ctlRead (s : State) (r : Req) (w : Pawn) (off : Nat) : Nat × State :=
  match reqNo r with
  | none => (ctlWord w off, s)
  | some n =>
    if off = 0 then
      (ctlWord w 0, { s with drs := { s.drs with latches := s.drs.latches.set noLatch n (some ⟨mtimePair, word (ctlWord w 4)⟩) } })
    else if off = 4 then
      (match s.drs.latches.get noLatch n with
        | some l => if l.pair = mtimePair then l.value.toNat else ctlWord w 4
        | none => ctlWord w 4, s)
    else (ctlWord w off, s)

/-- A 4-byte store to the page of pawn k of square q; a low word of MTIMECMP is held until the high word is written (R79). -/
def State.ctlWrite (s : State) (r : Req) (q k off v : Nat) : State :=
  let ph := s.phys q
  let w := s.pawn ph k
  match reqNo r with
  | none => s
  | some n =>
    if off = 0 then { s with drs := { s.drs with holds := s.drs.holds.set noLatch n (some ⟨mtimePair, word v⟩) } }
    else if off = 4 then
      let low := match s.drs.holds.get noLatch n with
        | some l => if l.pair = mtimePair then l.value.toNat else 0
        | none => 0
      let s1 := { s with drs := { s.drs with holds := s.drs.holds.set noLatch n none } }
      s1.setPawn ph k { w with mtimecmp := BitVec.ofNat 64 (low + v * 2 ^ 32) }
    else if off = 8 then s.setPawn ph k { w with irqPend := w.irqPend &&& ~~~(BitVec.ofNat 8 v) }
    else if off = 0xC then s.setPawn ph k { w with irqEn := BitVec.ofNat 8 v }
    else if off = 0x10 then s.mboxSend q k (word v)
    else if off = 0x14 then s.setPawn ph k { w with mboxTarget := BitVec.ofNat 2 v }
    else s

/-! ### The command ports (R130) -/

def cmdKey (i port word : Nat) : Nat := (i * 6 + port) * 32 + word

def State.portWord (s : State) (i : Nat) (k : Fin 4) (ph : Nat) (port : Fin 6) (off : Nat) : Nat :=
  let pt := nth Port.reset (s.pawn ph k.val).ports port.val
  if off < 0x100 then (s.squares.cmdBuf.get (fun _ => 0) (cmdKey i port.val (off / 8))).toNat / 2 ^ (8 * (off % 8)) % 2 ^ 32
  else if off = 0x104 then s.portFree ph k port
  else if off = 0x108 then pt.resultCode.toNat + pt.resultSeq % 2 ^ 24 * 2 ^ 8
  else if off = 0x10C then pt.issued
  else 0

def State.portWrite (s : State) (q : Nat) (k : Fin 4) (port : Fin 6) (off size v : Nat) : State :=
  let i := 4 * s.phys q + k.val
  if off < 0x100 then
    let key := cmdKey i port.val (off / 8)
    let old := (s.squares.cmdBuf.get (fun _ => 0) key).toNat
    let lo := 8 * (off % 8)
    { s with squares := { s.squares with
      cmdBuf := s.squares.cmdBuf.set (fun _ => 0) key (BitVec.ofNat 64 (putBits old (lo + 8 * size - 1) lo v)) } }
  else if off = 0x100 then s.submit q k port (word v)
  else s

/-! ### Accesses -/

/-- What an access comes to: bytes as a number, an access fault, a wait, or a misaligned address. -/
inductive PGot where
  | ok (v : Nat)
  | fault
  | wait
deriving DecidableEq, Repr

/-- Where an address leads a pawn of square q (R124). -/
inductive PPlace where
  | mem (off : Nat)
  | port (p : Fin 6) (off : Nat)
  | ctl (off : Nat)
  | spad (a : Nat)
  | here (a : Nat)
  | there (dev : BitVec 16) (a : Nat)
  | nowhere
deriving DecidableEq, Repr

def State.pawnPlace (s : State) (a : Nat) : PPlace :=
  let hi := a / 2 ^ 48
  let lo := a % 2 ^ 48
  if hi = 0xC000 then
    (if lo < 0x20000 then .mem lo
    else if lo < 0x26000 then .port (Fin.ofNat 6 ((lo - 0x20000) / 4096)) (lo % 4096)
    else if 0x27000 ≤ lo ∧ lo < 0x28000 then .ctl (lo - 0x27000)
    else if 0x1000000 ≤ lo ∧ lo < 0x1000000 + spadSize then .spad (lo - 0x1000000)
    else .nowhere)
  else if hi = 0x8000 then .here lo
  else if hi < 0x4000 then (if s.devIdValid ∧ hi = s.devId.toNat then .here lo else .there (BitVec.ofNat 16 hi) lo)
  else .nowhere

/-- An access outside the private region that is denied or unmapped is counted against the partition (R126; kind 0x0010 of R514,
whose subject is taken from the address, assumption 125). -/
def State.pawnDenied (s : State) (q a : Nat) : PGot × State := (.fault, s.record 0x10 (s.sqOwner q) (bitsOf a 23 12) 1)

/-- What a pawn's access at address `a` comes to; `f` gives the value of what was read. -/
def pawnGot {α : Type} (q a : Nat) (f : α → Nat) (x : Got α × State) : PGot × State :=
  match x.1 with
  | .ok v => (.ok (f v), x.2)
  | .fail c => if c = cPartitionFault then x.2.pawnDenied q a else (.fault, x.2)
  | .wait => (.wait, x.2)

/-- The transaction that pawn k of a physical square waits for. -/
def State.pawnTx (s : State) (ph : Nat) (k : Fin 4) : Option Tx := s.fab.txs.find? (fun t => t.owner = .pawn ph k)

/-- An access to another device: the request leaves, and the pawn waits for its answer (R126). -/
def State.pawnRemote (s : State) (q : Nat) (k : Fin 4) (dev : BitVec 16) (a n : Nat) (write : Option Nat) : PGot × State :=
  let ph := s.phys q
  match s.pawnTx ph k with
  | none =>
    (.wait, if s.injects (some q) then
      (s.request (s.sqOwner q) (.pawn ph k) dev a n (write.map (leBytes n)) 0 none).meshTrip (some q) none 1 0
    else s)
  | some t =>
    let s1 := (s.closeTx t.tag).meshTrip (some q) none 0 1
    match t.got, t.fail with
    | some bs, _ => (.ok (leNat bs), s1)
    | none, some c => if c = cPartitionFault then s1.pawnDenied q a else (.fault, s1)
    | none, none => (.wait, s)

/-- A naturally aligned load of `n` bytes by pawn k of square q. -/
def State.pawnLoad (s : State) (q : Fin 64) (k : Fin 4) (a n : Nat) : PGot × State :=
  let ph := s.phys q.val
  let i := 4 * ph + k.val
  let r : Req := .pawn q k
  let w := s.pawn ph k.val
  match s.pawnPlace a with
  | .mem off =>
    let (ok, s1) := s.pawnFind q.val i off
    (if ok then .ok (leNat ((span off n).map (s1.pawnByte i))) else .fault, s1)
  | .port p off =>
    if n = 8 ∧ off < 0x100 then (.ok (s.portWord i k ph p off + s.portWord i k ph p (off + 4) * 2 ^ 32), s)
    else if n = 4 then (.ok (s.portWord i k ph p off), s)
    else (.fault, s)
  | .ctl off =>
    if n = 8 ∧ off = 0 then (.ok w.mtimecmp.toNat, s)
    else if n = 4 then
      let (v, s1) := s.ctlRead r w off
      (.ok v, s1)
    else (.fault, s)
  | .spad o =>
    pawnGot q.val a leNat (s.spadRead q.val o n)
  | .here lo =>
    (match s.placeOf lo n with
      | .drs off =>
        if goodAccess r off n then
          let (v, s1) := s.drsRead r off
          (.ok v.toNat, s1)
        else (.ok 0, s.badAccess (s.reqPart r))
      | .unmapped => s.pawnDenied q.val a
      | _ =>
        pawnGot q.val a leNat (s.localRead (s.sqOwner q.val) (some q.val) s.devId.toNat lo n))
  | .there dev lo => s.pawnRemote q.val k dev lo n none
  | .nowhere => if a / 2 ^ 48 = 0xC000 then (.fault, s) else s.pawnDenied q.val a

/-- A naturally aligned store. -/
def State.pawnStore (s : State) (q : Fin 64) (k : Fin 4) (a n v : Nat) : PGot × State :=
  let ph := s.phys q.val
  let i := 4 * ph + k.val
  let r : Req := .pawn q k
  match s.pawnPlace a with
  | .mem off =>
    let put (s : State) : State :=
      (span off n).zipIdx.foldl (fun s (o, j) => s.setPawnByte i o (BitVec.ofNat 8 (v / 2 ^ (8 * j)))) s
    let free (s : State) : State :=
      let w := s.pawn ph k.val
      if w.reservation = some (pawnReservation i off) then s.setPawn ph k.val { w with reservation := none } else s
    if n = 8 then (.ok 0, free (put (s.setPawnMark i off 0)))
    else
      let (ok, s1) := s.pawnFind q.val i off
      if ok then (.ok 0, free (put s1)) else (.fault, s1)
  | .port p off =>
    if (n = 8 ∧ off < 0x100) ∨ n = 4 then (.ok 0, s.portWrite q.val k p off n v) else (.fault, s)
  | .ctl off =>
    if n = 8 ∧ off = 0 then
      (.ok 0, s.setPawn ph k.val { s.pawn ph k.val with mtimecmp := BitVec.ofNat 64 v })
    else if n = 4 then (.ok 0, s.ctlWrite r q.val k.val off v)
    else (.fault, s)
  | .spad o =>
    pawnGot q.val a (fun _ => 0) (s.spadWrite q.val o (leBytes n v))
  | .here lo =>
    (match s.placeOf lo n with
      | .drs off =>
        if goodAccess r off n then (.ok 0, (s.drsWrite r off (word v)).releaseEpochs)
        else (.ok 0, s.badAccess (s.reqPart r))
      | .unmapped => s.pawnDenied q.val a
      | _ =>
        pawnGot q.val a (fun _ => 0) (s.localWrite (s.sqOwner q.val) (some q.val) s.devId.toNat lo (leBytes n v)))
  | .there dev lo => s.pawnRemote q.val k dev lo n (some v)
  | .nowhere => if a / 2 ^ 48 = 0xC000 then (.fault, s) else s.pawnDenied q.val a

/-- Whether atomics reach an address, and by which number its word is reserved (R125). -/
def State.atomicAt (s : State) (q : Fin 64) (k : Fin 4) (a : Nat) : Option Nat :=
  match s.pawnPlace a with
  | .mem off => if 0x10000 ≤ off then some (pawnReservation (4 * s.phys q.val + k.val) off) else none
  | .spad o => some (spadReservation (s.spadKey q.val o))
  | _ => none

end Sys2Proof.Machine
end

