-- ==== Sys2Proof/Machine/Pawn.lean ====
section
/-!
DEFINITION. The pawns at work (R122 to R131, R147): control and status registers, traps and interrupts, one instruction at a
time, and the messages between pawns and host.
-/

namespace Sys2Proof.Machine

open Sys2Proof

/-! ### Registers -/

def Pawn.getX (w : Pawn) (i : Nat) : DWord := if i = 0 then 0 else nth 0#64 w.x (i - 1)

/-- x0 discards writes. -/
def Pawn.setX (w : Pawn) (i : Nat) (v : DWord) : Pawn := if i = 0 then w else { w with x := setNth w.x (i - 1) v }

def Pawn.getF (w : Pawn) (i : Nat) : Word := nth 0#32 w.f i

/-- `mstatus.FS` becomes Dirty with every write of floating-point state. -/
def Pawn.dirty (w : Pawn) : Pawn := { w with mstatus := w.mstatus ||| 0x6000 }

def Pawn.setF (w : Pawn) (i : Nat) (v : Word) : Pawn := { w with f := setNth w.f i v }.dirty

def Pawn.fsOn (w : Pawn) : Bool := bitsOf w.mstatus.toNat 14 13 ≠ 0

/-- The rounding mode of an instruction: static, or `frm`; none for a reserved one (R122). -/
def Pawn.rounding (w : Pawn) (rm : Nat) : Option Nat :=
  let r := if rm = 7 then w.frm.toNat else rm
  if r ≤ 4 then some r else none

/-! ### Interrupts (R129) -/

/-- `mip`: the machine timer interrupt while `time` ≥ `MTIMECMP`, the machine external interrupt while an enabled bit of
`IRQ_PEND` is set. -/
def State.mip (s : State) (w : Pawn) : Nat :=
  b01 (decide (w.mtimecmp.toNat ≤ s.now)) * 2 ^ 7 + b01 (w.irqPend &&& w.irqEn ≠ 0) * 2 ^ 11

/-- The interrupt to take: external before timer; in machine mode only while MIE is 1. -/
def State.interrupt (s : State) (w : Pawn) : Option Nat :=
  let on := s.mip w &&& w.mie.toNat
  if w.mode = .machine && !w.mstatus.getLsbD 3 then none
  else if bitOf on 11 then some 11
  else if bitOf on 7 then some 7
  else none

/-- Trap entry: `mepc`, `mcause` and `mtval` are saved, MPP and MPIE keep the mode and MIE, and the pawn goes on in machine mode
at the handler, which for an interrupt may be vectored. -/
def Pawn.trap (w : Pawn) (isInt : Bool) (cause : Nat) (tval : DWord) : Pawn :=
  let st := w.mstatus.toNat
  let s1 := putBits (putBits (putBits st 7 7 (bitsOf st 3 3)) 3 3 0) 12 11 (if w.mode = .machine then 3 else 0)
  let base := w.mtvec.toNat / 4 * 4
  { w with
    mepc := w.pc, mcause := BitVec.ofNat 64 (cause + b01 isInt * 2 ^ 63), mtval := tval, mstatus := BitVec.ofNat 64 s1
    mode := .machine, wfi := false
    pc := BitVec.ofNat 64 (if isInt && w.mtvec.getLsbD 0 then base + 4 * cause else base) }

/-- A pawn traps; TRAP_M tells of a trap in machine mode (R147). -/
def State.pawnTrap (s : State) (q : Nat) (k : Nat) (isInt : Bool) (cause : Nat) (tval : DWord) : State :=
  let ph := s.phys q
  let w := s.pawn ph k
  let s1 := s.setPawn ph k (w.trap isInt cause tval)
  if w.mode = .machine then s1.statusAll (pgPwn q k) 5 else s1

/-! ### Control and status registers (R122, R128) -/

/-- RV64 with I, M, A, F, C and user mode. -/
def misaValue : DWord := 0x8000000000101125#64

/-- `mstatus` as it reads: UXL 2 for 64 bits, SD while FS is Dirty. -/
def Pawn.mstatusRead (w : Pawn) : DWord :=
  w.mstatus ||| 0x200000000#64 ||| (if bitsOf w.mstatus.toNat 14 13 = 3 then 0x8000000000000000#64 else 0)

/-- `mstatus` written: MIE, MPIE, MPP (user or machine), FS, MPRV and TW. -/
def mstatusWrite (v : DWord) : DWord :=
  let x := v &&& 0x226088#64
  if bitsOf v.toNat 12 11 = 3 then x ||| 0x1800#64 else x

/-- A PMP configuration byte written: W without R is reserved and reads as neither. -/
def pmpCfgLegal (c : Byte) : Byte :=
  let x := c &&& 0x9F#8
  if x.getLsbD 1 && !x.getLsbD 0 then x &&& ~~~0x02#8 else x

/-- Eight configuration bytes written from byte `i` on; a locked one stays. -/
def Pawn.setPmpCfg (w : Pawn) (i : Nat) (v : DWord) : Pawn :=
  { w with pmpcfg := w.pmpcfg.zipIdx.map (fun (c, j) =>
    if i ≤ j ∧ j < i + 8 ∧ ¬ c.getLsbD 7 then pmpCfgLegal (BitVec.ofNat 8 (v.toNat / 2 ^ (8 * (j - i)))) else c) }

/-- An address register written, unless it or the top-of-range entry that uses it is locked. -/
def Pawn.setPmpAddr (w : Pawn) (i : Nat) (v : DWord) : Pawn :=
  let c (j : Nat) : Byte := nth 0#8 w.pmpcfg j
  if (c i).getLsbD 7 || (decide (i < 15) && (c (i + 1)).getLsbD 7 && bitsOf (c (i + 1)).toNat 4 3 = 1) then w
  else { w with pmpaddr := setNth w.pmpaddr i (v &&& 0x3FFFFFFFFFFFFFFF#64) }

/-- The CSRs that exist, apart from the counters' privileges. -/
def csrExists (n : Nat) : Bool :=
  [0x001, 0x002, 0x003, 0x300, 0x301, 0x304, 0x305, 0x306, 0x30A, 0x320, 0x340, 0x341, 0x342, 0x343, 0x344, 0x3A0, 0x3A2,
    0xB00, 0xB02, 0xC00, 0xC01, 0xC02, 0xF11, 0xF12, 0xF13, 0xF14, 0xF15].contains n
  || (decide (0x323 ≤ n) && decide (n < 0x340)) || (decide (0x3B0 ≤ n) && decide (n < 0x3C0))
  || (decide (0xB03 ≤ n) && decide (n < 0xB20)) || (decide (0xC03 ≤ n) && decide (n < 0xC20))

/-- Whether an access to a CSR is legal: its privilege, its access, and for the unprivileged counters `mcounteren`. -/
def Pawn.csrOk (w : Pawn) (n : Nat) (writes : Bool) : Bool :=
  csrExists n
  && (w.mode = .machine || bitsOf n 9 8 = 0)
  && !(writes && bitsOf n 11 10 = 3)
  && (w.mode = .machine || !(decide (0xC00 ≤ n) && decide (n < 0xC20)) || bitOf w.mcounteren.toNat (n - 0xC00))
  && (w.fsOn || !(decide (1 ≤ n) && decide (n ≤ 3)))

/-- A CSR's value. DESIGN CHOICE: `time` is the counter itself, where R110 lets the square's copy lag by up to 4 ns (assumption
121). The pawn has run an unstated number of beats when `cycle` is read: the counter has risen by a free amount. -/
def State.csrRead (s : State) (q k : Nat) (w : Pawn) (n : Nat) : DWord × Pawn × State :=
  if n = 0xC00 ∨ n = 0xB00 then
    let (o, s1) := s.fresh
    let c := w.cycle + BitVec.ofNat 64 (Config.freeNat o 0 % 2 ^ 32)
    (c, { w with cycle := c }, s1)
  else
    let v : DWord :=
      if n = 0x002 then w.frm.setWidth 64
      else if n = 0x003 then BitVec.ofNat 64 (w.frm.toNat * 32)
      else if n = 0x300 then w.mstatusRead
      else if n = 0x301 then misaValue
      else if n = 0x304 then w.mie
      else if n = 0x305 then w.mtvec
      else if n = 0x306 then w.mcounteren
      else if n = 0x340 then w.mscratch
      else if n = 0x341 then w.mepc
      else if n = 0x342 then w.mcause
      else if n = 0x343 then w.mtval
      else if n = 0x344 then BitVec.ofNat 64 (s.mip w)
      else if n = 0x3A0 ∨ n = 0x3A2 then
        BitVec.ofNat 64 (leNat ((w.pmpcfg.drop (4 * (n - 0x3A0))).take 8))
      else if 0x3B0 ≤ n ∧ n < 0x3C0 then nth 0#64 w.pmpaddr (n - 0x3B0)
      else if n = 0xB02 ∨ n = 0xC02 then w.instret
      else if n = 0xC01 then s.sys.time
      else if n = 0xF11 then Config.pawnIds 0
      else if n = 0xF12 then Config.pawnIds 1
      else if n = 0xF13 then Config.pawnIds 2
      else if n = 0xF14 then Config.pawnIds (3 + 4 * q + k)
      else 0
    (v, w, s)

/-- A CSR takes a value. -/
def Pawn.csrWrite (w : Pawn) (n : Nat) (v : DWord) : Pawn :=
  if n = 0x002 then { w with frm := v.setWidth 3 }.dirty
  else if n = 0x003 then { w with frm := BitVec.ofNat 3 (bitsOf v.toNat 7 5) }.dirty
  else if n = 0x001 then w.dirty
  else if n = 0x300 then { w with mstatus := mstatusWrite v }
  else if n = 0x304 then { w with mie := v &&& 0x888#64 }
  else if n = 0x305 then { w with mtvec := v &&& ~~~0x2#64 }
  else if n = 0x306 then { w with mcounteren := v &&& 0x7#64 }
  else if n = 0x340 then { w with mscratch := v }
  else if n = 0x341 then { w with mepc := v &&& ~~~0x1#64 }
  else if n = 0x342 then { w with mcause := v }
  else if n = 0x343 then { w with mtval := v }
  else if n = 0x3A0 ∨ n = 0x3A2 then w.setPmpCfg (4 * (n - 0x3A0)) v
  else if 0x3B0 ≤ n ∧ n < 0x3C0 then w.setPmpAddr (n - 0x3B0) v
  else if n = 0xB00 then { w with cycle := v }
  else if n = 0xB02 then { w with instret := v }
  else w

/-! ### One instruction -/

/-- What an instruction comes to. -/
inductive Did where
  | retired (s : State)
  | traps (cause : Nat) (tval : DWord) (s : State)
  | waits (s : State)

/-- The pawn that a step concerns: its square, its number, and the bytes and word of its instruction. -/
structure PCtx where
  q : Fin 64
  k : Fin 4
  size : Nat
  bits : Nat

def State.myPawn (s : State) (c : PCtx) : Pawn := s.pawn (s.phys c.q.val) c.k.val
def State.putPawn (s : State) (c : PCtx) (w : Pawn) : State := s.setPawn (s.phys c.q.val) c.k.val w

/-- The instruction retires: the pawn goes on at `pc`. -/
def Pawn.retire (w : Pawn) (pc : DWord) : Pawn := { w with pc := pc, instret := w.instret + 1 }

/-- Retires with the pawn changed, at the next instruction. -/
def State.retire (s : State) (c : PCtx) (w : Pawn) : Did := .retired (s.putPawn c (w.retire (w.pc + BitVec.ofNat 64 c.size)))

def State.retireAt (s : State) (c : PCtx) (w : Pawn) (pc : DWord) : Did := .retired (s.putPawn c (w.retire pc))

/-- An illegal instruction. -/
def State.illegal (s : State) (c : PCtx) : Did := .traps 2 (BitVec.ofNat 64 c.bits) s

/-- A load of `n` bytes; `f` is what the pawn does with the value. A misaligned address comes before an access fault. -/
def State.doLoad (s : State) (c : PCtx) (a : DWord) (n : Nat) (f : Pawn → Nat → Pawn) : Did :=
  let w := s.myPawn c
  if a.toNat % n ≠ 0 then .traps 4 a s
  else if !w.pmpOk w.dataMode .load a.toNat n then .traps 5 a s
  else
    match s.pawnLoad c.q c.k a.toNat n with
    | (.ok v, s1) => s1.retire c (f (s1.myPawn c) v)
    | (.fault, s1) => .traps 5 a s1
    | (.wait, s1) => .waits s1

/-- A store of `n` bytes. -/
def State.doStore (s : State) (c : PCtx) (a : DWord) (n v : Nat) : Did :=
  let w := s.myPawn c
  if a.toNat % n ≠ 0 then .traps 6 a s
  else if !w.pmpOk w.dataMode .store a.toNat n then .traps 7 a s
  else
    match s.pawnStore c.q c.k a.toNat n (v % 2 ^ (8 * n)) with
    | (.ok _, s1) => s1.retire c (s1.myPawn c)
    | (.fault, s1) => .traps 7 a s1
    | (.wait, s1) => .waits s1

/-- A load's value as a register takes it. -/
def loadValue (f3 v : Nat) : DWord :=
  if f3 < 3 then sext (8 * 2 ^ f3) v else BitVec.ofNat 64 v

/-- LR (R125). -/
def State.doLr (s : State) (c : PCtx) (w32 : Bool) (rd rs1 : Nat) : Did :=
  let a := (s.myPawn c).getX rs1
  match s.atomicAt c.q c.k a.toNat with
  | none => if a.toNat % (if w32 then 4 else 8) ≠ 0 then .traps 4 a s else .traps 5 a s
  | some r =>
    s.doLoad c a (if w32 then 4 else 8) (fun w v =>
      { w.setX rd (if w32 then sext 32 v else BitVec.ofNat 64 v) with reservation := some r })

/-- SC (R125): it stores while the pawn still holds its reservation of the word, which it gives up either way. -/
def State.doSc (s : State) (c : PCtx) (w32 : Bool) (rd rs1 rs2 : Nat) : Did :=
  let w := s.myPawn c
  let a := w.getX rs1
  let n := if w32 then 4 else 8
  if a.toNat % n ≠ 0 then .traps 6 a s
  else if !w.pmpOk w.dataMode .store a.toNat n then .traps 7 a s
  else
    match s.atomicAt c.q c.k a.toNat with
    | none => .traps 7 a s
    | some r =>
      let s0 := s.putPawn c { w with reservation := none }
      if w.reservation = some r then
        match s0.pawnStore c.q c.k a.toNat n ((w.getX rs2).toNat % 2 ^ (8 * n)) with
        | (.ok _, s1) => s1.retire c ((s1.myPawn c).setX rd 0)
        | (.fault, s1) => .traps 7 a s1
        | (.wait, s1) => .waits s1
      else s0.retire c ((s0.myPawn c).setX rd 1)

/-- The atomic operations (R125). -/
def State.doAmo (s : State) (c : PCtx) (f5 : Nat) (w32 : Bool) (rd rs1 rs2 : Nat) : Did :=
  let w := s.myPawn c
  let a := w.getX rs1
  let n := if w32 then 4 else 8
  if a.toNat % n ≠ 0 then .traps 6 a s
  else if !w.pmpOk w.dataMode .store a.toNat n || !w.pmpOk w.dataMode .load a.toNat n || (s.atomicAt c.q c.k a.toNat).isNone then
    .traps 7 a s
  else
    match s.pawnLoad c.q c.k a.toNat n with
    | (.ok v, s1) =>
      let old := if w32 then sext 32 v else BitVec.ofNat 64 v
      let new := amoEval f5 w32 old (w.getX rs2)
      (match s1.pawnStore c.q c.k a.toNat n (new.toNat % 2 ^ (8 * n)) with
        | (.ok _, s2) => s2.retire c ((s2.myPawn c).setX rd old)
        | (.fault, s2) => .traps 7 a s2
        | (.wait, s2) => .waits s2)
    | (.fault, s1) => .traps 7 a s1
    | (.wait, s1) => .waits s1

/-- CSRRW, CSRRS, CSRRC and their immediate forms. A write of `minstret` follows the instruction's own count. -/
def State.doCsr (s : State) (c : PCtx) (f3 rd rs1 n : Nat) : Did :=
  let w := s.myPawn c
  let src : DWord := if 4 ≤ f3 then BitVec.ofNat 64 rs1 else w.getX rs1
  let op := f3 % 4
  let writes := op = 1 ∨ rs1 ≠ 0
  if !w.csrOk n (decide writes) then s.illegal c
  else
    let (old, w1, s1) := s.csrRead c.q.val c.k.val w n
    let new := if op = 1 then src else if op = 2 then old ||| src else old &&& ~~~src
    let w2 := (w1.setX rd old).retire (w1.pc + BitVec.ofNat 64 c.size)
    .retired (s1.putPawn c (if writes then w2.csrWrite n new else w2))

/-- MRET. -/
def State.doMret (s : State) (c : PCtx) : Did :=
  let w := s.myPawn c
  if w.mode ≠ .machine then s.illegal c
  else
    let st := w.mstatus.toNat
    let toM := bitsOf st 12 11 = 3
    let s1 := putBits (putBits (putBits st 3 3 (bitsOf st 7 7)) 7 7 1) 12 11 0
    let s2 := if toM then s1 else putBits s1 17 17 0
    s.retireAt c { w with mode := if toM then .machine else .user, mstatus := BitVec.ofNat 64 s2 } w.mepc

/-- A floating-point instruction that rounds; `f` gives the pawn with its result. -/
def State.doFloat (s : State) (c : PCtx) (rm : Nat) (f : Pawn → Nat → Pawn) : Did :=
  let w := s.myPawn c
  match w.rounding rm with
  | some r => if w.fsOn then s.retire c (f w r) else s.illegal c
  | none => s.illegal c

/-- One instruction's effect (R122). -/
def State.runIns (s : State) (c : PCtx) (i : PIns) : Did :=
  let w := s.myPawn c
  let next := w.pc + BitVec.ofNat 64 c.size
  match i with
  | .lui rd imm => s.retire c (w.setX rd imm)
  | .auipc rd imm => s.retire c (w.setX rd (w.pc + imm))
  | .jal rd imm => s.retireAt c (w.setX rd next) (w.pc + imm)
  | .jalr rd rs1 imm => s.retireAt c (w.setX rd next) ((w.getX rs1 + imm) &&& ~~~1#64)
  | .branch f3 a b imm => s.retireAt c w (if branchTaken f3 (w.getX a) (w.getX b) then w.pc + imm else next)
  | .load f3 rd rs1 imm => s.doLoad c (w.getX rs1 + imm) (2 ^ (f3 % 4)) (fun w v => w.setX rd (loadValue f3 v))
  | .store f3 rs1 rs2 imm => s.doStore c (w.getX rs1 + imm) (2 ^ f3) (w.getX rs2).toNat
  | .opImm o w32 rd rs1 imm => s.retire c (w.setX rd (if w32 then o.evalW (w.getX rs1) imm else o.eval (w.getX rs1) imm))
  | .op o w32 rd a b =>
    s.retire c (w.setX rd (if w32 then o.evalW (w.getX a) (w.getX b) else o.eval (w.getX a) (w.getX b)))
  | .fence | .fenceI => s.retire c w
  | .ecall => .traps (if w.mode = .machine then 11 else 8) 0 s
  | .ebreak => .traps 3 w.pc s
  | .mret => s.doMret c
  | .wfi => if w.mode = .user ∧ w.mstatus.getLsbD 21 then s.illegal c else s.retire c { w with wfi := true }
  | .csr f3 rd rs1 n => s.doCsr c f3 rd rs1 n
  | .lr w32 rd rs1 => s.doLr c w32 rd rs1
  | .sc w32 rd rs1 rs2 => s.doSc c w32 rd rs1 rs2
  | .amo f5 w32 rd rs1 rs2 => s.doAmo c f5 w32 rd rs1 rs2
  | .flw rd rs1 imm =>
    if w.fsOn then s.doLoad c (w.getX rs1 + imm) 4 (fun w v => w.setF rd (BitVec.ofNat 32 v)) else s.illegal c
  | .fsw rs1 rs2 imm => if w.fsOn then s.doStore c (w.getX rs1 + imm) 4 (w.getF rs2).toNat else s.illegal c
  | .fop o rd a b rm => s.doFloat c rm (fun w r => w.setF rd (o.eval r (w.getF a) (w.getF b)))
  | .fused kind rd a b d rm => s.doFloat c rm (fun w r => w.setF rd (fusedEval kind r (w.getF a) (w.getF b) (w.getF d)))
  | .fplain o rd a b =>
    if !w.fsOn then s.illegal c
    else if o = .toF then s.retire c (w.setF rd ((w.getX a).setWidth 32))
    else if o.toInteger then s.retire c (w.setX rd (o.evalX (w.getF a) (w.getF b)))
    else s.retire c (w.setF rd (o.evalF (w.getF a) (w.getF b)))
  | .toInt kind rd a rm => s.doFloat c rm (fun w r => w.setX rd (toIntF kind r (w.getF a)))
  | .ofInt kind rd a rm => s.doFloat c rm (fun w r => w.setF rd (ofIntF kind r (w.getX a)))

/-- What a fetch finds. A fault may lie at the second half of a 4-byte instruction. -/
inductive PawnFetch where
  | ins (i : PIns) (size bits : Nat)
  | illegal (bits : Nat)
  | fault (second : Bool)

/-- A fetch (R124, R125, R127): from the instruction memory alone. -/
def State.pawnFetch (s : State) (q : Fin 64) (k : Fin 4) : PawnFetch × State :=
  let ph := s.phys q.val
  let i := 4 * ph + k.val
  let w := s.pawn ph k.val
  let off := w.pc.toNat % 2 ^ 48
  let half (s : State) (o : Nat) : Option Nat × State :=
    if o + 2 ≤ 0x10000 ∧ w.pmpOk w.mode .fetch (0xC000 * 2 ^ 48 + o) 2 then
      let (ok, s1) := s.pawnFind q.val i o
      (if ok then some (leNat [s1.pawnByte i o, s1.pawnByte i (o + 1)]) else none, s1)
    else (none, s)
  if w.pc.toNat / 2 ^ 48 ≠ 0xC000 then (.fault false, s)
  else
    match half s off with
    | (none, s1) => (.fault false, s1)
    | (some lo, s1) =>
      if lo % 4 ≠ 3 then (match decode16 lo with
        | some x => .ins x 2 lo
        | none => .illegal lo, s1)
      else
        match half s1 (off + 2) with
        | (none, s2) => (.fault true, s2)
        | (some hi, s2) =>
          let n := lo + hi * 2 ^ 16
          (match decode32 n with
            | some x => .ins x 4 n
            | none => .illegal n, s2)

/-- The kinds of step that the commands tell apart: a load or store outside the private region (R126), a floating-point operation
(R122), and every other. -/
inductive PClass where
  | plain | outside | float
deriving DecidableEq, Repr

def Pawn.classOf (w : Pawn) (i : PIns) : PClass :=
  let far (a : DWord) : PClass := if a.toNat / 2 ^ 48 = 0xC000 then .plain else .outside
  match i with
  | .load _ _ rs1 imm | .store _ rs1 _ imm | .flw _ rs1 imm | .fsw rs1 _ imm => far (w.getX rs1 + imm)
  | .fop .. | .fused .. | .fplain .. | .toInt .. | .ofInt .. => .float
  | _ => .plain

/-- The pawn executes: it is not halted, its page is RUNNING, or drains while its present instruction has not ended, and no SUBMIT
of its is held (R131, R147). -/
def State.pawnReady (s : State) (q : Fin 64) (k : Fin 4) : Bool :=
  (s.running (pgPwn q.val k.val) || (s.pstate (pgPwn q.val k.val) = .draining && s.pawnOpen (s.phys q.val) k.val))
  && !(s.pawn (s.phys q.val) k.val).halted
  && !s.sch.held.any (fun h => match h.origin with
    | .port ph k' _ _ => decide (ph = s.phys q.val) && decide (k' = k)
    | _ => false)

/-- The outcome of one instruction. -/
def State.landed (q : Fin 64) (k : Fin 4) : Did → State
  | .retired s => s
  | .traps cause tval s => s.pawnTrap q.val k.val false cause tval
  | .waits s => s

/-- One step of a pawn, if it is of the given kind: an interrupt that can be taken, else the instruction at its PC. A pawn that
waits for an interrupt goes on when one is pending and enabled in `mie`. An access to another device runs to its end before an
interrupt is taken. -/
def State.pawnStep (s : State) (q : Fin 64) (k : Fin 4) (kind : PClass) : State :=
  let ph := s.phys q.val
  let w := s.pawn ph k.val
  let open' := (s.pawnTx ph k).isSome
  if !s.pawnReady q k then s
  else if w.wfi && s.mip w &&& w.mie.toNat = 0 then s
  else
    match (if open' then none else s.interrupt w) with
    | some cause => if kind = .plain then s.pawnTrap q.val k.val true cause 0 else s
    | none =>
      let s0 := if w.wfi then s.setPawn ph k.val { w with wfi := false } else s
      match s0.pawnFetch q k with
      | (.fault second, s1) =>
        if kind = .plain then s1.pawnTrap q.val k.val false 1 (if second then w.pc + 2 else w.pc) else s
      | (.illegal bits, s1) => if kind = .plain then s1.pawnTrap q.val k.val false 2 (BitVec.ofNat 64 bits) else s
      | (.ins i size bits, s1) =>
        if (s1.pawn ph k.val).classOf i = kind then State.landed q k (s1.runIns ⟨q, k, size, bits⟩ i) else s

/-- One step of a pawn; one that ends the instruction of a pawn that drains halts it (R147). -/
def State.pawnRuns (s : State) (q : Fin 64) (k : Fin 4) (kind : PClass) : State :=
  let s1 := s.pawnStep q k kind
  if s1.pstate (pgPwn q.val k.val) = .draining then s1.drainPawn (s1.phys q.val) k.val else s1

/-- PAWN_INSTRUCTION, PAWN_LOAD_STORE, PAWN_FLOAT_OP: the pawn's next step, if it is of the command's kind. -/
def execPawnInstruction (q : Fin 64) (k : Fin 4) (s : State) : Host.Outcome State Fault Refusal := done s (s.pawnRuns q k .plain)
def execPawnLoadStore (q : Fin 64) (k : Fin 4) (s : State) : Host.Outcome State Fault Refusal := done s (s.pawnRuns q k .outside)
def execPawnFloatOp (q : Fin 64) (k : Fin 4) (s : State) : Host.Outcome State Fault Refusal := done s (s.pawnRuns q k .float)

/-! ### Messages and the timer (R129, R147) -/

def execPwnMboxIn (r : Req) (q : Fin 64) (k : Fin 4) (v : Word) (s : State) : Host.Outcome State Fault Refusal :=
  done s (s.asWrite r (pgPwn q.val k.val) R.PWN_MBOX_IN false (fun s => s.mboxIn q.val k.val v))

def execPwnMboxOut (q : Fin 64) (k : Fin 4) (v : Word) (s : State) : Host.Outcome State Fault Refusal :=
  done s (s.mboxOut q.val k.val v)

def execMboxSend (q : Fin 64) (k : Fin 4) (v : Word) (s : State) : Host.Outcome State Fault Refusal :=
  done s (s.mboxSend q.val k.val v)

/-- MACHINE_TIMER_INTERRUPT: `time` has reached `MTIMECMP`; the pending interrupt wakes a pawn that waits for it. -/
def State.timerDue (s : State) (q k : Nat) : State :=
  let ph := s.phys q
  let s1 := s.reach (s.pawn ph k).mtimecmp.toNat
  let w := s1.pawn ph k
  if s1.mip w &&& w.mie.toNat = 0 then s1 else s1.setPawn ph k { w with wfi := false }

def execMachineTimerInterrupt (q : Fin 64) (k : Fin 4) (s : State) : Host.Outcome State Fault Refusal :=
  done s (s.timerDue q.val k.val)

end Sys2Proof.Machine
end

