-- ==== Sys2Proof/Machine/Dispatch.lean ====
section
/-!
DEFINITION. The meaning of every command, one arm per constructor of Instr.
-/

namespace Sys2Proof.Machine

open Sys2Proof

def exec (i : Instr) (s : State) : Host.Outcome State Fault Refusal :=
  match i with
  | .registerWrite r off v => Sys2Proof.Machine.execRegisterWrite r off v s
  | .badAccess r off size write => Sys2Proof.Machine.execBadAccess r off size write s
  | .pairLowRead r off => Sys2Proof.Machine.execPairLowRead r off s
  | .pairLowWrite r off v => Sys2Proof.Machine.execPairLowWrite r off v s
  | .pairHighWrite r off v => Sys2Proof.Machine.execPairHighWrite r off v s
  | .remotePairAccess dev part off size write => Sys2Proof.Machine.execRemotePairAccess dev part off size write s
  | .pageOwner r pn v => Sys2Proof.Machine.execPageOwner r pn v s
  | .zeroingDone q => Sys2Proof.Machine.execZeroingDone q s
  | .enable r pn v => Sys2Proof.Machine.execEnable r pn v s
  | .softReset r pn v => Sys2Proof.Machine.execSoftReset r pn v s
  | .initialisationComplete pn => Sys2Proof.Machine.execInitialisationComplete pn s
  | .drainComplete pn => Sys2Proof.Machine.execDrainComplete pn s
  | .intStatusClear r pn v => Sys2Proof.Machine.execIntStatusClear r pn v s
  | .intEnable r pn v => Sys2Proof.Machine.execIntEnable r pn v s
  | .intForce r pn v => Sys2Proof.Machine.execIntForce r pn v s
  | .errWindow r set v => Sys2Proof.Machine.execErrWindow r set v s
  | .errThreshold r set v => Sys2Proof.Machine.execErrThreshold r set v s
  | .bucketAdvance set => Sys2Proof.Machine.execBucketAdvance set s
  | .lastingDeclared set => Sys2Proof.Machine.execLastingDeclared set s
  | .devId r v => Sys2Proof.Machine.execDevId r v s
  | .engineReset r v => Sys2Proof.Machine.execEngineReset r v s
  | .warmReset r v => Sys2Proof.Machine.execWarmReset r v s
  | .coldReset r v => Sys2Proof.Machine.execColdReset r v s
  | .spdSwzWrite r q n cfg v => Sys2Proof.Machine.execSpdSwzWrite r q n cfg v s
  | .tolExp r q u v => Sys2Proof.Machine.execTolExp r q u v s
  | .pwnMboxIn r q k v => Sys2Proof.Machine.execPwnMboxIn r q k v s
  | .pwnMboxOut q k v => Sys2Proof.Machine.execPwnMboxOut q k v s
  | .mboxSend q k v => Sys2Proof.Machine.execMboxSend q k v s
  | .machineTimerInterrupt q k => Sys2Proof.Machine.execMachineTimerInterrupt q k s
  | .pawnLoadStore q k => Sys2Proof.Machine.execPawnLoadStore q k s
  | .pawnFloatOp q k => Sys2Proof.Machine.execPawnFloatOp q k s
  | .submit q k port v => Sys2Proof.Machine.execSubmit q k port v s
  | .heldAdmission n => Sys2Proof.Machine.execHeldAdmission n s
  | .engineCommandStart e => Sys2Proof.Machine.execEngineCommandStart e s
  | .commandCompletion id beats => Sys2Proof.Machine.execCommandCompletion id beats s
  | .flagFalls id => Sys2Proof.Machine.execFlagFalls id s
  | .parityFault p => Sys2Proof.Machine.execParityFault p s
  | .engineSelfGate e => Sys2Proof.Machine.execEngineSelfGate e s
  | .tile id => Sys2Proof.Machine.execTile id s
  | .batchWindowClose q u => Sys2Proof.Machine.execBatchWindowClose q u s
  | .run id => Sys2Proof.Machine.execRun id s
  | .chainStart q u => Sys2Proof.Machine.execChainStart q u s
  | .vNop q u => Sys2Proof.Machine.execVNop q u s
  | .vLoop q u => Sys2Proof.Machine.execVLoop q u s
  | .vSeed q u => Sys2Proof.Machine.execVSeed q u s
  | .vAdd q u => Sys2Proof.Machine.execVAdd q u s
  | .vSub q u => Sys2Proof.Machine.execVSub q u s
  | .vMul q u => Sys2Proof.Machine.execVMul q u s
  | .vFma q u => Sys2Proof.Machine.execVFma q u s
  | .vFms q u => Sys2Proof.Machine.execVFms q u s
  | .vFnma q u => Sys2Proof.Machine.execVFnma q u s
  | .vMin q u => Sys2Proof.Machine.execVMin q u s
  | .vMax q u => Sys2Proof.Machine.execVMax q u s
  | .vAbs q u => Sys2Proof.Machine.execVAbs q u s
  | .vNeg q u => Sys2Proof.Machine.execVNeg q u s
  | .vClamp q u => Sys2Proof.Machine.execVClamp q u s
  | .vCopysign q u => Sys2Proof.Machine.execVCopysign q u s
  | .vRoundi q u => Sys2Proof.Machine.execVRoundi q u s
  | .vCvt q u => Sys2Proof.Machine.execVCvt q u s
  | .vSel q u => Sys2Proof.Machine.execVSel q u s
  | .vCmp q u => Sys2Proof.Machine.execVCmp q u s
  | .vAnd q u => Sys2Proof.Machine.execVAnd q u s
  | .vOr q u => Sys2Proof.Machine.execVOr q u s
  | .vXor q u => Sys2Proof.Machine.execVXor q u s
  | .vAndn q u => Sys2Proof.Machine.execVAndn q u s
  | .vIadd q u => Sys2Proof.Machine.execVIadd q u s
  | .vIsub q u => Sys2Proof.Machine.execVIsub q u s
  | .vImul q u => Sys2Proof.Machine.execVImul q u s
  | .vShl q u => Sys2Proof.Machine.execVShl q u s
  | .vShr q u => Sys2Proof.Machine.execVShr q u s
  | .vShrl q u => Sys2Proof.Machine.execVShrl q u s
  | .vIand q u => Sys2Proof.Machine.execVIand q u s
  | .vIor q u => Sys2Proof.Machine.execVIor q u s
  | .vIxor q u => Sys2Proof.Machine.execVIxor q u s
  | .vImin q u => Sys2Proof.Machine.execVImin q u s
  | .vImax q u => Sys2Proof.Machine.execVImax q u s
  | .vFunc q u => Sys2Proof.Machine.execVFunc q u s
  | .vFuncMul q u => Sys2Proof.Machine.execVFuncMul q u s
  | .vFuncFma q u => Sys2Proof.Machine.execVFuncFma q u s
  | .vRsum q u => Sys2Proof.Machine.execVRsum q u s
  | .vRmax q u => Sys2Proof.Machine.execVRmax q u s
  | .vRmin q u => Sys2Proof.Machine.execVRmin q u s
  | .vRsumsq q u => Sys2Proof.Machine.execVRsumsq q u s
  | .vRargmax q u => Sys2Proof.Machine.execVRargmax q u s
  | .vMoments q u => Sys2Proof.Machine.execVMoments q u s
  | .vNorm q u => Sys2Proof.Machine.execVNorm q u s
  | .vRmsnorm q u => Sys2Proof.Machine.execVRmsnorm q u s
  | .vSoftmax q u => Sys2Proof.Machine.execVSoftmax q u s
  | .vLse q u => Sys2Proof.Machine.execVLse q u s
  | .vRstat q u => Sys2Proof.Machine.execVRstat q u s
  | .vRstatMerge q u => Sys2Proof.Machine.execVRstatMerge q u s
  | .vScan q u => Sys2Proof.Machine.execVScan q u s
  | .vScanld q u => Sys2Proof.Machine.execVScanld q u s
  | .vScanst q u => Sys2Proof.Machine.execVScanst q u s
  | .sftLoad id => Sys2Proof.Machine.execSftLoad id s
  | .sftSwap id => Sys2Proof.Machine.execSftSwap id s
  | .sftRestore id => Sys2Proof.Machine.execSftRestore id s
  | .sftSync id => Sys2Proof.Machine.execSftSync id s
  | .sftBankReleased q => Sys2Proof.Machine.execSftBankReleased q s
  | .copy id => Sys2Proof.Machine.execCopy id s
  | .gather id => Sys2Proof.Machine.execGather id s
  | .scatter id => Sys2Proof.Machine.execScatter id s
  | .fill id => Sys2Proof.Machine.execFill id s
  | .decrypt id => Sys2Proof.Machine.execDecrypt id s
  | .plan id => Sys2Proof.Machine.execPlan id s
  | .update id => Sys2Proof.Machine.execUpdate id s
  | .hostBudgetExpiry group => Sys2Proof.Machine.execHostBudgetExpiry group s
  | .updHostDone r v => Sys2Proof.Machine.execUpdHostDone r v s
  | .allGather id => Sys2Proof.Machine.execAllGather id s
  | .reduceScatter id => Sys2Proof.Machine.execReduceScatter id s
  | .allReduce id => Sys2Proof.Machine.execAllReduce id s
  | .broadcast id => Sys2Proof.Machine.execBroadcast id s
  | .reduce id => Sys2Proof.Machine.execReduce id s
  | .allToAll id => Sys2Proof.Machine.execAllToAll id s
  | .allToAllv id => Sys2Proof.Machine.execAllToAllv id s
  | .barrier id => Sys2Proof.Machine.execBarrier id s
  | .join p => Sys2Proof.Machine.execJoin p s
  | .offer p => Sys2Proof.Machine.execOffer p s
  | .up p => Sys2Proof.Machine.execUp p s
  | .down p => Sys2Proof.Machine.execDown p s
  | .peer p => Sys2Proof.Machine.execPeer p s
  | .abort p => Sys2Proof.Machine.execAbort p s
  | .joinTimeout id => Sys2Proof.Machine.execJoinTimeout id s
  | .schNop id => Sys2Proof.Machine.execSchNop id s
  | .segOpen id => Sys2Proof.Machine.execSegOpen id s
  | .segClose id => Sys2Proof.Machine.execSegClose id s
  | .segReplay id => Sys2Proof.Machine.execSegReplay id s
  | .start r => Sys2Proof.Machine.execStart r s
  | .stop r => Sys2Proof.Machine.execStop r s
  | .reset r => Sys2Proof.Machine.execReset r s
  | .schCtxData r n v => Sys2Proof.Machine.execSchCtxData r n v s
  | .selectorWrite r off v => Sys2Proof.Machine.execSelectorWrite r off v s
  | .schTcCommit r v => Sys2Proof.Machine.execSchTcCommit r v s
  | .schDoorbell r v => Sys2Proof.Machine.execSchDoorbell r v s
  | .ringSlotTaken ctx => Sys2Proof.Machine.execRingSlotTaken ctx s
  | .schTallyVal r v => Sys2Proof.Machine.execSchTallyVal r v s
  | .schTallyAdd r v => Sys2Proof.Machine.execSchTallyAdd r v s
  | .colGrpCommit r v => Sys2Proof.Machine.execColGrpCommit r v s
  | .rteEntryWrite r off v => Sys2Proof.Machine.execRteEntryWrite r off v s
  | .rteEpoch r g v => Sys2Proof.Machine.execRteEpoch r g v s
  | .hbrWin r n v => Sys2Proof.Machine.execHbrWin r n v s
  | .takeover r v => Sys2Proof.Machine.execTakeover r v s
  | .rekey n tx => Sys2Proof.Machine.execRekey n tx s
  | .pwrCapReq r v => Sys2Proof.Machine.execPwrCapReq r v s
  | .pwrPolicy r v => Sys2Proof.Machine.execPwrPolicy r v s
  | .powerCapWindow dw => Sys2Proof.Machine.execPowerCapWindow dw s
  | .beatRateWindow p rate => Sys2Proof.Machine.execBeatRateWindow p rate s
  | .sensorSample row index reading => Sys2Proof.Machine.execSensorSample row index reading s
  | .thermRelease => Sys2Proof.Machine.execThermRelease s
  | .thermalComparator die => Sys2Proof.Machine.execThermalComparator die s
  | .scoresheetCommit => Sys2Proof.Machine.execScoresheetCommit s
  | .scrClear r v => Sys2Proof.Machine.execScrClear r v s
  | .scratchpadScrub p bank => Sys2Proof.Machine.execScratchpadScrub p bank s
  | .patrolScrub k => Sys2Proof.Machine.execPatrolScrub k s
  | .refresh k temp => Sys2Proof.Machine.execRefresh k temp s
  | .memoryAccess part addr size write => Sys2Proof.Machine.execMemoryAccess part addr size write s
  | .spareCopyDone k spare => Sys2Proof.Machine.execSpareCopyDone k spare s
  | .regionOverwriteDone region => Sys2Proof.Machine.execRegionOverwriteDone region s
  | .squarePromotion q us => Sys2Proof.Machine.execSquarePromotion q us s
  | .selftest target => Sys2Proof.Machine.execSelftest target s
  | .selftestPeriod hours => Sys2Proof.Machine.execSelftestPeriod hours s
  | .selftestCycle => Sys2Proof.Machine.execSelftestCycle s
  | .selftestAbandon => Sys2Proof.Machine.execSelftestAbandon s
  | .selftestRetry q => Sys2Proof.Machine.execSelftestRetry q s
  | .selfTestComplete pass => Sys2Proof.Machine.execSelfTestComplete pass s
  | .vbusRise v => Sys2Proof.Machine.execVbusRise v s
  | .rstN => Sys2Proof.Machine.execRstN s
  | .startUpStep t => Sys2Proof.Machine.execStartUpStep t s
  | .aliasKeyReady => Sys2Proof.Machine.execAliasKeyReady s
  | .vbusLoss v => Sys2Proof.Machine.execVbusLoss v s
  | .inputOv v => Sys2Proof.Machine.execInputOv v s
  | .powerDie die phaseLost => Sys2Proof.Machine.execPowerDie die phaseLost s
  | .plane => Sys2Proof.Machine.execPlane s
  | .auxOverload => Sys2Proof.Machine.execAuxOverload s
  | .auxFault => Sys2Proof.Machine.execAuxFault s
  | .remoteSenseFault recovered => Sys2Proof.Machine.execRemoteSenseFault recovered s
  | .regulatorFailure p => Sys2Proof.Machine.execRegulatorFailure p s
  | .refclkLoss => Sys2Proof.Machine.execRefclkLoss s
  | .perstN => Sys2Proof.Machine.execPerstN s
  | .watchdog => Sys2Proof.Machine.execWatchdog s
  | .linkBringUp n t => Sys2Proof.Machine.execLinkBringUp n t s
  | .detectTimeout n => Sys2Proof.Machine.execDetectTimeout n s
  | .linkRetrain n t => Sys2Proof.Machine.execLinkRetrain n t s
  | .flitReceived n f => Sys2Proof.Machine.execFlitReceived n f s
  | .nak n seq => Sys2Proof.Machine.execNak n seq s
  | .packetRoute p => Sys2Proof.Machine.execPacketRoute p s
  | .write p => Sys2Proof.Machine.execWrite p s
  | .read p => Sys2Proof.Machine.execRead p s
  | .data p => Sys2Proof.Machine.execData p s
  | .ack p => Sys2Proof.Machine.execAck p s
  | .nack p => Sys2Proof.Machine.execNack p s
  | .signal p => Sys2Proof.Machine.execSignal p s
  | .command p => Sys2Proof.Machine.execCommand p s
  | .interrupt p => Sys2Proof.Machine.execInterrupt p s
  | .interruptResend part => Sys2Proof.Machine.execInterruptResend part s
  | .requestTimeout tag => Sys2Proof.Machine.execRequestTimeout tag s
  | .epochHoldExpiry n => Sys2Proof.Machine.execEpochHoldExpiry n s
  | .bar0Access fn addr size write => Sys2Proof.Machine.execBar0Access fn addr size write s
  | .bar2Access fn addr size write => Sys2Proof.Machine.execBar2Access fn addr size write s
  | .functionLevelReset fn => Sys2Proof.Machine.execFunctionLevelReset fn s
  | .ptCreate r p => Sys2Proof.Machine.execPtCreate r p s
  | .ptRanges r p => Sys2Proof.Machine.execPtRanges r p s
  | .ptShares r p => Sys2Proof.Machine.execPtShares r p s
  | .ptRegions r p => Sys2Proof.Machine.execPtRegions r p s
  | .ptPeers r p => Sys2Proof.Machine.execPtPeers r p s
  | .ptActivate r p => Sys2Proof.Machine.execPtActivate r p s
  | .ptTeardown r p => Sys2Proof.Machine.execPtTeardown r p s
  | .unlockPassword r => Sys2Proof.Machine.execUnlockPassword r s
  | .unlockNonce r => Sys2Proof.Machine.execUnlockNonce r s
  | .unlockResponse r => Sys2Proof.Machine.execUnlockResponse r s
  | .ephCreate r slot => Sys2Proof.Machine.execEphCreate r slot s
  | .keyUnwrap r slot => Sys2Proof.Machine.execKeyUnwrap r slot s
  | .keyDestroy r slot => Sys2Proof.Machine.execKeyDestroy r slot s
  | .report r => Sys2Proof.Machine.execReport r s
  | .chain r => Sys2Proof.Machine.execChain r s
  | .getVersion bytes => Sys2Proof.Machine.execGetVersion bytes s
  | .getCapabilities bytes => Sys2Proof.Machine.execGetCapabilities bytes s
  | .negotiateAlgorithms bytes => Sys2Proof.Machine.execNegotiateAlgorithms bytes s
  | .getDigests bytes => Sys2Proof.Machine.execGetDigests bytes s
  | .getCertificate bytes => Sys2Proof.Machine.execGetCertificate bytes s
  | .challenge bytes => Sys2Proof.Machine.execChallenge bytes s
  | .getMeasurements bytes => Sys2Proof.Machine.execGetMeasurements bytes s
  | .keyExchange bytes => Sys2Proof.Machine.execKeyExchange bytes s
  | .finish bytes => Sys2Proof.Machine.execFinish bytes s
  | .keyUpdate bytes => Sys2Proof.Machine.execKeyUpdate bytes s
  | .spdmHeartbeat bytes => Sys2Proof.Machine.execSpdmHeartbeat bytes s
  | .endSession bytes => Sys2Proof.Machine.execEndSession bytes s
  | .setEndpointId eid => Sys2Proof.Machine.execSetEndpointId eid s
  | .mctp m => Sys2Proof.Machine.execMctp m s
  | .mboxSendArb r v => Sys2Proof.Machine.execMboxSendArb r v s
  | .mboxReply bytes => Sys2Proof.Machine.execMboxReply bytes s
  | .arbUpdStage r v => Sys2Proof.Machine.execArbUpdStage r v s
  | .requestUpdate size => Sys2Proof.Machine.execRequestUpdate size s
  | .requestFirmwareData bytes => Sys2Proof.Machine.execRequestFirmwareData bytes s
  | .imageVerifyDone ok => Sys2Proof.Machine.execImageVerifyDone ok s
  | .flashWriteDone => Sys2Proof.Machine.execFlashWriteDone s
  | .readbackDone ok => Sys2Proof.Machine.execReadbackDone ok s
  | .deviceId v => Sys2Proof.Machine.execDeviceId v s
  | .placement v => Sys2Proof.Machine.execPlacement v s
  | .powerCapEffecter v => Sys2Proof.Machine.execPowerCapEffecter v s
  | .planLo v => Sys2Proof.Machine.execPlanLo v s
  | .planHi v => Sys2Proof.Machine.execPlanHi v s
  | .commit v => Sys2Proof.Machine.execCommit v s
  | .adjournNow p => Sys2Proof.Machine.execAdjournNow p s
  | .hostConfirm v => Sys2Proof.Machine.execHostConfirm v s
  | .restore v => Sys2Proof.Machine.execRestore v s
  | .heartbeatSend => Sys2Proof.Machine.execHeartbeatSend s
  | .heartbeat p => Sys2Proof.Machine.execHeartbeat p s
  | .heartbeatMissed member => Sys2Proof.Machine.execHeartbeatMissed member s
  | .memberDeclaredFailed member => Sys2Proof.Machine.execMemberDeclaredFailed member s
  | .captainSuccession => Sys2Proof.Machine.execCaptainSuccession s
  | .epoch p => Sys2Proof.Machine.execEpoch p s
  | .take p => Sys2Proof.Machine.execTake p s
  | .takeOk p => Sys2Proof.Machine.execTakeOk p s
  | .takeRefused p => Sys2Proof.Machine.execTakeRefused p s
  | .filled p => Sys2Proof.Machine.execFilled p s
  | .adjournInterval p => Sys2Proof.Machine.execAdjournInterval p s
  | .adjourn p => Sys2Proof.Machine.execAdjourn p s
  | .saveStart p => Sys2Proof.Machine.execSaveStart p s
  | .digest p => Sys2Proof.Machine.execDigest p s
  | .late p => Sys2Proof.Machine.execLate p s
  | .seal p => Sys2Proof.Machine.execSeal p s
  | .confirm p => Sys2Proof.Machine.execConfirm p s
  | .restored p => Sys2Proof.Machine.execRestored p s
  | .arbiterBoot => Sys2Proof.Machine.execArbiterBoot s
  | .pcieLinkUp speed width => Sys2Proof.Machine.execPcieLinkUp speed width s
  | .pcieDown => Sys2Proof.Machine.execPcieDown s
  | .sriovVfEnable n => Sys2Proof.Machine.execSriovVfEnable n s
  | .bar4Access fn addr write => Sys2Proof.Machine.execBar4Access fn addr write s
  | .pawnInstruction q k => Sys2Proof.Machine.execPawnInstruction q k s
  | .rstNAsserted => Sys2Proof.Machine.execRstNAsserted s
  | .auxRetry cleared => Sys2Proof.Machine.execAuxRetry cleared s
  | .copyOutComplete => Sys2Proof.Machine.execCopyOutComplete s
  | .reqDone => Sys2Proof.Machine.execReqDone s
  | .dynamicAddress addr => Sys2Proof.Machine.execDynamicAddress addr s

end Sys2Proof.Machine
end

