-- ==== Sys2Proof/WellFormed.lean ====
section
/-!
DEFINITION. What the spec asks of a command's operands before any state is looked at.
-/

namespace Sys2Proof

/-- A packet that a link can carry (R421): LEN 0 to 2,048, the payload of LEN bytes; a READ asks for 1 byte at least and brings
none. -/
def Packet.wf (p : Packet) : Bool :=
  decide (p.len.toNat ≤ 2048) &&
  (if p.type = 0x02 then p.payload.isEmpty && decide (1 ≤ p.len.toNat) else decide (p.payload.length = p.len.toNat))

/-- A packet of one type (R422). -/
def Packet.isA (type : Nat) (p : Packet) : Bool := p.wf && decide (p.type.toNat = type)

/-- A MGMT packet of one MKIND, of partition 0, with a payload as long as the fields R544 gives it. -/
def Packet.isMgmt (kind size : Nat) (p : Packet) : Bool :=
  p.isA 0x0A && decide (p.arg.toNat % 256 = kind) && p.part = 0 && decide (size ≤ p.payload.length)

/-- A REPORT of one kind (R544). -/
def Packet.isReport (kind : Nat) (p : Packet) : Bool := p.isMgmt 6 88 && decide (p.payload.headD 0 = BitVec.ofNat 8 kind)

/-- A training names each of the four lanes once (R406). -/
def Training.wf (t : Training) : Bool := decide (t.order.length = 4) && decide t.order.Nodup

/-- A flit's 12-bit sequence numbers and its container of at most 1,008 bytes (R409). -/
def Flit.wf (f : Flit) : Bool := decide (f.seq < 4096) && decide (f.ack < 4096) && decide (f.bytes.length ≤ 1008)

/-- The checks, one command at a time; the last arm names those whose operands have exact types. -/
def Instr.wf : Instr → Bool
  | .write p => p.isA 0x01
  | .read p => p.isA 0x02
  | .data p => p.isA 0x03
  | .ack p => p.isA 0x04
  | .nack p => p.isA 0x05
  | .signal p => p.isA 0x06
  | .command p => p.isA 0x07
  | .join p | .offer p | .up p | .down p | .peer p | .abort p => p.isA 0x08
  | .interrupt p => p.isA 0x09
  | .heartbeat p => p.isMgmt 2 88
  | .epoch p => p.isMgmt 3 16
  | .take p => p.isMgmt 4 4
  | .adjourn p => p.isMgmt 5 16
  | .takeOk p => p.isReport 0
  | .takeRefused p => p.isReport 1
  | .digest p => p.isReport 2
  | .late p => p.isReport 3
  | .confirm p => p.isReport 4
  | .filled p => p.isReport 5
  | .restored p => p.isReport 6
  | .seal p => p.isMgmt 7 80
  | .packetRoute p => p.wf
  | .linkBringUp _ t => t.wf
  | .linkRetrain _ t => t.wf
  | .flitReceived _ f => f.wf
  | .nak _ seq => decide (seq < 4096)
  | .sensorSample row _ _ => decide (row < 8)
  | .thermalComparator die => decide (die < 88)
  | .selftest target => decide (target ≤ 64)
  | .requestFirmwareData bytes => decide (bytes.length ≤ 4096)
  | .mboxReply bytes => decide (bytes.length ≤ 2048)
  | .dynamicAddress addr => decide (addr < 128)
  | .bar0Access _ addr size _ =>
    (decide (size = 1) || decide (size = 2) || decide (size = 4) || decide (size = 8)) && decide (addr < 2 ^ 30)
  | .bar2Access _ addr size _ => decide (1 ≤ size) && decide (addr < 2 ^ 36)
  | .bar4Access _ addr _ => decide (addr < 4096) && decide (addr % 4 = 0)
  | .registerWrite _ _ _ | .badAccess _ _ _ _ | .pairLowRead _ _ | .pairLowWrite _ _ _ | .pairHighWrite _ _ _
  | .remotePairAccess _ _ _ _ _ | .pageOwner _ _ _ | .zeroingDone _ | .enable _ _ _ | .softReset _ _ _
  | .initialisationComplete _ | .drainComplete _ | .intStatusClear _ _ _ | .intEnable _ _ _ | .intForce _ _ _
  | .errWindow _ _ _ | .errThreshold _ _ _ | .bucketAdvance _ | .lastingDeclared _ | .devId _ _ | .engineReset _ _
  | .warmReset _ _ | .coldReset _ _ | .spdSwzWrite _ _ _ _ _ | .tolExp _ _ _ _ | .pwnMboxIn _ _ _ _ | .pwnMboxOut _ _ _
  | .mboxSend _ _ _ | .machineTimerInterrupt _ _ | .pawnLoadStore _ _ | .pawnFloatOp _ _ | .submit _ _ _ _ | .heldAdmission _
  | .engineCommandStart _ | .commandCompletion _ _ | .flagFalls _ | .parityFault _ | .engineSelfGate _ | .tile _
  | .batchWindowClose _ _ | .run _ | .chainStart _ _ | .vNop _ _ | .vLoop _ _ | .vSeed _ _ | .vAdd _ _ | .vSub _ _
  | .vMul _ _ | .vFma _ _ | .vFms _ _ | .vFnma _ _ | .vMin _ _ | .vMax _ _ | .vAbs _ _ | .vNeg _ _ | .vClamp _ _
  | .vCopysign _ _ | .vRoundi _ _ | .vCvt _ _ | .vSel _ _ | .vCmp _ _ | .vAnd _ _ | .vOr _ _ | .vXor _ _ | .vAndn _ _
  | .vIadd _ _ | .vIsub _ _ | .vImul _ _ | .vShl _ _ | .vShr _ _ | .vShrl _ _ | .vIand _ _ | .vIor _ _ | .vIxor _ _
  | .vImin _ _ | .vImax _ _ | .vFunc _ _ | .vFuncMul _ _ | .vFuncFma _ _ | .vRsum _ _ | .vRmax _ _ | .vRmin _ _
  | .vRsumsq _ _ | .vRargmax _ _ | .vMoments _ _ | .vNorm _ _ | .vRmsnorm _ _ | .vSoftmax _ _ | .vLse _ _ | .vRstat _ _
  | .vRstatMerge _ _ | .vScan _ _ | .vScanld _ _ | .vScanst _ _ | .sftLoad _ | .sftSwap _ | .sftRestore _ | .sftSync _
  | .sftBankReleased _ | .copy _ | .gather _ | .scatter _ | .fill _ | .decrypt _ | .plan _ | .update _ | .hostBudgetExpiry _
  | .updHostDone _ _ | .allGather _ | .reduceScatter _ | .allReduce _ | .broadcast _ | .reduce _ | .allToAll _ | .allToAllv _
  | .barrier _ | .joinTimeout _ | .schNop _ | .segOpen _ | .segClose _ | .segReplay _ | .start _ | .stop _ | .reset _
  | .schCtxData _ _ _ | .selectorWrite _ _ _ | .schTcCommit _ _ | .schDoorbell _ _ | .ringSlotTaken _ | .schTallyVal _ _
  | .schTallyAdd _ _ | .colGrpCommit _ _ | .rteEntryWrite _ _ _ | .rteEpoch _ _ _ | .hbrWin _ _ _ | .takeover _ _
  | .rekey _ _ | .pwrCapReq _ _ | .pwrPolicy _ _ | .powerCapWindow _ | .beatRateWindow _ _ | .thermRelease
  | .scoresheetCommit | .scrClear _ _ | .scratchpadScrub _ _ | .patrolScrub _ | .refresh _ _ | .memoryAccess _ _ _ _
  | .spareCopyDone _ _ | .regionOverwriteDone _ | .squarePromotion _ _ | .selftestPeriod _ | .selftestCycle
  | .selftestAbandon | .selftestRetry _ | .selfTestComplete _ | .vbusRise _ | .rstN | .startUpStep _ | .aliasKeyReady
  | .vbusLoss _ | .inputOv _ | .powerDie _ _ | .plane | .auxOverload | .auxFault | .remoteSenseFault _ | .regulatorFailure _
  | .refclkLoss | .perstN | .watchdog | .detectTimeout _ | .interruptResend _ | .requestTimeout _ | .epochHoldExpiry _
  | .functionLevelReset _ | .ptCreate _ _ | .ptRanges _ _ | .ptShares _ _ | .ptRegions _ _ | .ptPeers _ _ | .ptActivate _ _
  | .ptTeardown _ _ | .unlockPassword _ | .unlockNonce _ | .unlockResponse _ | .ephCreate _ _ | .keyUnwrap _ _
  | .keyDestroy _ _ | .report _ | .chain _ | .getVersion _ | .getCapabilities _ | .negotiateAlgorithms _ | .getDigests _
  | .getCertificate _ | .challenge _ | .getMeasurements _ | .keyExchange _ | .finish _ | .keyUpdate _ | .spdmHeartbeat _
  | .endSession _ | .setEndpointId _ | .mctp _ | .mboxSendArb _ _ | .arbUpdStage _ _ | .requestUpdate _ | .imageVerifyDone _
  | .flashWriteDone | .readbackDone _ | .deviceId _ | .placement _ | .powerCapEffecter _ | .planLo _ | .planHi _ | .commit _
  | .adjournNow _ | .hostConfirm _ | .restore _ | .heartbeatSend | .heartbeatMissed _ | .memberDeclaredFailed _
  | .captainSuccession | .adjournInterval _ | .saveStart _ | .arbiterBoot | .pcieLinkUp _ _ | .pcieDown | .sriovVfEnable _
  | .pawnInstruction _ _ | .rstNAsserted | .auxRetry _ | .copyOutComplete | .reqDone => true

end Sys2Proof
end

