-- ==== Sys2Proof/Safety.lean ====
section
/-!
DEFINITION. What a safe state and a safe step are, in the words the claims use.
-/

namespace Sys2Proof.Machine

open Sys2Proof

/-- Every waiting command is well-formed. -/
def State.queueOk (s : State) : Bool := s.pending.all Instr.wf

/-- The commands of pins and the power input, which act on a device without power or held in reset (R565, R570). -/
def isPin : Instr → Bool
  | .vbusRise _ | .vbusLoss _ | .inputOv _ | .rstN | .rstNAsserted => true
  | _ => false

/-- The register space lists each register once, in order, and none at its reset value. -/
def State.regsOk (s : State) : Bool := s.drs.regs.wf regDefault

/-- Device memory and the scratchpads list each byte once, in order, and none that an unlisted byte reads as. -/
def State.memOk (s : State) : Bool := s.mem.cells.wf memDefault && s.squares.spad.wf spadDefault

/-- The registers that raising an interrupt may change, by bank × 2^24 + DRS offset: `HBR_INT_FWD` of a bank (R439),
`RTE_DROP`, `RTE_LAST_DROP` and the router's `INT_STATUS` where the INTERRUPT packet has no way out (R443), and the count of
flits that a link has sent (R441). -/
def interruptReg (k : Nat) : Bool :=
  let pn := k % 2 ^ 24 / 4096
  let off := k % 4096
  (decide (pn = pgHbr) && decide (off = R.HBR_INT_FWD))
  || (decide (k / 2 ^ 24 = 0)
    && ((decide (pn = pgRte) && (decide (off = R.RTE_DROP) || decide (off = R.RTE_LAST_DROP) || decide (off = hIntStatus)))
      || (decide (blockAt pn = .lnk) && (decide (off = R.LNK_TX_LO) || decide (off = R.LNK_TX_LO + 4)))))

/-- `t` is `s` with the interrupts that a command has made to rise sent on their way (R87, R88, R439, R445): all else is as in
`s`. Of a link only the flits it sends differ, and what the device has sent before stands. -/
structure Raised (s t : State) : Prop where
  same : t = { s with
    out := t.out
    drs := { s.drs with regs := t.drs.regs }
    fab := { s.fab with links := t.fab.links, heldOut := t.fab.heldOut, intWait := t.fab.intWait, intSent := t.fab.intSent,
                        intAt := t.fab.intAt, msix := t.fab.msix } }
  regs : ∀ k, interruptReg k = false → t.drs.regs.get regDefault k = s.drs.regs.get regDefault k
  links : ∀ n, ∃ seq rep cnt hs, t.link n = { s.link n with txSeq := seq, replay := rep, txFlits := cnt, waiting := hs }
  outs : ∃ l, t.out = s.out ++ l

/-- A block-specific register whose write has no behaviour of its own: every one but those that start something, name something
else, are held to a bound, or are half of a route entry or of a fault-counting set. -/
def plainReg (off : Nat) : Bool :=
  let o := off % 4096
  !isHeader o && (errSetAt off).isNone && !isPairWritable off && !(decide (4 ≤ off) && isPairWritable (off - 4)) &&
  (match blockAt (off / 4096) with
    | .dev => o ≠ R.DEV_ID && o ≠ R.DEV_RESET
    | .arb => o ≠ R.ARB_MBOX_CTRL && o ≠ R.ARB_UPD_STAGE
    | .rot => decide (o ≠ R.ROT_REQ_OP)
    | .rotT => o ≠ R.ROT_T_OP && o ≠ R.ROT_T_OFFSET
    | .pwr => o ≠ R.PWR_CAP_REQ && o ≠ R.PWR_POLICY
    | .scr => o ≠ R.SCR_CURSOR && o ≠ R.SCR_CLEAR
    | .mxe => decide (o ≠ R.MXE_CHECK)
    | .spd => decide (o < 0x80) || decide (0xC0 ≤ o)
    | .pwn => o ≠ R.PWN_MBOX_IN && o ≠ R.PWN_MBOX_OUT
    | .mem => decide (o ≠ R.MEM_SCRUB)
    | .upd => decide (o ≠ R.UPD_HOST_DONE)
    | .sch => [R.SCH_CTX_SEL, R.SCH_TC_SEL, R.SCH_TALLY_SEL, R.SCH_CTX_OP, R.SCH_TC_COMMIT, R.SCH_TALLY_VAL, R.SCH_TALLY_ADD,
        R.SCH_DOORBELL].all (o ≠ ·) && !(decide (R.SCH_CTX_DATA ≤ o) && decide (o < R.SCH_TC_SEL))
    | .col => [R.COL_GRP_SEL, R.COL_GRP_COMMIT, R.COL_JOIN_TIMEOUT].all (o ≠ ·)
    | .rte => decide (o < R.RTE_EPOCH) && decide (o ≠ R.RTE_TIMEOUT)
    | .hbr => decide (o ≠ R.HBR_ROLE) && !(decide (R.HBR_WIN ≤ o) && decide (o < R.HBR_WIN + 64))
    | _ => true)

/-- A write of so many bits below a bound is ignored with CMD_IGNORED: the registers that are held to one (R344, R443, R470), each
with its field's highest bit and the bound. -/
def boundOf (off : Nat) : Option (Nat × Nat) :=
  let o := off % 4096
  match blockAt (off / 4096) with
  | .mem => if o = R.MEM_SCRUB then some (15, 1) else none
  | .rte => if o = R.RTE_TIMEOUT then some (23, 10) else none
  | .col => if o = R.COL_JOIN_TIMEOUT then some (23, 1000) else none
  | _ => none

/-- The key of the bit that tells whether a page's unit has gated itself (R145). -/
def gateKey (pn : Nat) : Option Nat :=
  match sqOfPage pn, gateOf pn with
  | some q, some b => some (16 * q + b)
  | _, _ => none

/-- `t` is `s` with page `pn` standing at `x`; where its STATE changed, STATE_CHANGE is set on the pages that show it (R65, R346) and
its unit is no longer gated by itself (R145); and the interrupts that have risen are sent. Every other page, register and piece
of state is as in `s`. -/
structure PageSet (s t : State) (pn : Nat) (x : Page) : Prop where
  page : t.page pn = x
  pages : ∀ j, j ≠ pn → t.page j = s.page j
  changed : (s.page pn).st ≠ x.st → ∀ j ∈ shownBy pn, ∀ p, (t.regB (intBank p j) j hIntStatus).getLsbD 0 = true
  regs : ∀ k, interruptReg k = false → (∀ j ∈ shownBy pn, k % 2 ^ 24 ≠ 4096 * j + hIntStatus) →
    t.drs.regs.get regDefault k = s.drs.regs.get regDefault k
  errs : t.drs.errs = s.drs.errs
  gates : ∀ k, t.squares.selfGated.get (fun _ => false) k =
    if (s.page pn).st ≠ x.st ∧ gateKey pn = some k then false else s.squares.selfGated.get (fun _ => false) k
  same : t = { s with
    out := t.out
    squares := { s.squares with selfGated := t.squares.selfGated }
    drs := { s.drs with regs := t.drs.regs, pages := t.drs.pages }
    fab := { s.fab with links := t.fab.links, heldOut := t.fab.heldOut, intWait := t.fab.intWait, intSent := t.fab.intSent,
                        intAt := t.fab.intAt, msix := t.fab.msix } }

/-- The request that a command makes of the root of trust: who makes it, the key slot of a tenant's request, its code, and the
partition it names (R474, R500). -/
def rotRequest : Instr → Option (Req × Option Nat × Nat × Fin 16)
  | .ptCreate r p => some (r, none, 1, p)
  | .ptRanges r p => some (r, none, 2, p)
  | .ptShares r p => some (r, none, 3, p)
  | .ptRegions r p => some (r, none, 4, p)
  | .ptPeers r p => some (r, none, 5, p)
  | .ptActivate r p => some (r, none, 6, p)
  | .ptTeardown r p => some (r, none, 7, p)
  | .unlockPassword r => some (r, none, 8, 0)
  | .unlockNonce r => some (r, none, 9, 0)
  | .unlockResponse r => some (r, none, 10, 0)
  | .ephCreate r slot => some (r, some slot.toNat, 1, 0)
  | .keyUnwrap r slot => some (r, some slot.toNat, 2, 0)
  | .keyDestroy r slot => some (r, some slot.toNat, 3, 0)
  | .report r => some (r, some 0, 4, 0)
  | .chain r => some (r, some 0, 5, 0)
  | _ => none

/-- Whether a DRS offset is a selector's (R400, R470). -/
def isSelector (off : Nat) : Bool :=
  [4096 * pgSch + R.SCH_CTX_SEL, 4096 * pgSch + R.SCH_TC_SEL, 4096 * pgSch + R.SCH_TALLY_SEL, 4096 * pgCol + R.COL_GRP_SEL].contains off

/-- The register that a command writes, and for whom: the requester, the page, the offset, and whether partition 0 alone writes
it (R63). Of REGISTER_WRITE, an aligned access; none for the commands that write no single register. -/
def writesRegister : Instr → Option (Req × Nat × Nat × Bool)
  | .registerWrite r off _ =>
    if off.toNat % 4 = 0 then
      some (r, off.toNat / 4096, off.toNat % 4096, regRwo off.toNat || decide (off.toNat % 4096 = hOwner)) else none
  | .pageOwner r pn _ => some (r, pn.toNat, hOwner, true)
  | .enable r pn _ | .softReset r pn _ => some (r, pn.toNat, hCtrl, false)
  | .intStatusClear r pn _ => some (r, pn.toNat, hIntStatus, false)
  | .intEnable r pn _ => some (r, pn.toNat, hIntEnable, false)
  | .intForce r pn _ => some (r, pn.toNat, hIntForce, false)
  | .devId r _ => some (r, pgDev, R.DEV_ID, true)
  | .spdSwzWrite r q n cfg _ => some (r, pgSpd q.val, (if cfg then R.SPD_SWZ_CFG else R.SPD_SWZ_BASE) + 8 * n.val, false)
  | .tolExp r q u _ => some (r, pgMxe q.val u.val, R.MXE_CHECK, true)
  | .pwnMboxIn r q k _ => some (r, pgPwn q.val k.val, R.PWN_MBOX_IN, false)
  | .rteEpoch r g _ => some (r, pgRte, R.RTE_EPOCH + 4 * g.toNat, true)
  | .hbrWin r n _ => some (r, pgHbr, R.HBR_WIN + 4 * n.val, false)
  | .takeover r _ => some (r, pgHbr, R.HBR_ROLE, true)
  | .schCtxData r n _ => some (r, pgSch, R.SCH_CTX_DATA + 4 * n.val, false)
  | .schTcCommit r _ => some (r, pgSch, R.SCH_TC_COMMIT, false)
  | .schDoorbell r _ => some (r, pgSch, R.SCH_DOORBELL, false)
  | .schTallyVal r _ => some (r, pgSch, R.SCH_TALLY_VAL, false)
  | .schTallyAdd r _ => some (r, pgSch, R.SCH_TALLY_ADD, false)
  | .colGrpCommit r _ => some (r, pgCol, R.COL_GRP_COMMIT, false)
  | .pwrCapReq r _ => some (r, pgPwr, R.PWR_CAP_REQ, false)
  | .pwrPolicy r _ => some (r, pgPwr, R.PWR_POLICY, false)
  | .scrClear r _ => some (r, pgScr, R.SCR_CLEAR, true)
  | .mboxSendArb r _ => some (r, pgArb, R.ARB_MBOX_CTRL, false)
  | .arbUpdStage r _ => some (r, pgArb, R.ARB_UPD_STAGE, false)
  | .engineReset r _ | .warmReset r _ | .coldReset r _ => some (r, pgDev, R.DEV_RESET, true)
  | .start r | .stop r | .reset r => some (r, pgSch, R.SCH_CTX_OP, false)
  | .selectorWrite r off _ => if isSelector off.toNat then some (r, off.toNat / 4096, off.toNat % 4096, false) else none
  | c => (rotRequest c).map (fun (r, slot, _) =>
      if slot.isSome then (r, pgRotT, R.ROT_T_OP, false) else (r, pgRot, R.ROT_REQ_OP, false))

/-- What such a command writes. -/
def writtenValue : Instr → Option Word
  | .registerWrite _ _ v | .pageOwner _ _ v | .enable _ _ v | .intStatusClear _ _ v | .intEnable _ _ v | .intForce _ _ v | .devId _ v
  | .spdSwzWrite _ _ _ _ v | .tolExp _ _ _ v | .pwnMboxIn _ _ _ v | .rteEpoch _ _ v | .hbrWin _ _ v | .takeover _ v
  | .schCtxData _ _ v | .schTcCommit _ v | .schDoorbell _ v | .schTallyVal _ v | .schTallyAdd _ v | .colGrpCommit _ v | .pwrCapReq _ v
  | .pwrPolicy _ v | .scrClear _ v | .mboxSendArb _ v | .arbUpdStage _ v => some v
  | .engineReset _ v | .warmReset _ v | .coldReset _ v | .selectorWrite _ _ v => some v
  | .softReset _ _ v => some (v ||| 4)
  | .start _ => some 1
  | .stop _ => some 2
  | .reset _ => some 3
  | c => (rotRequest c).map (fun (_, slot, op, p) => word ((slot.getD p.val) * 256 + op))

/-- The engine, opcode and meaning of each vector instruction that has operands (R196). -/
def vectorRow : Instr → Option (Fin 64 × Fin 2 × Nat × VOp)
  | .vAdd q u => some (q, u, 0x10, (elemOp addPre))
  | .vSub q u => some (q, u, 0x11, (elemOp subPre))
  | .vMul q u => some (q, u, 0x12, (elemOp mulPre))
  | .vFma q u => some (q, u, 0x13, (elemOp fmaPre))
  | .vFms q u => some (q, u, 0x14, (elemOp fmsPre))
  | .vFnma q u => some (q, u, 0x15, (elemOp fnmaPre))
  | .vMin q u => some (q, u, 0x16, (elemOp minPre))
  | .vMax q u => some (q, u, 0x17, (elemOp maxPre))
  | .vAbs q u => some (q, u, 0x18, (elemOp absPre))
  | .vNeg q u => some (q, u, 0x19, (elemOp negPre))
  | .vClamp q u => some (q, u, 0x1A, (elemOp clampPre))
  | .vCopysign q u => some (q, u, 0x1B, (elemOp copysignPre))
  | .vRoundi q u => some (q, u, 0x1C, (elemOp roundiPre))
  | .vCvt q u => some (q, u, 0x1D, (elemOp cvtPre))
  | .vSel q u => some (q, u, 0x1E, (elemOp selPre))
  | .vCmp q u => some (q, u, 0x20, (elemOp cmpPre))
  | .vAnd q u => some (q, u, 0x28, (elemOp (bitPre (fun a b => a && b))))
  | .vOr q u => some (q, u, 0x29, (elemOp (bitPre (fun a b => a || b))))
  | .vXor q u => some (q, u, 0x2A, (elemOp (bitPre (fun a b => a != b))))
  | .vAndn q u => some (q, u, 0x2B, (elemOp (bitPre (fun a b => a && !b))))
  | .vIadd q u => some (q, u, 0x30, (elemOp (arithPre (fun a b => a + b))))
  | .vIsub q u => some (q, u, 0x31, (elemOp (arithPre (fun a b => a - b))))
  | .vImul q u => some (q, u, 0x32, (elemOp (arithPre (fun a b => a * b))))
  | .vShl q u => some (q, u, 0x33, (elemOp shlPre))
  | .vShr q u => some (q, u, 0x34, (elemOp shrPre))
  | .vShrl q u => some (q, u, 0x35, (elemOp shrlPre))
  | .vIand q u => some (q, u, 0x36, (elemOp (bitwisePre (fun a b => a &&& b))))
  | .vIor q u => some (q, u, 0x37, (elemOp (bitwisePre (fun a b => a ||| b))))
  | .vIxor q u => some (q, u, 0x38, (elemOp (bitwisePre (fun a b => a ^^^ b))))
  | .vImin q u => some (q, u, 0x39, (elemOp (pickPre min)))
  | .vImax q u => some (q, u, 0x3A, (elemOp (pickPre max)))
  | .vFunc q u => some (q, u, 0x40, (funcOp q.val u.val funcPre))
  | .vFuncMul q u => some (q, u, 0x41, (funcOp q.val u.val funcMulPre))
  | .vFuncFma q u => some (q, u, 0x42, (funcOp q.val u.val funcFmaPre))
  | .vRsum q u => some (q, u, 0x60, (rowOp (reduceRow (fun v => v) wadd Val.zero)))
  | .vRmax q u => some (q, u, 0x61, (rowOp (reduceRow (fun v => v) Val.max (.inf true))))
  | .vRmin q u => some (q, u, 0x62, (rowOp (reduceRow (fun v => v) Val.min (.inf false))))
  | .vRsumsq q u => some (q, u, 0x63, (rowOp (reduceRow (fun v => wmul v v) wadd Val.zero)))
  | .vRargmax q u => some (q, u, 0x64, (rowOp argmaxRow))
  | .vMoments q u => some (q, u, 0x65, (rowOp momentsRow))
  | .vNorm q u => some (q, u, 0x66, (rowOp normRow))
  | .vRmsnorm q u => some (q, u, 0x67, (rowOp rmsRow))
  | .vSoftmax q u => some (q, u, 0x68, (rowOp softmaxRow))
  | .vLse q u => some (q, u, 0x69, (rowOp lseRow))
  | .vRstat q u => some (q, u, 0x6A, (rowOp rstatRow))
  | .vRstatMerge q u => some (q, u, 0x6B, rstatMergeOp)
  | .vScan q u => some (q, u, 0x70, scanOp)
  | .vScanld q u => some (q, u, 0x71, scanLdOp)
  | .vScanst q u => some (q, u, 0x72, scanStOp)
  | _ => none

/-- The code and the bytes of an SPDM request (R487). -/
def spdmRequest : Instr → Option (Nat × List Byte)
  | .getVersion bs => some (0x84, bs)
  | .getCapabilities bs => some (0xE1, bs)
  | .negotiateAlgorithms bs => some (0xE3, bs)
  | .getDigests bs => some (0x81, bs)
  | .getCertificate bs => some (0x82, bs)
  | .challenge bs => some (0x83, bs)
  | .getMeasurements bs => some (0xE0, bs)
  | .keyExchange bs => some (0xE4, bs)
  | .finish bs => some (0xE5, bs)
  | .keyUpdate bs => some (0xE9, bs)
  | .spdmHeartbeat bs => some (0xE8, bs)
  | .endSession bs => some (0xEC, bs)
  | _ => none

/-- A MGMT packet of a kind for this device, a REPORT of its own kind (R544). -/
def State.isMgmt (s : State) (q : Packet) (kind : Nat) (rep : Option Nat) : Prop :=
  q.type = ptMgmt ∧ q.dst = s.devId ∧ q.arg.toNat % 256 = kind ∧ ∀ n, rep = some n → payNum q 0 1 = n

/-- Command `c` completes at `s` with effect `e`: `exec` answers a next state, which is `e` (the queue as it was in `s`) with
the interrupts that have risen sent. -/
def Completes (c : Instr) (s e : State) : Prop := ∃ t, exec c s = .next t ∧ Raised { e with pending := s.pending } t

/-- Command `c` completes at `s`: `exec` answers a next state, and it satisfies `P`. -/
def CompletesIn (c : Instr) (s : State) (P : State → Prop) : Prop := ∃ t, exec c s = .next t ∧ P t

/-- The step goes on: neither a fault nor a refusal. -/
def goesOn (o : Host.Outcome State Fault Refusal) : Bool :=
  match o with
  | .next _ => true
  | _ => false

end Sys2Proof.Machine
end

