-- ==== Sys2Proof/Certificates/Slice0/Obligations.lean ====
section
/-!
DEFINITION. What is to be proved of the model, by family of commands.

Most statements read: the command answers a next state `t`, and `t` is the state written out in the statement with the
interrupts that have risen sent on their way (`Raised`). What the written state does not change, `t` does not change either.
-/

open Sys2Proof Sys2Proof.Machine

/-! ### The step, and what every command does -/

/-- A step runs the command at the front of the queue on the state with the queue's rest; with no command waiting, local time
alone moves on (assumption 7). -/
def Obligations.StepRunsTheFrontCommand : Prop :=
  (∀ (c : Instr) (s : State), step { s with pending := c :: s.pending } = exec c s)
  ∧ ∀ s : State, s.pending = [] → step s = .next s.tick

/-- After reset no command waits, every page is OFF with ENABLE 0, DRAIN 1 and LOCK 0 (R65), every register but `PWR_CAP`
holds the reset value of its table in every bank, and the stores are in canonical form. -/
def Obligations.ResetState : Prop :=
  State.reset.pending = [] ∧ State.reset.queueOk = true ∧ State.reset.regsOk = true ∧ State.reset.memOk = true
  ∧ (∀ pn : Nat, State.reset.page pn = ⟨.off, false, true, false, false, false, 0⟩)
  ∧ ∀ (p : Fin 16) (pn off : Nat), 2 ^ 24 * p.val + (4096 * pn + off) ≠ 4096 * pgPwr + R.PWR_CAP →
      State.reset.regB p pn off = regDefault (2 ^ 24 * p.val + (4096 * pn + off))

/-- The queue is first in, first out: every step that goes on takes its front command and no other, adds none and reorders
none, so that well-formed commands stay waiting as they were. -/
def Obligations.EveryStepTakesOneCommand : Prop :=
  ∀ s t : State, step s = .next t → t.pending = s.pending.tail ∧ (s.queueOk = true → t.queueOk = true)

/-- On a device without power or held in reset every command but those of the pins and the power input leaves the whole state
as it was. That such a device is silent is the model's reading of R565 and R570 (assumption 2). -/
def Obligations.DeadDeviceKeepsItsState : Prop :=
  ∀ (c : Instr) (s : State), s.alive = false → isPin c = false → exec c s = .next s

/-- No command is refused, and none stops the machine but a move of VBUS above 80 V, beyond which R597 promises nothing:
every other command answers a next state, with the queue as it was. -/
def Obligations.OnlyOverVoltageStops : Prop :=
  (∀ (v : Nat) (s : State), 8000 < v →
    ∀ c ∈ [Instr.vbusRise v, .vbusLoss v, .inputOv v], exec c s = .fault .aboveAbsoluteMaximum)
  ∧ ∀ (c : Instr) (s : State), (∀ v, 8000 < v → c ≠ .vbusRise v ∧ c ≠ .vbusLoss v ∧ c ≠ .inputOv v) →
      ∃ t, exec c s = .next t ∧ t.pending = s.pending

/-! ### Registers -/

/-- REGISTER_WRITE by a requester that reaches the register (R63, R65): a register whose write has no behaviour of its own changes
alone: RW and RWO fields take the written bits, W1C fields clear where 1 is written, the rest stay. A write of another command's
register (`writesRegister`), by any requester, is that command. A register held to a bound takes the value at or above it, and a
smaller one is ignored with CMD_IGNORED (assumption 145). The scoresheet's cursor is the requester's own (R516), and a
fault-counting set's window and limit are written as R77 says. Held requests that the write admits then go on (R430). -/
def Obligations.RegisterWriteTakesTheWritableBits : Prop :=
  ∀ (r : Req) (off : BitVec 24) (v : Word) (s : State), s.alive = true → off.toNat % 4 = 0 → s.present (off.toNat / 4096) = true →
    let pn := off.toNat / 4096
    let o := off.toNat % 4096
    let b := regBank (s.reqPart r) pn o
    let c := Instr.registerWrite r off v
    let plain (fs : List Field) :=
      let rw := word (fieldsMask (fun a => a = .rw || a = .rwo) fs)
      let w1c := word (fieldsMask (fun a => a = .w1c) fs)
      Completes c s (s.setRegB b pn o (((s.regB b pn o &&& ~~~rw) ||| (v &&& rw)) &&& ~~~(v &&& w1c))).releaseEpochs
    (s.mayWrite r pn o (regRwo off.toNat) = true →
      (∀ fs, plainReg off.toNat = true → regFields (blockAt pn) o = some fs → plain fs)
      ∧ (∀ fs hi least, boundOf off.toNat = some (hi, least) → regFields (blockAt pn) o = some fs →
          (least ≤ wbits v hi 0 → plain fs)
          ∧ (wbits v hi 0 < least → Completes c s (s.cmdIgnored (s.reqPart r) pn).releaseEpochs))
      ∧ (∀ n, pn = pgScr → o = R.SCR_CURSOR → reqNo r = some n → Completes c s
          ({ s with drs := { s.drs with cursors := s.drs.cursors.set (fun _ => 0) n (wbits v 12 0) } } : State).releaseEpochs)
      ∧ (∀ base, errSetAt off.toNat = some base →
          (off.toNat = base + 4 → Completes c s (s.setErrWindow (s.reqPart r) base v).releaseEpochs)
          ∧ (off.toNat = base + 8 → Completes c s (s.setErrThreshold base v).releaseEpochs)))
    ∧ ∀ d rwo, writesRegister d = some (r, pn, o, rwo) → writtenValue d = some v →
        (s.fab.epochHeld = [] ∨ ∃ g w, d = .rteEpoch r g w) → exec c s = exec d s

/-- Every register write that R63 ignores changes nothing but the scoresheet, where it is counted against the requesting
partition (kind 0x0010, subject DRS offset [23:12], value 1); no interrupt follows (R64). One of a device over a link that the peer
list does not admit (R61) is counted as a denied access instead (kind 0x0011, subject its device ID; R428). -/
def Obligations.IgnoredWritesAreCounted : Prop :=
  ∀ (c : Instr) (r : Req) (pn off : Nat) (rwo : Bool) (s : State), s.alive = true → s.fab.epochHeld = [] →
    writesRegister c = some (r, pn, off, rwo) →
    (s.admitted r = true → s.present pn = true → s.mayWrite r pn off rwo = false →
      exec c s = .next { s with score := { s.score with buffer :=
        s.score.buffer ++ [⟨0x10, s.reqPart r, bitsOf (pn * 4096 + off) 23 12, 1, s.now⟩] } })
    ∧ ∀ d p, r = .remote d p → s.admitted r = false →
      exec c s = .next { s with score := { s.score with buffer := s.score.buffer ++ [⟨0x11, p, d.toNat, 1, s.now⟩] } }

/-- BAD_ACCESS: an access that is no aligned 32-bit one, nor a remote device's aligned 8-byte one, sets BAD_ACCESS in the
requester's bank of the DEV page and changes nothing else; a read answers 0 (R60). -/
def Obligations.BadAccessIsFlaggedAndReadsZero : Prop :=
  ∀ (r : Req) (off : BitVec 24) (size : Nat) (write : Bool) (s : State), s.alive = true → s.admitted r = true →
    ¬ (size = 4 ∧ off.toNat % 4 = 0) → ¬ ((∃ d p, r = .remote d p) ∧ size = 8 ∧ off.toNat % 8 = 0) →
    ∃ t, exec (.badAccess r off size write) s = .next t ∧
      Raised { s.setRegB (s.reqPart r) pgDev hIntStatus (s.regB (s.reqPart r) pgDev hIntStatus ||| 0x10) with
        resp := if write then s.resp else some 0 } t

/-- PAIR_LOW_READ by a local requester answers the low word and latches the high word of the pair for that requester alone;
a read of the high word of the pair that its latch holds answers the latched word, and of another pair the live word (R78). -/
def Obligations.PairReadsLatchTheHighWord : Prop :=
  (∀ (r : Req) (n : Nat) (off : BitVec 24) (s : State), s.alive = true → reqNo r = some n → off.toNat % 4 = 0 →
    pairLow off.toNat = true → s.mayRead r (off.toNat / 4096) (off.toNat % 4096) (regRwo off.toNat) = true →
    ∃ t, exec (.pairLowRead r off) s = .next t ∧
      Raised { s with
        drs := { s.drs with latches := s.drs.latches.set noLatch n (some ⟨off.toNat, s.peek r (off.toNat + 4)⟩) }
        resp := some ((s.peek r off.toNat).setWidth 64) } t)
  ∧ ∀ (r : Req) (n off : Nat) (s : State), reqNo r = some n → off % 4 = 0 → pairLow off = false → pairHigh off = true →
      s.mayRead r (off / 4096) (off % 4096) (regRwo off) = true →
      (s.drsRead r off).2 = s ∧
      (s.drsRead r off).1 = (match s.drs.latches.get noLatch n with
        | some l => if l.pair + 4 = off then l.value else s.peek r off
        | none => s.peek r off)

/-- PAIR_LOW_WRITE, PAIR_HIGH_WRITE on a writable 64-bit register (a route entry, R443): the low word is held for its
requester and changes nothing else; the high word commits both together, with a low word of 0 where none is held (R79), where
R444 admits the entry. -/
def Obligations.PairWritesCommitTogether : Prop :=
  ∀ (r : Req) (n : Nat) (off : BitVec 24) (v : Word) (s : State), s.alive = true → reqNo r = some n →
    isPairWritable off.toNat = true → s.reqPart r = 0 →
    (∃ t, exec (.pairLowWrite r off v) s = .next t ∧
      Raised { s with drs := { s.drs with holds := s.drs.holds.set noLatch n (some ⟨off.toNat, v⟩) } } t)
    ∧ ∀ low : Word, s.drs.holds.get noLatch n = some ⟨off.toNat, low⟩
        ∨ (low = 0 ∧ ∀ l, s.drs.holds.get noLatch n = some l → l.pair ≠ off.toNat) →
      s.routeOk (low.toNat + v.toNat * 2 ^ 32) = true →
      ∃ t, exec (.pairHighWrite r (off + 4) v) s = .next t ∧
        Raised (({ s with drs := { s.drs with holds := s.drs.holds.set noLatch n none } }.setReg pgRte (off.toNat % 4096)
          low).setReg pgRte (off.toNat % 4096 + 4) (v &&& 0x1FFFFFFF)) t

/-- REMOTE_PAIR_ACCESS by a device that the peer list admits (R61, R80): an 8-byte read of a pair answers both words as they stand,
an 8-byte write of a route entry commits it whole where R444 admits it, and neither uses a latch; a 4-byte read answers its word and
latches nothing; a 4-byte write to either word of a writable pair is ignored with BAD_ACCESS; an 8-byte access that covers no pair
is two 32-bit accesses, low address first. An access that is not aligned, or of another size, is ignored or reads 0 with BAD_ACCESS
(R60). A device that is not admitted has its denial counted, and reads 0. -/
def Obligations.RemotePairAccessIsWhole : Prop :=
  ∀ (dev : BitVec 16) (part : Fin 16) (off : BitVec 24) (s : State), s.alive = true →
    let r := Req.remote dev part
    let o := off.toNat
    let c (size : Nat) (w : Option DWord) := Instr.remotePairAccess dev part off size w
    let tells (t : State) (v : DWord) : State := { t with resp := some v }
    let bad := s.setRegB part pgDev hIntStatus (s.regB part pgDev hIntStatus ||| 0x10)
    (s.admitted r = false → ∀ size,
      Completes (c size none) s (tells (s.countDenied part dev.toNat) 0)
        ∧ ∀ v, Completes (c size (some v)) s (s.countDenied part dev.toNat))
    ∧ (s.admitted r = true →
      (∀ size, ¬ (size = 4 ∧ o % 4 = 0) → ¬ (size = 8 ∧ o % 8 = 0) →
        Completes (c size none) s (tells bad 0) ∧ ∀ v, Completes (c size (some v)) s bad)
      ∧ (o % 8 = 0 → pairLow o = true → Completes (c 8 none) s (tells s (s.peek r (o + 4) ++ s.peek r o)))
      ∧ (o % 4 = 0 → blockAt (o / 4096) ≠ .scr → Completes (c 4 none) s (tells s ((s.peek r o).setWidth 64)))
      ∧ (∀ v : DWord, isPairWritable o = true →
        (part = 0 → s.routeOk v.toNat = true → Completes (c 8 (some v)) s
          ((s.setReg pgRte (o % 4096) (word v.toNat)).setReg pgRte (o % 4096 + 4) (word (v.toNat / 2 ^ 32 % 2 ^ 29))))
        ∧ (part = 0 → s.routeOk v.toNat = false → Completes (c 8 (some v)) s (s.cmdIgnored 0 pgRte))
        ∧ (part ≠ 0 → Completes (c 8 (some v)) s (s.countIgnored part o))
        ∧ (part = 0 → Completes (c 4 (some v)) s bad
          ∧ Completes (.remotePairAccess dev part (off + 4) 4 (some v)) s bad))
      ∧ (∀ v : DWord, o % 8 = 0 → isPairWritable o = false → Completes (c 8 (some v)) s
        ((s.drsWrite r o (v.setWidth 32)).drsWrite r (o + 4) (word (v.toNat / 2 ^ 32))))
      ∧ ∀ lo s1 hi s2, o % 8 = 0 → pairLow o = false → s.drsRead r o = (lo, s1) → s1.drsRead r (o + 4) = (hi, s2) →
        Completes (c 8 none) s (tells s2 (hi ++ lo)))
/-! ### Pages -/

/-- PAGE_OWNER on a square's SQ page, by partition 0 (R67, R476): a write with the present owner changes LOCK alone; another owner
is accepted when LOCK was 0, every page of the square is OFF or RETIRED, the partition named may hold squares and no ACTIVE tenant
loses its last one, and then OWNER and LOCK change together and ZEROING is set on all thirteen pages; every other write is ignored
with CMD_IGNORED and changes nothing else. On any other page OWNER is read-only, and LOCK alone is written. -/
def Obligations.PageOwnerIsJudgedByTheOldLock : Prop :=
  ∀ (r : Req) (pn : BitVec 12) (v : Word) (s : State), s.alive = true → s.admitted r = true → s.reqPart r = 0 →
    (s.present pn.toNat = true → blockAt pn.toNat ≠ .sq → Completes (.pageOwner r pn v) s
      (s.setPage pn.toNat { s.page pn.toNat with lock := v.getLsbD 8 }))
    ∧ ∀ q : Fin 64, pn.toNat = pgSq q.val 0 →
    let p := Fin.ofNat 16 (wbits v 3 0)
    let still := ∀ x ∈ sqPages q.val, (s.page x).st = .off ∨ (s.page x).st = .retired
    let taker := p = 0 ∨ (s.part p).st = .configuring ∨ (s.part p).st = .active
    let loser := s.sqOwner q.val = 0 ∨ (s.part (s.sqOwner q.val)).st ≠ .active ∨ 1 < (s.squaresOf (s.sqOwner q.val)).length
    let allowed := (s.page (pgSq q.val 0)).lock = false ∧ still ∧ taker ∧ loser
    (p = s.sqOwner q.val → ∃ t, exec (.pageOwner r pn v) s = .next t ∧
      Raised (s.setPage (pgSq q.val 0) { s.page (pgSq q.val 0) with lock := v.getLsbD 8 }) t)
    ∧ (p ≠ s.sqOwner q.val → allowed → ∃ t, exec (.pageOwner r pn v) s = .next t ∧ t.sqOwner q.val = p
        ∧ (t.page (pgSq q.val 0)).lock = v.getLsbD 8 ∧ ∀ x ∈ sqPages q.val, (t.page x).zeroing = true)
    ∧ (p ≠ s.sqOwner q.val → ¬ allowed → ∃ t, exec (.pageOwner r pn v) s = .next t ∧
        Raised (s.setRegB 0 (pgSq q.val 0) hIntStatus (s.regB 0 (pgSq q.val 0) hIntStatus ||| 8)) t)

/-- ZEROING_DONE clears ZEROING on the square's thirteen pages; with no enable pending on them, nothing else (R67). An enable of
the SQ page that waited for it takes the page to STARTING, and ENABLE_PENDING is cleared (R70). -/
def Obligations.ZeroingDoneClearsZeroing : Prop :=
  ∀ (q : Fin 64) (s : State), s.alive = true → (s.page (pgSq q.val 0)).zeroing = true →
    ((∀ x ∈ sqPages q.val, (s.page x).pendingEn = false) → ∃ t, exec (.zeroingDone q) s = .next t
      ∧ (∀ pn, t.page pn = if pn ∈ sqPages q.val then { s.page pn with zeroing := false } else s.page pn)
      ∧ Raised { s with drs := { s.drs with pages := t.drs.pages } } t)
    ∧ ((s.page (pgSq q.val 0)).st = .off → (s.page (pgSq q.val 0)).pendingEn = true → ∃ t, exec (.zeroingDone q) s = .next t
      ∧ t.page (pgSq q.val 0) = { s.page (pgSq q.val 0) with zeroing := false, st := .starting, pendingEn := false })

/-- ENABLE (R70, R71): OFF goes to STARTING, or, held, waits with ENABLE_PENDING; STARTING and RUNNING stay; RUNNING with ENABLE 0
goes to DRAINING; DRAINING takes or drops ENABLE_PENDING; in FAULTED and RETIRED an ENABLE of 1 is ignored with CMD_IGNORED (R73),
an ENABLE of 0 taken. DRAIN and the block's own bits take what is written. Under DRAIN 1 nothing else changes but the rekey that a
link's bit asks for, a matrix engine's window, which closes, and a pawn, which halts. An SQ page's ENABLE of 0 disables every page
of the square (R145). The island's pages and a stack's channel pages ignore the write (R74, R346), and in the safe state every
page does (R583). -/
def Obligations.EnableMovesThePage : Prop :=
  ∀ (r : Req) (pn : BitVec 12) (v : Word) (s : State), s.alive = true → s.present pn.toNat = true →
    s.mayWrite r pn.toNat hCtrl false = true →
    let n := pn.toNat
    let b := blockAt n
    let pg := s.page n
    let c := Instr.enable r pn v
    (s.sys.devState = .safe ∨ alwaysOn b = true ∨ b = .mch → Completes c s s)
    ∧ (s.sys.devState ≠ .safe → alwaysOn b = false → b ≠ .mch → v.getLsbD 2 = false →
      let set (x : Page) : Page := { x with drain := v.getLsbD 1, ctl := v &&& ctlMask b }
      let go (x : Page) := if b = .lnk then CompletesIn c s (fun t => t.page n = set x) else ∃ t, exec c s = .next t ∧ PageSet s t n (set x)
      let drains := b ≠ .mxe ∧ b ≠ .pwn ∧ v.getLsbD 1 = true
      (v.getLsbD 0 = true → pg.st = .off → s.enableHeld n = false → go { pg with enable := true, st := .starting })
      ∧ (v.getLsbD 0 = true → pg.st = .off → s.enableHeld n = true → go { pg with enable := true, pendingEn := true })
      ∧ (v.getLsbD 0 = true → pg.st = .starting ∨ pg.st = .running → go { pg with enable := true })
      ∧ (v.getLsbD 0 = true → pg.st = .testing → go { pg with enable := true, pendingEn := true })
      ∧ (drains → v.getLsbD 0 = true → pg.st = .draining → go { pg with enable := true, pendingEn := true })
      ∧ (drains → b ≠ .sq → v.getLsbD 0 = false → pg.st = .starting ∨ pg.st = .running → go { pg with enable := false, st := .draining })
      ∧ (drains → b ≠ .sq → v.getLsbD 0 = false → pg.st ≠ .starting → pg.st ≠ .running → go { pg with enable := false, pendingEn := false })
      ∧ (b = .mxe → v.getLsbD 1 = true → v.getLsbD 0 = false → pg.st = .running → CompletesIn c s (fun t =>
          t.page n = set { pg with enable := false, st := .draining } ∧ (t.mxeEng (sqOf n) (n % 16 - 1)).window = []))
      ∧ (b = .pwn → v.getLsbD 1 = true → v.getLsbD 0 = false → pg.st = .running → s.pawnOpen (s.phys (sqOf n)) (n % 16 - 8) = false →
          CompletesIn c s (fun t => t.page n = set { pg with enable := false, st := .draining }
            ∧ (t.pawn (s.phys (sqOf n)) (n % 16 - 8)).halted = true))
      ∧ (b = .sq → v.getLsbD 0 = false → v.getLsbD 1 = true → (∀ x ∈ sqPages (sqOf n), (s.page x).drain = true) →
          CompletesIn c s (fun t => ∀ x ∈ sqPages (sqOf n), (t.page x).enable = false ∧ (t.page x).st =
            if (s.page x).st = .starting ∨ (s.page x).st = .running then .draining else (s.page x).st))
      ∧ (v.getLsbD 0 = true → pg.st = .faulted ∨ pg.st = .retired → Completes c s (s.cmdIgnored (s.reqPart r) n)))

/-- SOFT_RESET (R73): from OFF or FAULTED the page ends OFF with ENABLE 0, DRAIN 1 and its block-specific bits 0, and every
register of the page but its status stands at its reset value in every bank, a tenant's selectors at the first of its range (R400,
R470); in any other state the whole write is ignored with CMD_IGNORED. LOCK and ZEROING, which belong to the square's owner, stay.
Of an engine, a pawn and a link what it holds is at reset too; of every other block nothing else changes. -/
def Obligations.SoftResetReturnsThePageToReset : Prop :=
  ∀ (r : Req) (pn : BitVec 12) (v : Word) (s : State), s.alive = true → s.sys.devState ≠ .safe → s.present pn.toNat = true →
    alwaysOn (blockAt pn.toNat) = false → blockAt pn.toNat ≠ .mch → s.mayWrite r pn.toNat hCtrl false = true →
    let n := pn.toNat
    let b := blockAt n
    let pg := s.page n
    let selector (off : Nat) := (b = .sch ∧ off ∈ [R.SCH_CTX_SEL, R.SCH_TC_SEL, R.SCH_TALLY_SEL]) ∨ (b = .col ∧ off = R.COL_GRP_SEL)
    (pg.st = .off ∨ pg.st = .faulted → (b = .lnk → (s.link ((n - 0xC00) / 4)).st ≠ .up) → CompletesIn (.softReset r pn v) s (fun t =>
      t.page n = { Page.reset with lock := pg.lock, zeroing := pg.zeroing }
      ∧ (∀ j, j ≠ n → t.page j = s.page j)
      ∧ (∀ (p : Fin 16) (off : Nat), off < 4096 → off ≠ hIntStatus → ¬ selector off →
          interruptReg (2 ^ 24 * p.val + (4096 * n + off)) = false →
          t.regB p n off = regDefault (2 ^ 24 * p.val + (4096 * n + off)))
      ∧ (∀ p : Fin 16, p ≠ 0 → (b = .sch → t.regB p n R.SCH_CTX_SEL = word (s.part p).ctx.first ∧ t.regB p n R.SCH_TC_SEL =
          word (s.part p).tc.first ∧ t.regB p n R.SCH_TALLY_SEL = word (s.part p).tally.first)
        ∧ (b = .col → t.regB p n R.COL_GRP_SEL = word (s.part p).grp.first))
      ∧ (b = .mxe → t.mxeEng (sqOf n) (n % 16 - 1) = MxeEng.reset) ∧ (b = .vxe → t.vxeEng (sqOf n) (n % 16 - 3) = VxeEng.reset)
      ∧ (b = .pwn → t.pawn (s.phys (sqOf n)) (n % 16 - 8) = Pawn.reset) ∧ (b = .mov → ∀ c < 4, t.movChan (sqOf n) c = MovChan.reset)
      ∧ (b ∉ [Block.mxe, .vxe, .pwn, .mov, .lnk] → t = { s with drs := t.drs, fab := t.fab, out := t.out })))
    ∧ (pg.st ≠ .off → pg.st ≠ .faulted → Completes (.softReset r pn v) s (s.cmdIgnored (s.reqPart r) n))

/-- INITIALISATION_COMPLETE (R70): a STARTING page enters RUNNING, or, with ENABLE 0 and DRAIN 1, DRAINING; a square once its
monitor reads the floor guard (R95), and then the enables that waited for it go on. Work that was held for the page goes on as well,
and a pawn starts at `PWN_BOOT` (R147). -/
def Obligations.InitialisedPageRuns : Prop :=
  ∀ (pn : BitVec 12) (s : State), s.alive = true → s.present pn.toNat = true → (s.page pn.toNat).st = .starting →
    let n := pn.toNat
    let b := blockAt n
    let pg := s.page n
    let rate := wbits (s.reg pgPwr (R.PWR_SQ + 4 * s.phys (sqOf n))) 31 20
    let nothingHeld := match b with
      | .mem => s.mem.held = [] ∧ s.fab.heldIn = []
      | .mesh => s.fab.heldIn = []
      | .sch | .stx => s.sch.heldOps = []
      | .col => s.col.held = []
      | .rte => s.fab.heldOut = [] ∧ ∀ i, (s.link i).waiting = []
      | _ => True
    let runs (t : State) := t.page n = { pg with st := .running }
    (pg.enable = true → nothingHeld → b ∉ [Block.sq, .pwn, .sft, .lnk, .mch] → ∃ t, exec (.initialisationComplete pn) s = .next t ∧
      PageSet s t n { pg with st := .running })
    ∧ (pg.enable = true → b = .sq → 1520 ≤ rate → CompletesIn (.initialisationComplete pn) s (fun t => runs t
        ∧ ∀ x ∈ (sqPages (sqOf n)).drop 1, (s.page x).st = .off → (s.page x).pendingEn = true → (s.page x).zeroing = false →
          (t.page x).st = .starting ∧ (t.page x).pendingEn = false))
    ∧ (b = .sq → rate < 1520 → Completes (.initialisationComplete pn) s s)
    ∧ (pg.enable = true → b = .pwn → CompletesIn (.initialisationComplete pn) s (fun t => runs t
        ∧ (t.pawn (s.phys (sqOf n)) (n % 16 - 8)).pc = BitVec.ofNat 64 (pawnBase + wbits (s.reg n R.PWN_BOOT) 15 0)
        ∧ (t.pawn (s.phys (sqOf n)) (n % 16 - 8)).halted = false ∧ (t.pawn (s.phys (sqOf n)) (n % 16 - 8)).mode = .machine))
    ∧ (pg.enable = true → b = .sft → CompletesIn (.initialisationComplete pn) s runs)
    ∧ (pg.enable = false → pg.drain = true → b ∉ [Block.sq, .mxe, .pwn, .mem, .lnk, .mch] →
        ∃ t, exec (.initialisationComplete pn) s = .next t ∧
        PageSet s t n { pg with st := .draining })

/-- DRAIN_COMPLETE (R70): a DRAINING page with nothing left goes to STARTING when ENABLE_PENDING is 1, and clears it, else to OFF;
while something is left it stays as it is (R71). A link that drains is then DOWN, or stands in RETRAIN where it is to start again
(R442). -/
def Obligations.DrainedPageLeavesDraining : Prop :=
  ∀ (pn : BitVec 12) (s : State), s.alive = true → (s.page pn.toNat).st = .draining → (s.page pn.toNat).drain = true →
    let pg := s.page pn.toNat
    (blockAt pn.toNat ≠ .lnk → s.drained pn.toNat = true → ∃ t, exec (.drainComplete pn) s = .next t ∧
      PageSet s t pn.toNat { pg with st := if pg.pendingEn then .starting else .off, pendingEn := false })
    ∧ (s.drained pn.toNat = false → Completes (.drainComplete pn) s s)
    ∧ ∀ n : Fin 64, pn.toNat = pgLnk n.val → (s.link n.val).replay = [] → (s.link n.val).waiting = [] →
        CompletesIn (.drainComplete pn) s (fun t => (t.page pn.toNat).st = (if pg.pendingEn then .starting else .off)
          ∧ (t.page pn.toNat).pendingEn = false ∧ (t.link n.val).st = if pg.pendingEn then .retrain else .down)

/-- INT_STATUS_CLEAR, INT_ENABLE, INT_FORCE (R65, R68): by a requester that reaches the register, in its own bank where the page
is banked (R63): the status bits written 1 are cleared; the enable bits take the written value, where the block has them; a
force bit sets the matching status bit. Nothing else changes but the interrupts that rise. -/
def Obligations.InterruptRegistersWork : Prop :=
  ∀ (r : Req) (pn : BitVec 12) (v : Word) (s : State), s.alive = true → s.present pn.toNat = true →
    let b := intBank (s.reqPart r) pn.toNat
    let st := s.regB b pn.toNat hIntStatus
    (s.mayWrite r pn.toNat hIntStatus false = true → ∃ t, exec (.intStatusClear r pn v) s = .next t ∧
      Raised (s.setRegB b pn.toNat hIntStatus (st &&& ~~~v)) t)
    ∧ (s.mayWrite r pn.toNat hIntEnable false = true → ∃ t, exec (.intEnable r pn v) s = .next t ∧
      Raised (s.setRegB b pn.toNat hIntEnable (v &&& intBits (blockAt pn.toNat))) t)
    ∧ (s.mayWrite r pn.toNat hIntForce false = true → ∃ t, exec (.intForce r pn v) s = .next t ∧
      Raised (s.setRegB b pn.toNat hIntStatus (st ||| (v &&& intBits (blockAt pn.toNat)))) t)

/-- Partition 0's summary interrupt rises exactly when a command makes one of its summary bits rise while MASTER is 1 (R88):
then a new INTERRUPT of partition 0 is numbered, and otherwise none. -/
def Obligations.RisingSummaryRaisesOneInterrupt : Prop :=
  ∀ (s e t : State), s.alive = true → done s e = .next t →
    let seen (x : State) (i : Nat) := x.master 0 = true ∧ (x.summary 0).testBit i = true
    ((∃ i, seen e i ∧ ¬ seen s i) →
      t.fab.intSent.get (fun _ => 0) 0 = e.fab.intSent.get (fun _ => 0) 0 + 1)
    ∧ ((∀ i, seen e i → seen s i) → t.fab.intSent.get (fun _ => 0) 0 = e.fab.intSent.get (fun _ => 0) 0)

/-! ### Fault counting and the DEV page -/

/-- ERR_WINDOW, ERR_THRESHOLD by partition 0 (R77): a LENGTH below 8 is ignored with CMD_IGNORED on the page that holds the set,
and the window and the buckets stay; any other LENGTH is taken and empties the buckets; a LIMIT is taken and keeps the buckets,
and, where it is not 0 and at most IN_WINDOW, the fault is declared lasting at once. (The bucket edge that `edge` keeps is the
model's own field, assumption 114.) -/
def Obligations.FaultWindowAndThreshold : Prop :=
  ∀ (r : Req) (set : BitVec 24) (v : Word) (b : Nat) (s : State), s.alive = true → s.admitted r = true → s.reqPart r = 0 →
    s.errSet? set.toNat = some b →
    let e := { s.err b with length := wbits v 23 0, buckets := List.replicate 8 0 }
    (wbits v 23 0 < 8 → Completes (.errWindow r set v) s (s.cmdIgnored 0 (b / 4096)))
    ∧ (8 ≤ wbits v 23 0 → Completes (.errWindow r set v) s (s.setErr b { e with edge := s.now / e.period * e.period }))
    ∧ (wbits v 15 0 = 0 ∨ (s.err b).inWindow < wbits v 15 0 ∨ (s.err b).lasting = true →
        Completes (.errThreshold r set v) s (s.setErr b { s.err b with limit := wbits v 15 0 }))
    ∧ (0 < wbits v 15 0 → wbits v 15 0 ≤ (s.err b).inWindow → (s.err b).lasting = false →
        CompletesIn (.errThreshold r set v) s (fun t => t.err b = { s.err b with limit := wbits v 15 0, lasting := true }))

/-- BUCKET_ADVANCE (R76): local time reaches the set's next bucket edge, a whole number of bucket lengths, each LENGTH / 8 rounded
down to 100 ms; for each length that has passed since the buckets last moved, the oldest of the eight leaves the window and an empty
one enters. LASTING_DECLARED: the event that brings IN_WINDOW to LIMIT sets LASTING, and ERR_LASTING in every bank of the page's
status. -/
def Obligations.BucketsAndLasting : Prop :=
  ∀ (set : BitVec 24) (b : Nat) (s : State), s.alive = true → s.errSet? set.toNat = some b →
    let e := s.err b
    let len := e.length / 8 * 100000000
    let last := s.now / len * len
    let at' := if e.edge < last then last else last + len
    let passed := (at' - e.edge) / len
    Completes (.bucketAdvance set) s ((s.reach at').setErr b
      { e with buckets := (List.replicate (min passed 8) 0 ++ e.buckets).take 8, edge := at' })
    ∧ (e.limit ≠ 0 → e.lasting = false → e.buckets ≠ [] → e.limit = e.inWindow + 1 → e.limit ≤ 65535 →
        CompletesIn (.lastingDeclared set) s (fun t => (t.err b).lasting = true ∧ (t.err b).total = min 65535 (e.total + 1)
          ∧ ∀ p, (t.regB (intBank p (b / 4096)) (b / 4096) hIntStatus).getLsbD 2 = true))

/-- DEV_ID by partition 0, and DEVICE_ID through PLDM (R83): taken, reserved bits 0, while every fitted link's page is OFF;
otherwise ignored with CMD_IGNORED on the DEV page. PLACEMENT sets the feed and the loop (R573). -/
def Obligations.DeviceIdNeedsLinksOff : Prop :=
  ∀ (r : Req) (v : Word) (s : State), s.alive = true → s.admitted r = true → s.reqPart r = 0 →
    let off := ∀ n, s.linkFitted n = true → (s.page (pgLnk n)).st = .off
    (off → ∃ t, exec (.devId r v) s = .next t ∧ Raised (s.setReg pgDev R.DEV_ID (v &&& 0x8000FFFF)) t)
    ∧ (¬ off → ∃ t, exec (.devId r v) s = .next t ∧ Raised (s.cmdIgnored 0 pgDev) t)
    ∧ (off → s.arbiterRuns = true →
        ∃ t, exec (.deviceId v) s = .next t ∧ Raised (s.setReg pgDev R.DEV_ID (v &&& 0x8000FFFF)) t)
    ∧ (s.arbiterRuns = true → ∃ t, exec (.placement v) s = .next t ∧ Raised (s.setReg pgDev R.DEV_PLACEMENT (v &&& 0xFFFF)) t)
/-! ### Resets -/

/-- ENGINE_RESET, WARM_RESET, COLD_RESET (R85): acted on only from partition 0 and with the key 0xA5C3; from another partition
the write is counted as ignored, with a wrong key nothing happens; the widest of the bits written applies. ENGINE leaves every
square, memory, link, SCH, STX and COL page that is not RETIRED at OFF, no command admitted and the scratchpads, engines and
movers empty, and keeps `DEV_ID` and the key slots; WARM also leaves every other page outside the island OFF and every link at
rest, with start-up to resume at step 5; COLD destroys every key, leaves every page OFF and local time 0, and keeps the fuses. -/
def Obligations.DeviceResetsAct : Prop :=
  ∀ (r : Req) (v : Word) (s : State), s.alive = true → s.admitted r = true →
    ∀ c ∈ [Instr.engineReset r v, .warmReset r v, .coldReset r v],
    (s.reqPart r ≠ 0 → ∃ t, exec c s = .next t ∧ Raised (s.countIgnored (s.reqPart r) R.DEV_RESET) t)
    ∧ (s.reqPart r = 0 → wbits v 31 16 ≠ 0xA5C3 → ∃ t, exec c s = .next t ∧ Raised s t)
    ∧ (s.reqPart r = 0 → wbits v 31 16 = 0xA5C3 → s.sys.devState ≠ .safe →
      let idle (t : State) := t.sch.jobs = [] ∧ t.sch.held = [] ∧ t.squares.spad = emptyMap ∧ t.squares.pawnMem = emptyMap
        ∧ t.mxe = emptyMap ∧ t.vxe = emptyMap ∧ t.mov = emptyMap ∧ t.col.colls = []
      (v.getLsbD 2 = true → ∃ t, exec c s = .next t ∧ t.mem.keys = 0 ∧ t.mem.cells = emptyMap ∧ t.pt.keys = emptyMap
        ∧ t.rot.eph = emptyMap ∧ (∀ n, (t.link n).keyed = false) ∧ (∀ pn, t.page pn = Page.reset) ∧ idle t ∧ t.sys.time = 0
        ∧ t.sys.devState = .starting ∧ t.sys.serial = s.sys.serial ∧ t.sys.variant = s.sys.variant
        ∧ t.rot.lifecycle = s.rot.lifecycle ∧ t.rot.rollback = s.rot.rollback ∧ t.reg pgDev R.DEV_RESET_CAUSE = 4)
      ∧ (v.getLsbD 2 = false → v.getLsbD 1 = true → ∃ t, exec c s = .next t ∧ idle t ∧ t.sys.devState = .resetting
        ∧ t.sys.bootStep = 4 ∧ t.mem.keys = s.mem.keys ∧ (∀ n, (t.link n).keyed = false)
        ∧ ∀ pn, hasStates (blockAt pn) = true → (t.page pn).st = .off ∨ (t.page pn).st = .retired)
      ∧ (v.getLsbD 2 = false → v.getLsbD 1 = false → v.getLsbD 0 = true → ∃ t, exec c s = .next t
        ∧ t.sch.jobs = [] ∧ t.sch.held = [] ∧ t.mxe = emptyMap ∧ t.vxe = emptyMap ∧ t.mov = emptyMap ∧ t.col.colls = []
        ∧ t.squares.spad = emptyMap ∧ t.squares.pawnMem = emptyMap ∧ t.mem.keys = s.mem.keys ∧ t.reg pgDev R.DEV_ID = s.reg pgDev R.DEV_ID
        ∧ ∀ pn, engineBlock (blockAt pn) = true → (t.page pn).st = .off ∨ (t.page pn).st = .retired))

/-- PERST_N resets the PCIe controller and the HBR page only: the page stands at OFF with every register of it at its reset
value, the controller's port is down without functions, messages or accesses under way; every other page, register (with
`DEV_RESET_CAUSE`) and piece of state is unchanged (R86). -/
def Obligations.PerstResetsTheBridgeAlone : Prop :=
  ∀ s : State, s.alive = true → (s.page pgHbr).st ≠ .retired → ∃ t, exec .perstN s = .next t
    ∧ t.page pgHbr = { Page.reset with lock := (s.page pgHbr).lock } ∧ (∀ pn, pn ≠ pgHbr → t.page pn = s.page pn)
    ∧ (∀ (p : Fin 16) (off : Nat), off < 4096 → interruptReg (2 ^ 24 * p.val + (4096 * pgHbr + off)) = false →
        t.regB p pgHbr off = regReset .hbr off)
    ∧ (∀ (p : Fin 16) (pn off : Nat), pn < 4096 → off < 4096 → pn ≠ pgHbr →
        interruptReg (2 ^ 24 * p.val + (4096 * pn + off)) = false → t.regB p pn off = s.regB p pn off)
    ∧ t.fab.bars = [] ∧ t.fab.pcieUp = false ∧ t.fab.pcieWidth = 0 ∧ t.fab.pcieSpeed = 0 ∧ t.fab.numVfs = 0
    ∧ t.fab.takeover = false ∧ t.fab.txs = s.fab.txs ∧ t.fab.epochHeld = s.fab.epochHeld ∧ t.fab.heldIn = s.fab.heldIn
    ∧ t = { s with drs := t.drs, fab := t.fab, out := t.out }

/-! ### Squares and pawns -/

/-- SPD_SWZ_WRITE (R116, R117), of a window's base or of its configuration: taken only while the SPD page is OFF and the window that
results, if valid, may stand beside the others; in every other case ignored with CMD_IGNORED. TOL_EXP by partition 0 (R63, R187):
taken from 4 to 20, else ignored with CMD_IGNORED. -/
def Obligations.SquareRegistersAreChecked : Prop :=
  (∀ (r : Req) (q : Fin 64) (n : Fin 8) (cfg : Bool) (v : Word) (s : State), s.alive = true →
    let pn := pgSpd q.val
    let b := R.SPD_SWZ_BASE + 8 * n.val
    let c := R.SPD_SWZ_CFG + 8 * n.val
    let base := if cfg then wbits (s.reg pn b) 9 0 else wbits v 9 0
    let conf := if cfg then v &&& 0x800703FF else s.reg pn c
    let taken := (s.page pn).st = .off ∧ (conf.getLsbD 31 = false ∨ s.swizzleOk q.val n.val base conf.toNat = true)
    s.mayWrite r pn (if cfg then c else b) false = true →
    (taken → Completes (.spdSwzWrite r q n cfg v) s (if cfg then s.setReg pn c conf else s.setReg pn b (word base)))
    ∧ (¬ taken → Completes (.spdSwzWrite r q n cfg v) s (s.cmdIgnored (s.reqPart r) pn)))
  ∧ (∀ (q : Fin 64) (n : Fin 8) (base : Nat) (conf : Word) (s : State), s.swizzleOk q.val n.val base conf.toNat = true ↔
      0 < wbits conf 9 0 ∧ base + wbits conf 9 0 ≤ 768 ∧ wbits conf 18 16 ≤ 4
      ∧ ∀ m : Fin 8, m ≠ n → let o := s.reg (pgSpd q.val) (R.SPD_SWZ_CFG + 8 * m.val)
        let a := wbits (s.reg (pgSpd q.val) (R.SPD_SWZ_BASE + 8 * m.val)) 9 0
        o.getLsbD 31 = true → base + wbits conf 9 0 ≤ a ∨ a + wbits o 9 0 ≤ base)
  ∧ ∀ (r : Req) (q : Fin 64) (u : Fin 2) (v : Word) (s : State), s.alive = true → s.admitted r = true → s.reqPart r = 0 →
    let pn := pgMxe q.val u.val
    (4 ≤ wbits v 4 0 → wbits v 4 0 ≤ 20 → Completes (.tolExp r q u v) s (s.setReg pn R.MXE_CHECK (word (wbits v 4 0))))
    ∧ (wbits v 4 0 < 4 ∨ 20 < wbits v 4 0 → Completes (.tolExp r q u v) s (s.cmdIgnored 0 pn))

/-- PWN_MBOX_IN, PWN_MBOX_OUT, MBOX_SEND (R129, R147): a message to a pawn sets HOST_MBOX in its pending events; a message to the
host sets MBOX_OUT in the page's status; a message to the target pawn of the square stands in its receive word and sets
PAWN_MBOX. MACHINE_TIMER_INTERRUPT: with `time` at MTIMECMP and the timer interrupt enabled, a waiting pawn wakes. -/
def Obligations.PawnMessagesAndTimer : Prop :=
  ∀ (r : Req) (q : Fin 64) (k : Fin 4) (v : Word) (s : State), s.alive = true →
    let ph := s.phys q.val
    let w := s.pawn ph k.val
    let g := s.pawn ph w.mboxTarget.toNat
    (s.mayWrite r (pgPwn q.val k.val) R.PWN_MBOX_IN false = true → ∃ t, exec (.pwnMboxIn r q k v) s = .next t ∧
      Raised ((s.setReg (pgPwn q.val k.val) R.PWN_MBOX_IN v).setPawn ph k.val { w with irqPend := w.irqPend ||| 0x80 }) t)
    ∧ (∃ t, exec (.pwnMboxOut q k v) s = .next t ∧ t.reg (pgPwn q.val k.val) R.PWN_MBOX_OUT = v
        ∧ (t.reg (pgPwn q.val k.val) hIntStatus).getLsbD 4 = true)
    ∧ (∃ t, exec (.mboxSend q k v) s = .next t ∧
        Raised (s.setPawn ph w.mboxTarget.toNat { g with mboxRecv := v, irqPend := g.irqPend ||| 0x40 }) t)
    ∧ (w.mtimecmp.toNat ≤ s.now → w.mie.getLsbD 7 = true → ∃ t, exec (.machineTimerInterrupt q k) s = .next t ∧
        Raised (s.setPawn ph k.val { w with wfi := false }) t)

/-- PAWN_INSTRUCTION, of a pawn that is ready, waits for nothing and takes no interrupt, for what it fetches (R122): an integer
instruction writes its result (x0 discards it), a jump or a taken branch goes to its target and the link register takes the
next address, and the count of retired instructions rises; ECALL saves the pc, the cause and MIE and goes on in machine mode
at the handler; MRET returns to the saved pc, mode and MIE. Nothing but the pawn (and, on a trap in machine mode, TRAP_M)
changes. The encodings and the trap entry are the published architecture's (assumption 20). -/
def Obligations.PawnInstructionsRetireOrTrap : Prop :=
  ∀ (q : Fin 64) (k : Fin 4) (size bits : Nat) (i : PIns) (s : State), s.alive = true → s.pawnReady q k = true →
    let ph := s.phys q.val
    let w := s.pawn ph k.val
    w.wfi = false → s.interrupt w = none → s.pawnFetch q k = (.ins i size bits, s) →
    let next := w.pc + BitVec.ofNat 64 size
    let ends (x : Pawn) := ∃ t, exec (.pawnInstruction q k) s = .next t ∧ Raised (s.setPawn ph k.val x) t
    (∀ o rd a b, i = .op o false rd a b → ends ((w.setX rd (o.eval (w.getX a) (w.getX b))).retire next))
    ∧ (∀ o rd a b, i = .op o true rd a b → ends ((w.setX rd (o.evalW (w.getX a) (w.getX b))).retire next))
    ∧ (∀ o rd a imm, i = .opImm o false rd a imm → ends ((w.setX rd (o.eval (w.getX a) imm)).retire next))
    ∧ (∀ rd imm, i = .lui rd imm → ends ((w.setX rd imm).retire next))
    ∧ (∀ rd imm, i = .auipc rd imm → ends ((w.setX rd (w.pc + imm)).retire next))
    ∧ (∀ rd imm, i = .jal rd imm → ends ((w.setX rd next).retire (w.pc + imm)))
    ∧ (∀ rd a imm, i = .jalr rd a imm → ends ((w.setX rd next).retire ((w.getX a + imm) &&& ~~~1#64)))
    ∧ (∀ f a b imm, i = .branch f a b imm →
        ends (w.retire (if branchTaken f (w.getX a) (w.getX b) then w.pc + imm else next)))
    ∧ (i = .ecall → ∃ t, exec (.pawnInstruction q k) s = .next t ∧ (t.pawn ph k.val).mepc = w.pc
        ∧ (t.pawn ph k.val).mcause = (if w.mode = .machine then 11 else 8) ∧ (t.pawn ph k.val).mode = .machine
        ∧ (t.pawn ph k.val).pc = BitVec.ofNat 64 (w.mtvec.toNat / 4 * 4)
        ∧ (t.pawn ph k.val).mstatus.getLsbD 3 = false
        ∧ (t.pawn ph k.val).mstatus.getLsbD 7 = w.mstatus.getLsbD 3 ∧ (t.pawn ph k.val).x = w.x)
    ∧ (i = .mret → w.mode = .machine → ∃ t, exec (.pawnInstruction q k) s = .next t ∧ (t.pawn ph k.val).pc = w.mepc
        ∧ (t.pawn ph k.val).mode = (if bitsOf w.mstatus.toNat 12 11 = 3 then .machine else .user)
        ∧ (t.pawn ph k.val).mstatus.getLsbD 3 = w.mstatus.getLsbD 7 ∧ (t.pawn ph k.val).x = w.x)

/-- PAWN_FLOAT_OP, PAWN_LOAD_STORE, and the atomics and private accesses of PAWN_INSTRUCTION, of a pawn whose page runs, which is
ready, takes no interrupt, for what it fetches (R122 to R126). A floating-point operation takes the rounding mode that it or `frm`
names and writes its result; with its state off or a reserved mode it traps as illegal; nothing but the pawn changes. A load that
its place answers writes the value read, sign- or zero-extended, and a store that its place takes retires; a misaligned address,
one that protection forbids or one that its place refuses traps with the address; an access that its place holds waits, and the
pawn stays at it. An atomic reads, operates and stores; a store-conditional without its reservation writes 1 and stores nothing.
The encodings and the trap entry are the published architecture's (assumption 20). -/
def Obligations.PawnFloatAndMemoryInstructions : Prop :=
  ∀ (q : Fin 64) (k : Fin 4) (size bits : Nat) (i : PIns) (s : State), s.alive = true → s.pawnReady q k = true →
    s.running (pgPwn q.val k.val) = true →
    let ph := s.phys q.val
    let w := s.pawn ph k.val
    w.wfi = false → s.interrupt w = none ∨ s.pawnTx ph k ≠ none → s.pawnFetch q k = (.ins i size bits, s) →
    let ends (x : Pawn) := Completes (.pawnFloatOp q k) s (s.setPawn ph k.val (x.retire (w.pc + BitVec.ofNat 64 size)))
    let traps (c : Instr) (s1 : State) (cause : Nat) (tval : DWord) :=
      CompletesIn c s (fun t => t.pawn (s1.phys q.val) k.val = (s1.pawn (s1.phys q.val) k.val).trap false cause tval)
    let far (a : DWord) := if a.toNat / 2 ^ 48 = 0xC000 then Instr.pawnInstruction q k else .pawnLoadStore q k
    let retires (c : Instr) (s1 : State) (f : Pawn → Pawn) := Completes c s (s1.setPawn (s1.phys q.val) k.val
      ((f (s1.pawn (s1.phys q.val) k.val)).retire ((s1.pawn (s1.phys q.val) k.val).pc + BitVec.ofNat 64 size)))
    let loads (a : DWord) (n : Nat) (f : Pawn → Nat → Pawn) :=
      let c := far a
      (a.toNat % n ≠ 0 → traps c s 4 a)
      ∧ (a.toNat % n = 0 → w.pmpOk w.dataMode .load a.toNat n = false → traps c s 5 a)
      ∧ (a.toNat % n = 0 → w.pmpOk w.dataMode .load a.toNat n = true → ∀ s1, s1.running (pgPwn q.val k.val) = true →
        (∀ v, s.pawnLoad q k a.toNat n = (.ok v, s1) → retires c s1 (fun x => f x v))
        ∧ (s.pawnLoad q k a.toNat n = (.fault, s1) → traps c s1 5 a)
        ∧ (s.pawnLoad q k a.toNat n = (.wait, s1) → Completes c s s1))
    let stores (a : DWord) (n v : Nat) :=
      let c := far a
      (a.toNat % n ≠ 0 → traps c s 6 a)
      ∧ (a.toNat % n = 0 → w.pmpOk w.dataMode .store a.toNat n = false → traps c s 7 a)
      ∧ (a.toNat % n = 0 → w.pmpOk w.dataMode .store a.toNat n = true → ∀ s1, s1.running (pgPwn q.val k.val) = true →
        (∀ x, s.pawnStore q k a.toNat n (v % 2 ^ (8 * n)) = (.ok x, s1) → retires c s1 (fun y => y))
        ∧ (s.pawnStore q k a.toNat n (v % 2 ^ (8 * n)) = (.fault, s1) → traps c s1 7 a)
        ∧ (s.pawnStore q k a.toNat n (v % 2 ^ (8 * n)) = (.wait, s1) → Completes c s s1))
    (w.fsOn = true →
      (∀ o rd a b rm m, i = .fop o rd a b rm → w.rounding rm = some m → ends (w.setF rd (o.eval m (w.getF a) (w.getF b))))
      ∧ (∀ kind rd a b d rm m, i = .fused kind rd a b d rm → w.rounding rm = some m →
          ends (w.setF rd (fusedEval kind m (w.getF a) (w.getF b) (w.getF d))))
      ∧ (∀ kind rd a rm m, w.rounding rm = some m →
          (i = .toInt kind rd a rm → ends (w.setX rd (toIntF kind m (w.getF a))))
          ∧ (i = .ofInt kind rd a rm → ends (w.setF rd (ofIntF kind m (w.getX a)))))
      ∧ (∀ o rd a b, i = .fplain o rd a b → ends (if o = .toF then w.setF rd ((w.getX a).setWidth 32)
          else if o.toInteger then w.setX rd (o.evalX (w.getF a) (w.getF b)) else w.setF rd (o.evalF (w.getF a) (w.getF b))))
      ∧ (∀ rd a imm, i = .flw rd a imm → loads (w.getX a + imm) 4 (fun x v => x.setF rd (BitVec.ofNat 32 v)))
      ∧ (∀ a b imm, i = .fsw a b imm → stores (w.getX a + imm) 4 (w.getF b).toNat))
    ∧ (∀ o rd a b rm, i = .fop o rd a b rm → w.fsOn = false ∨ w.rounding rm = none →
        traps (.pawnFloatOp q k) s 2 (BitVec.ofNat 64 bits))
    ∧ (∀ f rd a imm, i = .load f rd a imm → loads (w.getX a + imm) (2 ^ (f % 4)) (fun x v => x.setX rd (loadValue f v)))
    ∧ (∀ f a b imm, i = .store f a b imm → stores (w.getX a + imm) (2 ^ f) (w.getX b).toNat)
    ∧ (∀ f5 w32 rd a b, i = .amo f5 w32 rd a b →
        let n := if w32 then 4 else 8
        let at' := (w.getX a).toNat
        at' % n = 0 → w.pmpOk w.dataMode .store at' n = true → w.pmpOk w.dataMode .load at' n = true → (s.atomicAt q k at').isSome = true →
        ∀ v x s1 s2, s.pawnLoad q k at' n = (.ok v, s1) →
          let old : DWord := if w32 then sext 32 v else BitVec.ofNat 64 v
          s1.pawnStore q k at' n ((amoEval f5 w32 old (w.getX b)).toNat % 2 ^ (8 * n)) = (.ok x, s2) →
          s2.running (pgPwn q.val k.val) = true → retires (.pawnInstruction q k) s2 (fun y => y.setX rd old))
    ∧ ∀ w32 rd a b r, i = .sc w32 rd a b → (w.getX a).toNat % (if w32 then 4 else 8) = 0 →
        w.pmpOk w.dataMode .store (w.getX a).toNat (if w32 then 4 else 8) = true → s.atomicAt q k (w.getX a).toNat = some r →
        w.reservation ≠ some r →
        Completes (.pawnInstruction q k) s ((s.setPawn ph k.val { w with reservation := none }).setPawn ph k.val
          (({ w with reservation := none }.setX rd 1).retire (w.pc + BitVec.ofNat 64 size)))
/-! ### The scheduler -/

/-- RING_SLOT_TAKEN (R380, R381, R382, R386, R392): a slot that cannot be read, that has a bad header, or that names a tally
outside the partition's range completes at once with its code, HEAD passes it, CTALLY rises and the context faults; a slot whose
WAIT tally has not been reached parks its context and keeps HEAD; a collective goes to its group; one that has to wait before
admission is held; and any other is decided by admission: HEAD passes it, and it is outstanding, or has completed with its code.
What admission accepts has a promise within its budget. A slot that waits for its memory stays where it is. -/
def Obligations.RingSlotIsTakenAtTheHead : Prop :=
  (∀ (ctx : BitVec 16) (s : State), s.alive = true → s.ringReady ctx.toNat = true →
    let n := ctx.toNat
    let c := s.ctx n
    let p := s.ctxPart n
    let slotBytes := s.memRead p s.devId.toNat (c.ringBase + 256 * c.head) 256
    let passed (e : Nat) (t : State) : Prop := (t.ctx n).st = .faulted
      ∧ (t.ctx n).head = (c.head + 1) % c.slots ∧ (t.ctx n).ctally = c.ctally + 1 ∧ (t.ctx n).lastCode = BitVec.ofNat 8 e
    (slotBytes.1 = .wait → Completes (.ringSlotTaken ctx) s s)
    ∧ (∀ e, slotBytes.1 = .fail e → faults e = true → CompletesIn (.ringSlotTaken ctx) s (passed e))
    ∧ (∀ bs s1, slotBytes = (.ok bs, s1) →
        let ws := (chunks 8 bs).map (fun b => BitVec.ofNat 64 (leNat b))
        let h := Hdr.parse ws
        let x := s1.slotCmd p n (.ring c.head) ws
        let since := (s1.waitOf n).bind (·.reachedAt)
        let now := since.getD s1.now
        let waits := h.wait = true ∧ since = none ∧ tallyReached (s1.tally h.waitTally) (word h.waitValue) = false
        let others := s1.sch.waits.filter (fun w => w.ctx ≠ n)
        let go (t : State) : Prop := Completes (.ringSlotTaken ctx) s t
        (∀ e, s1.hdrFault p ws h = some e → CompletesIn (.ringSlotTaken ctx) s (passed e))
        ∧ (s1.hdrFault p ws h = none → waits →
            go { s1.setCtx n { c with st := .parked } with sch := { (s1.setCtx n { c with st := .parked }).sch with
              waits := others ++ [⟨n, h.waitTally, word h.waitValue, none⟩] } })
        ∧ (s1.hdrFault p ws h = none → ¬ waits → h.target = tCol → go ((s1.ringCollective x c.head now).getD s))
        ∧ (s1.hdrFault p ws h = none → ¬ waits → h.target ≠ tCol → s1.mustWait s1.sch.held x = true →
            go (s1.addHeld { ctx := n, part := p, origin := .ring c.head, words := ws }))
        ∧ (s1.hdrFault p ws h = none → ¬ waits → h.target ≠ tCol → s1.mustWait s1.sch.held x = false →
            (∀ s2, s1.admitCmd x now = (.accepted, s2) → go ((s2.setCtx n (s2.ctx n).past).dropWaits n))
            ∧ (∀ e s2, s1.admitCmd x now = (.ended e, s2) → go (s2.endSlot p n c.head h.target e x.signal))
            ∧ (∀ s2, s1.admitCmd x now = (.notYet, s2) → go s))))
  ∧ ∀ (c : Cmd) (now : Nat) (s s2 : State), s.admitCmd c now = (.accepted, s2) → (s2.ctx c.ctx).promise ≤ now + c.budget

/-- SUBMIT (R130, R131): with no free entry in the pawn's queue, or while the SCH page is not RUNNING, the command is held; a
context of another partition gives PARTITION_FAULT, one that is not ACTIVE gives REFUSED, both in `RESULT` with PORT_DONE and the
port's next sequence number; one that has to wait before admission is held; and any other is decided by admission: accepted, or
completed with its code. HELD_ADMISSION: the first held command of its queue is staged again, behind those held before it, and
stays held where it still has to wait. -/
def Obligations.PortCommandsAreAdmittedHeldOrRefused : Prop :=
  (∀ (q : Fin 64) (k : Fin 4) (port : Fin 6) (v : Word) (s : State), s.alive = true →
    let ph := s.phys q.val
    let w := s.pawn ph k.val
    let pt := nth Port.reset w.ports port.val
    let seq := (pt.issued + 1) % 2 ^ 24
    let n := wbits v 15 0
    let p := s.sqOwner q.val
    let ws := (List.range (min (wbits v 21 16) 32)).map (fun i =>
      s.squares.cmdBuf.get (fun _ => 0) (((4 * ph + k.val) * 6 + port.val) * 32 + i))
    let w1 := { w with ports := setNth w.ports port.val { pt with issued := seq } }
    let s0 := s.setPawn ph k.val w1
    let o := Origin.port ph k port seq
    let c := s.portCmd p n o q.val port ws
    let takes := s.running pgSch = true ∧ s.portFree ph k port ≠ 0
    let held := Completes (.submit q k port v) s (s.addHeld { ctx := n, part := p, origin := .port ph k port 0, words := ws })
    (¬ takes → held)
    ∧ (takes → s.holdsCtx p n = false → Completes (.submit q k port v) s (s0.setPawn ph k.val (w1.result port seq cPartitionFault)))
    ∧ (takes → s.holdsCtx p n = true → (s.ctx n).st ≠ .active →
        Completes (.submit q k port v) s (s0.finish p n o c.target none none cRefused)
        ∧ CompletesIn (.submit q k port v) s (fun t => t.pawn ph k.val = w1.result port seq cRefused ∧ t.sch.jobs = s.sch.jobs))
    ∧ (takes → s.holdsCtx p n = true → (s.ctx n).st = .active → s.mustWait s.sch.held c = true → held)
    ∧ (takes → s.holdsCtx p n = true → (s.ctx n).st = .active → s.mustWait s.sch.held c = false →
        (∀ s1, s0.admitCmd c s.now = (.accepted, s1) → Completes (.submit q k port v) s s1)
        ∧ (∀ e s1, s0.admitCmd c s.now = (.ended e, s1) → Completes (.submit q k port v) s (s1.finish p n o c.target none none e))
        ∧ (∀ s1, s0.admitCmd c s.now = (.notYet, s1) → held)))
  ∧ ∀ (i : Nat) (h : Held) (s : State), s.alive = true → s.sch.held[i]? = some h →
    let go (o : Option State) : Prop := Completes (.heldAdmission i) s (o.getD s)
    let ahead := s.sch.held.take i
    (s.heldFirst i h = false → Completes (.heldAdmission i) s s)
    ∧ (∀ ph k port x q, s.heldFirst i h = true → h.origin = .port ph k port x → allSquares.find? (fun y => s.phys y = ph) = some q →
        go ((s.dropHeld i).portGo ahead q ph k port h.ctx h.words))
    ∧ (∀ slot, s.heldFirst i h = true → h.origin = .ring slot → (s.ctx h.ctx).st = .active → s.running pgSch = true →
        go ((s.dropHeld i).ringGo ahead h.part h.ctx slot h.words s.now))
    ∧ (∀ d tag pk, s.heldFirst i h = true → h.origin = .remote d tag → h.packet = some pk →
        go ((s.dropHeld i).remoteGo ahead pk h.since))

/-- ENGINE_COMMAND_START (R163, R166, R381, R388): a vector engine, mover channel or port 5 with no started command outstanding, the
scheduler, or a matrix engine with nothing in it, that serves, starts its next command and wakes; that command is the first of its
time control's waiting there, its context has no earlier one outstanding, and no other head whose start in the fluid schedule has
passed finishes earlier there. ENGINE_SELF_GATE (R166): a RUNNING engine that gates itself and has no command is gated. -/
def Obligations.EnginesStartTheirNextCommand : Prop :=
  (∀ (q : Fin 64) (u : Fin 2) (c : Fin 4) (s : State), s.alive = true →
    let idle (e : Engine) (here : Job → Bool) := s.engineBusy (engineNum e) here = false
    let next (e : Engine) (j : Job) := s.nextFor (engineNum e) (fun _ => true) = some j
    let go (e : Engine) (j : Job) := Completes (.engineCommandStart e) s ((s.startJob j.id).wake e)
    (∀ j, s.serves (pgVxe q.val u.val) = true → idle (.vxe q u) (fun _ => true) → next (.vxe q u) j → go (.vxe q u) j)
    ∧ (∀ j, s.serves (pgMov q.val) = true → idle (.mov q c) (fun k => decide (k.movCmd.chan = c.val)) →
      next (.mov q c) j → j.movCmd.chan = c.val → go (.mov q c) j)
    ∧ (∀ j, s.serves (pgSft q.val) = true → idle (.sft q) (fun _ => true) → next (.sft q) j → go (.sft q) j)
    ∧ (∀ j, s.serves pgSch = true →
      (s.sch.jobs.filter (fun j => decide (j.target = tSch) && decide (j.phase = .queued))).find? s.eligible = some j → go .sch j)
    ∧ (∀ j, s.serves (pgMxe q.val u.val) = true → (s.mxeEng q.val u.val).window = [] → (s.mxeEng q.val u.val).slots = [] →
        next (.mxe q u) j →
        let e := s.mxeEng q.val u.val
        let full : MxeEng := { MxeEng.reset with tol := wbits (s.reg (pgMxe q.val u.val) R.MXE_CHECK) 4 0 }
        let joins := j.tile.batch = true ∧ s.noBatch q.val u.val = false
        let put (x : MxeEng) : State := (s.startJob j.id).setMxeEng q.val u.val x
        let mgo (t : State) := Completes (.engineCommandStart (.mxe q u)) s (t.wake (.mxe q u))
        (j.tile.shape = 0 → ¬ joins → mgo (put { full with slots := [(0, j.id)] }))
        ∧ (j.tile.shape = 0 → joins → j.tile.m ≠ 128 → mgo (put { full with window := [j.id], windowAt := s.now }))
        ∧ (j.tile.shape = 0 → joins → j.tile.m = 128 →
            mgo ((put { full with window := [j.id], windowAt := s.now }).closeWindow q.val u.val))
        ∧ (j.tile.shape ≠ 0 → j.tile.shape = e.shape → ∀ k, e.freeSlot = some k → mgo (put { e with slots := [(k, j.id)] }))
        ∧ (j.tile.shape ≠ 0 → (j.tile.shape ≠ e.shape ∨ e.freeSlot = none) →
            mgo (put { MxeEng.reset with shape := j.tile.shape, slots := [(0, j.id)] })))
    ∧ (∀ e sq b, gateBit e = some (sq, b) → s.running (pgSq sq (b + 1 + b01 (decide (b = 4)))) = true → 0 < s.idleBeats e →
        s.sch.jobs.any (fun j => decide (j.engine = engineNum e) && j.live) = false →
        Completes (.engineSelfGate e) s (s.setGated sq b true)))
  ∧ ∀ (s : State) (n : Nat) (p : Job → Bool) (j : Job), s.nextFor n p = some j →
      j ∈ s.sch.jobs ∧ j.engine = n ∧ j.phase = .queued ∧ p j = true ∧ s.eligible j = true
      ∧ (∃ before after, s.waiting n p = before ++ j :: after ∧ ∀ k ∈ before, k.tc ≠ j.tc)
      ∧ ∀ k ∈ headsOf [] (s.waiting n p), s.eligible k = true → k.fs ≤ s.now * fluidScale →
          j.fs ≤ s.now * fluidScale ∧ j.ff ≤ k.ff

/-- COMMAND_COMPLETION of a ring command that no other has to precede (R163, R192, R382, R383, R389): the command leaves, CTALLY
rises by 1, LAST_CODE is its code (DONE with a fallen flag is FLAG_FALLEN), and the context faults, stops or goes on as the code
says; a tally of this device that it signals rises by 1, where no plan holds that tally as a GO tally. A command that another of its
engine has to precede, or one of a joined run of which a member has not ended (R173), waits. FLAG_FALLS: at the promise of a command
that has not completed, its flag falls once, which sets FLAG_FALLEN and counts; the parts of a replay or of an update have none of
their own. -/
def Obligations.CompletionAdvancesTheTally : Prop :=
  ∀ (id beats : Nat) (j : Job) (s : State), s.alive = true → s.job? id = some j →
    let early := s.sch.jobs.any (fun k => !((s.runMates j).any (fun m => m.id = k.id)) && k.before j)
    (∀ slot c, j.phase = .ended c → j.origin = .ring slot → s.ctxPart j.ctx = j.part → j.run = 0 → early = false →
      let code := if j.fell = true ∧ c = cDone then cFlagFallen else c
      CompletesIn (.commandCompletion id beats) s (fun t => t.job? id = none
        ∧ (t.ctx j.ctx).ctally = (s.ctx j.ctx).ctally + 1 ∧ (t.ctx j.ctx).lastCode = BitVec.ofNat 8 code
        ∧ (j.signal = none → (t.ctx j.ctx).st = ((s.ctx j.ctx).after code).st)
        ∧ (∀ n, j.signal = some (n, none) → code = cDone ∨ code = cFlagFallen → s.running pgSch = true → s.rcv.plan = none →
            t.tally n = s.tally n + 1)))
    ∧ ((early = true ∨ (s.runMates j).any Job.live = true) → Completes (.commandCompletion id beats) s s)
    ∧ ((∀ x, j.origin ≠ .replay x) → (∀ x, j.origin ≠ .unit x) → j.fell = false → j.promise ≠ 0 →
        Completes (.flagFalls id) s
          (((((s.reach j.promise).modJob id (fun k => { k with fell := true })).statusOne j.part pgSch 4).setRegB j.part pgSch
            R.SCH_FLAG_CTX (word j.ctx)).bumpB j.part pgSch R.SCH_FLAGS 1))

/-- PARITY_FAULT (R169, R170, R218, R248, R314, R369): a fault in a vector engine, a mover channel or the cells of a matrix engine
is counted once against its square and ends the command that runs there UNIT_FAULT (the command whose rows include the place, for
a matrix engine), if one runs; one on the load path of port 5 also ends its commands UNIT_FAULT and puts its page in FAULTED; one
in an update unit ends the running update UNIT_FAULT and counts on the unit. R139: a flit that fails its CRC on a hop is resent
each time, and every third failed attempt counts one UNIT_FAULT against the square that sends it. -/
def Obligations.ParityFaultsEndWhatTheyHit : Prop :=
  ∀ (q : Fin 64) (u : Fin 2) (c : Fin 4) (k : Fin 8) (row col : Fin 128) (s : State), s.alive = true →
    let mine (j : Job) : Bool := decide (j.target = tMov) && decide (j.square = q.val) && j.isRunning && decide (j.movCmd.chan = c.val)
    (s.vxeJob q.val u.val = none → Completes (.parityFault (.vxe q u)) s (s.unitFault q.val))
    ∧ (∀ j, s.vxeJob q.val u.val = some j → Completes (.parityFault (.vxe q u)) s
        ((s.vxeBreak q.val u.val j.id j.vprog cUnitFault 15 (s.vxeEng q.val u.val).pc).unitFault q.val))
    ∧ (s.sch.jobs.any mine = false → Completes (.parityFault (.mov q c)) s (s.unitFault q.val))
    ∧ (∀ j, s.sch.jobs.find? mine = some j →
        Completes (.parityFault (.mov q c)) s ((s.movBreak j cUnitFault sideNone (s.movAt j)).unitFault q.val))
    ∧ (∀ id, (s.mxeEng q.val u.val).slots = [(0, id)] → (s.mxeEng q.val u.val).shape = 0 → (s.mxeEng q.val u.val).counted = false →
        row.val < (s.tileOf id).m → col.val < (s.tileOf id).n → (s.err (errSq q.val)).limit = 0 → (∀ w, s.spadMark w = 0) →
        (∃ j, s.job? id = some j ∧ j.live = true) →
        CompletesIn (.parityFault (.mxeCell q u row col)) s (fun t => (t.job? id).map (·.phase) = some (.ended cUnitFault)
          ∧ t.err (errSq q.val) = (s.err (errSq q.val)).add 1
          ∧ t.reg (pgMxe q.val u.val) R.MXE_LAST_FAULT = word (cUnitFault * 2 ^ 24 + row.val * 2 ^ 8 + 255)))
    ∧ (s.parityHits q.val u.val row.val col.val true = [] → s.countsOnce q.val u.val = false →
        (s.mxeEng q.val u.val).counted = false → (s.err (errSq q.val)).limit = 0 →
        CompletesIn (.parityFault (.mxeCell q u row col)) s (fun t => t.sch.jobs = s.sch.jobs
          ∧ t.err (errSq q.val) = (s.err (errSq q.val)).add 1))
    ∧ ((s.err (errSq q.val)).limit = 0 → (s.page (pgSft q.val)).st = .running →
        CompletesIn (.parityFault (.sft q)) s (fun t => (t.page (pgSft q.val)).st = .faulted ∧ (t.page (pgSft q.val)).enable = false
          ∧ t.err (errSq q.val) = (s.err (errSq q.val)).add 1
          ∧ ∀ j ∈ t.sch.jobs, j.target = tSft → j.square = q.val → j.live = false))
    ∧ (s.updJob = none → Completes (.parityFault (.upd k)) s (s.countFault (errUpd k.val) 1))
    ∧ (∀ j, s.updJob = some j →
        Completes (.parityFault (.upd k)) s ((s.updEnd j.id cUnitFault (s.updProgress j.id).block).countFault (errUpd k.val) 1))
    ∧ (∀ (p : Fin 72) (n : Nat), s.nameAt p.val = some q.val →
        let s1 := s.bump (pgMesh q.val) R.MESH_RETRY n
        Completes (.parityFault (.meshHop p n)) s (if n < 3 then s1 else s1.countFault (errSq q.val) (n / 3)))
/-- START, STOP, RESET through `SCH_CTX_OP`, SCH_CTX_DATA (R376, R377): on the context that the requester's selector names within
its range. START makes ACTIVE a STOPPED context, or an IDLE one whose rings and time control are the partition's; STOP makes
STOPPED an ACTIVE or PARKED one, drops its wait and its slot held before admission, and ends ABORTED a collective of it that has not
been accepted; RESET returns a STOPPED or FAULTED one with nothing outstanding to IDLE
with HEAD, TAIL and PROMISE 0; a data word is applied while IDLE, read-only words are unwritable. Every other case is ignored
with CMD_IGNORED. -/
def Obligations.ContextOperations : Prop :=
  ∀ (r : Req) (i : Fin 16) (v : Word) (s : State), s.alive = true → s.admitted r = true →
    let p := s.reqPart r
    let ignored (c : Instr) := Completes c s (s.cmdIgnored p pgSch)
    (s.holdsCtx p (wbits (s.regB p pgSch R.SCH_CTX_SEL) 15 0) = false →
      ignored (.start r) ∧ ignored (.stop r) ∧ ignored (.reset r) ∧ ignored (.schCtxData r i v))
    ∧ ∀ n, n = wbits (s.regB p pgSch R.SCH_CTX_SEL) 15 0 → s.holdsCtx p n = true →
      let c := s.ctx n
      let mine := c.ringLog2 ≤ 12 ∧ c.ringBase % 4096 = 0 ∧ c.cqBase % 4096 = 0 ∧ s.memAllowed p c.ringBase (256 * c.slots) = true
        ∧ s.memAllowed p c.cqBase (16 * c.slots) = true ∧ s.holdsTc p c.tc = true
      let free := ∀ j ∈ s.sch.jobs, j.ctx ≠ n
      (c.st = .stopped ∨ (c.st = .idle ∧ mine) → Completes (.start r) s (s.setCtx n { c with st := .active }))
      ∧ (¬ (c.st = .stopped ∨ (c.st = .idle ∧ mine)) → ignored (.start r))
      ∧ (c.st = .active ∨ c.st = .parked →
          let joining := s.colls.filter (fun co => decide (co.phase ≠ .accepted) && (s.job? co.job).any (fun j => j.ctx = n))
          let s1 := joining.foldl (fun s co => s.colFail co.job cAborted) s
          (joining = [] → Completes (.stop r) s (((s.setCtx n { c with st := .stopped }).dropWaits n).dropRing n))
          ∧ Completes (.stop r) s
            (((s1.setCtx n { s1.ctx n with st := if (s1.ctx n).st = .faulted then .faulted else .stopped }).dropWaits n).dropRing n))
      ∧ (c.st ≠ .active → c.st ≠ .parked → ignored (.stop r))
      ∧ (c.st = .stopped ∨ c.st = .faulted → free →
          Completes (.reset r) s (s.setCtx n { c with st := .idle, head := 0, tail := 0, promise := 0 }))
      ∧ (¬ ((c.st = .stopped ∨ c.st = .faulted) ∧ free) → ignored (.reset r))
      ∧ (i.val ≤ 5 → c.st = .idle → Completes (.schCtxData r i v) s (s.setCtx n (c.write i.val v)))
      ∧ (i.val ≤ 5 → c.st ≠ .idle → ignored (.schCtxData r i v))
      ∧ (5 < i.val → Completes (.schCtxData r i v) s s)

/-- SELECTOR_WRITE (R400): a selector takes a number within the partition's holding, in the requester's bank, and its window
shows that entry; any other number is ignored with CMD_IGNORED. SCH_DOORBELL (R380, R401): TAIL of a context of the partition
takes the value, or waits while the SCH page is not RUNNING; of another's, ignored. -/
def Obligations.SelectorsAndDoorbells : Prop :=
  ∀ (r : Req) (off : BitVec 24) (v : Word) (s : State), s.alive = true → s.admitted r = true →
    let p := s.reqPart r
    let n := v.toNat
    let sel (pn o : Nat) (x : Nat) := s.setRegB p pn o (word x)
    (off.toNat = 4096 * pgSch + R.SCH_CTX_SEL →
      (s.holdsCtx p (n % 2 ^ 16) = true → Completes (.selectorWrite r off v) s (sel pgSch R.SCH_CTX_SEL (n % 2 ^ 16)))
      ∧ (s.holdsCtx p (n % 2 ^ 16) = false → Completes (.selectorWrite r off v) s (s.cmdIgnored p pgSch)))
    ∧ (off.toNat = 4096 * pgSch + R.SCH_TALLY_SEL →
      (s.holdsTally p (n % 2 ^ 14) = true → Completes (.selectorWrite r off v) s (sel pgSch R.SCH_TALLY_SEL (n % 2 ^ 14)))
      ∧ (s.holdsTally p (n % 2 ^ 14) = false → Completes (.selectorWrite r off v) s (s.cmdIgnored p pgSch)))
    ∧ (off.toNat = 4096 * pgSch + R.SCH_TC_SEL →
      (s.holdsTc p (n % 2 ^ 12) = true → Completes (.selectorWrite r off v) s
        ((sel pgSch R.SCH_TC_SEL (n % 2 ^ 12)).loadWindow p pgSch R.SCH_TC_DATA 8 (s.tc (n % 2 ^ 12)).words))
      ∧ (s.holdsTc p (n % 2 ^ 12) = false → Completes (.selectorWrite r off v) s (s.cmdIgnored p pgSch)))
    ∧ (off.toNat = 4096 * pgCol + R.COL_GRP_SEL →
      (s.holdsGrp p (n % 2 ^ 10) = true → Completes (.selectorWrite r off v) s
        ((sel pgCol R.COL_GRP_SEL (n % 2 ^ 10)).loadWindow p pgCol R.COL_GRP_DATA 6 (s.grp (n % 2 ^ 10)).words))
      ∧ (s.holdsGrp p (n % 2 ^ 10) = false → Completes (.selectorWrite r off v) s (s.cmdIgnored p pgCol)))
    ∧ (s.holdsCtx p (wbits v 15 0) = true → s.running pgSch = true → Completes (.schDoorbell r v) s
        (s.setCtx (wbits v 15 0) { s.ctx (wbits v 15 0) with tail := wbits v 31 16 }))
    ∧ (s.holdsCtx p (wbits v 15 0) = true → s.running pgSch = false → Completes (.schDoorbell r v) s
        { s with sch := { s.sch with heldOps := s.sch.heldOps ++ [.doorbell (wbits v 15 0) (wbits v 31 16)] } })
    ∧ (s.holdsCtx p (wbits v 15 0) = false → Completes (.schDoorbell r v) s (s.cmdIgnored p pgSch))

/-- SCH_TALLY_VAL, SCH_TALLY_ADD (R391 to R393, R401): the tally that the requester's selector names takes the value, or the sum
modulo 2^32; the change waits while the SCH page is not RUNNING. A parked context is ACTIVE again when its tally has reached its
value, at most 2^31 − 1 past it; the other tallies and contexts stay. A plan's STEP tally carries its GO tally along (R555). -/
def Obligations.TalliesReleaseTheirWaits : Prop :=
  (∀ (r : Req) (v : Word) (s : State), s.alive = true → s.admitted r = true →
    let p := s.reqPart r
    let n := wbits (s.regB p pgSch R.SCH_TALLY_SEL) 13 0
    let held (op : HeldOp) : State := { s with sch := { s.sch with heldOps := s.sch.heldOps ++ [op] } }
    (s.holdsTally p n = true → s.running pgSch = true →
      Completes (.schTallyVal r v) s ((s.putTally n v).holdGo n v)
      ∧ Completes (.schTallyAdd r v) s ((s.putTally n (s.tally n + v)).holdGo n (s.tally n + v)))
    ∧ (s.holdsTally p n = true → s.running pgSch = false →
      Completes (.schTallyVal r v) s (held (.tallySet n v)) ∧ Completes (.schTallyAdd r v) s (held (.tallyAdd n v)))
    ∧ (s.holdsTally p n = false →
      Completes (.schTallyVal r v) s (s.cmdIgnored p pgSch) ∧ Completes (.schTallyAdd r v) s (s.cmdIgnored p pgSch)))
  ∧ ∀ (s : State) (n : Nat) (v : Word),
    let t := s.putTally n v
    let due (w : Wait) := w.tally = n ∧ w.reachedAt = none ∧ (v - w.value).toNat < 2 ^ 31
    t.tally n = v ∧ (∀ m, m ≠ n → t.tally m = s.tally m)
    ∧ (∀ w ∈ s.sch.waits, due w → (s.ctx w.ctx).st = .parked → (t.ctx w.ctx).st = .active)
    ∧ (∀ c, (s.ctx c).st ≠ .parked ∨ (∀ w ∈ s.sch.waits, due w → w.ctx ≠ c) → t.ctx c = s.ctx c)
    ∧ (s.rcv.role = .standby ∨ s.rcv.role = .none ∨ s.rcv.plan = none → t.holdGo n v = t)

/-- SCH_TC_COMMIT (R385, R507): without GO nothing happens; with it the held words become the entry named, or the commit is
ignored with CMD_IGNORED. A commit that is applied leaves at most 64 units on every engine of every square, on the update units
and on the collective engine, the partition's slots and tags within its shares, its squares its own, and reserved power that
has not risen or fits under the cap. COL_GRP_COMMIT (R448): an entry whose list is read and may stand is applied
with its members and SEQ 0, and any other is ignored: out of bounds, with a list outside the partition's regions, held by another
partition, or of a group that has a collective outstanding. -/
def Obligations.CommitsAreAppliedOrIgnored : Prop :=
  ∀ (r : Req) (v : Word) (s : State), s.alive = true → s.admitted r = true →
    let p := s.reqPart r
    let n := wbits (s.regB p pgSch R.SCH_TC_SEL) 11 0
    let d (i : Nat) := (s.regB p pgSch (R.SCH_TC_DATA + 4 * i)).toNat
    let w (i : Nat) := d (2 * i) + d (2 * i + 1) * 2 ^ 32
    let tc := Tc.ofWords w
    let s1 := s.setTc n tc
    let ok := s.holdsTc p n && tcWordsOk w tc && allSquares.all (fun q => !tc.hasSquare q || decide (s.sqOwner q = p))
      && !(s.sch.jobs.any (fun j => decide (j.tc = n) && !s.joins j.id)) && s1.tcsOk s p
    let m := wbits (s.regB p pgCol R.COL_GRP_SEL) 9 0
    let e (i : Nat) := (s.regB p pgCol (R.COL_GRP_DATA + 8 * i)).toNat + (s.regB p pgCol (R.COL_GRP_DATA + 8 * i + 4)).toNat * 2 ^ 32
    let g : Grp := ⟨bitsOf (e 0) 14 0, bitsOf (e 0) 29 16, bitsOf (e 0) 34 32, bitOf (e 0) 35, bitsOf (e 1) 47 0, 0, []⟩
    let sound := s.holdsGrp p m = true ∧ (∀ co ∈ s.col.colls, co.grp ≠ m)
      ∧ (∀ j ∈ s.sch.jobs, j.target = tCol → (ColCmd.parse j.body).grp ≠ m)
      ∧ g.width ≤ 5 ∧ g.size ≠ 0 ∧ g.size ≤ 16384 ∧ g.rank < g.size ∧ g.listAddr % 64 = 0
      ∧ s.memAllowed p g.listAddr (4 * g.size) = true
    (v.getLsbD 0 = false → Completes (.schTcCommit r v) s s ∧ Completes (.colGrpCommit r v) s s)
    ∧ (v.getLsbD 0 = true → ok = true → Completes (.schTcCommit r v) s s1)
    ∧ (v.getLsbD 0 = true → ok = false → Completes (.schTcCommit r v) s (s.cmdIgnored p pgSch))
    ∧ (ok = true →
        (∀ q < 64, s1.sumUnits Tc.uMe (some q) ≤ 64 ∧ s1.sumUnits Tc.uVe (some q) ≤ 64 ∧ s1.sumUnits Tc.uMov (some q) ≤ 64
          ∧ s1.sumUnits Tc.uSft (some q) ≤ 64 ∧ (tc.hasSquare q = true → s.sqOwner q = p))
        ∧ s1.sumUnits Tc.uUpd none ≤ 64 ∧ s1.sumUnits Tc.uCol none ≤ 64 ∧ s1.sumMine p Tc.p ≤ s1.memSlots p
        ∧ s1.sumMine p Tc.tags ≤ s1.tagQuota p ∧ s1.sumMine p Tc.slots + s1.transitOf p ≤ s1.linkSlots p
        ∧ (s1.reserved64 ≤ s.reserved64 ∨ s1.reserved64 ≤ 640 * wbits (s.reg pgPwr R.PWR_CAP) 11 0))
    ∧ (∀ ids s2, v.getLsbD 0 = true → sound → s.readMembers p g.listAddr g.size = (some ids, s2) →
        (s2.membersOk p g.rank ids = true → Completes (.colGrpCommit r v) s (s2.setGrp m { g with ids := ids }))
        ∧ (s2.membersOk p g.rank ids = false → Completes (.colGrpCommit r v) s (s2.cmdIgnored p pgCol)))
    ∧ (∀ s2, v.getLsbD 0 = true → sound → s.readMembers p g.listAddr g.size = (none, s2) →
        Completes (.colGrpCommit r v) s (s2.cmdIgnored p pgCol))
    ∧ (v.getLsbD 0 = true → ¬ sound → Completes (.colGrpCommit r v) s (s.cmdIgnored p pgCol))

/-- SCH_NOP, SEG_OPEN, SEG_CLOSE, SEG_REPLAY, running (R397 to R399): NOP ends DONE; SEG_OPEN on a context without an open
segment opens the segment named, empty; SEG_CLOSE of the segment open on the context closes it; SEG_REPLAY ends DONE when no
command that it replayed is left, and waits while one is. Opening a second segment, or closing another one, ends
BAD_DESCRIPTOR. -/
def Obligations.SegmentCommands : Prop :=
  ∀ (id : Nat) (j : Job) (s : State), s.alive = true → s.job? id = some j → j.phase = .running → j.target = tSch →
    let n := schSeg j.body
    let c := s.ctx j.ctx
    let ends (x : Instr) (t : State) (code : Nat) := Completes x s (t.endJob id code)
    (schOp j.body = 0 → ends (.schNop id) s cDone)
    ∧ (schOp j.body = 1 → c.segOpen = false → (s.seg n).isOpen = false → ends (.segOpen id)
        ((s.setSeg n
          ⟨true, false, false, schBase j.body, schCap j.body, 0, j.ctx⟩).setCtx j.ctx { c with seg := n, segOpen := true }) cDone)
    ∧ (schOp j.body = 1 → c.segOpen = true ∨ (s.seg n).isOpen = true → ends (.segOpen id) s cBadDescriptor)
    ∧ (schOp j.body = 2 → c.segOpen = true → c.seg = n → ends (.segClose id)
        ((s.setSeg n { s.seg n with isOpen := false, closed := true }).setCtx j.ctx { c with seg := 0, segOpen := false }) cDone)
    ∧ (schOp j.body = 2 → c.segOpen = false ∨ c.seg ≠ n → ends (.segClose id) s cBadDescriptor)
    ∧ (schOp j.body = 3 → (∀ k ∈ s.sch.jobs, k.origin ≠ .replay id) → ends (.segReplay id) s cDone)
    ∧ (schOp j.body = 3 → (∃ k ∈ s.sch.jobs, k.origin = .replay id) → Completes (.segReplay id) s s)
/-! ### Matrix engines, vector engines, port 5 -/

/-- TILE (R163, R167, R168, R173): a command that runs alone in the FULL array ends with the code its computation earns, the
scratchpad holds what it wrote, and the array is free; a code other than DONE stands in `MXE_LAST_FAULT`. Every member of a joined
run ends in the one step. One of a packed pass ends alone, with its own code, and leaves its slot; it waits while it reads bytes
that an earlier command of the pass has yet to write. BATCH_WINDOW_CLOSE (R172): the open window's members start together, each at
its rows, and two or more are counted in `MXE_JOINED`. -/
def Obligations.TileRunsAndEnds : Prop :=
  (∀ (id code : Nat) (j : Job) (met : Bool) (s s1 : State), s.alive = true → s.job? id = some j → j.target = tMxe →
    j.phase = .running → let q := j.square
    let u := j.unit
    let e := s.mxeEng q u
    (∃ k, e.slots = [(k, id)] ∧ (e.shape = 0 → k = 0)) ∨ (e.shape ≠ 0 ∧ (∃ k, (k, id) ∈ e.slots) ∧ s.awaitsDrain q u id = false) →
    e.window = [] → (∃ k, s1.job? id = some k ∧ k.live = true) →
    s.atMostOneFault q e.counted (fun s => s.tileRun q u j.tile e.tol) = (code, met, s1) →
    CompletesIn (.tile id) s (fun t => (t.job? id).map (·.phase) = some (.ended code)
      ∧ t.squares.spad = s1.squares.spad ∧ (∀ k, (k, id) ∉ (t.mxeEng q u).slots)
      ∧ (q < 64 → u < 2 → code ≠ cDone → e.shape = 0 →
          t.reg (pgMxe q u) R.MXE_LAST_FAULT = word (code * 2 ^ 24 + 255 * 2 ^ 8 + 255))))
  ∧ (∀ (id : Nat) (j : Job) (s : State), s.alive = true → s.job? id = some j → j.target = tMxe → j.phase = .running →
      let e := s.mxeEng j.square j.unit
      (∃ k, (k, id) ∈ e.slots) →
      (e.shape ≠ 0 → s.awaitsDrain j.square j.unit id = true → Completes (.tile id) s s)
      ∧ (e.shape = 0 → (∀ x ∈ e.slots, ∃ m, s.job? x.2 = some m ∧ m.live = true) →
          CompletesIn (.tile id) s (fun t => ∀ x ∈ e.slots, ∃ c, (t.job? x.2).map (·.phase) = some (.ended c))))
  ∧ ∀ (q : Fin 64) (u : Fin 2) (s : State), s.alive = true →
      let e := s.mxeEng q.val u.val
      let s1 := s.setMxeEng q.val u.val { e with slots := s.memberPlaces 0 e.window, window := [], shape := 0, counted := false }
      (e.window = [] → Completes (.batchWindowClose q u) s s)
      ∧ (e.window.length = 1 → Completes (.batchWindowClose q u) s s1)
      ∧ (2 ≤ e.window.length → Completes (.batchWindowClose q u) s
          ((e.window.foldl (fun s i => s.modJob i (fun j => { j with run := e.window.headD 0 + 1 })) s1).bump (pgMxe q.val u.val)
            R.MXE_JOINED e.window.length))

/-- RUN, CHAIN_START, NOP, SEED, LOOP (R189, R192, R196, R208, R209, R211, R242): an idle engine takes up a running command's
program with its seed; the next chain starts at the present instruction and latches the active table bank if it looks tables
up; NOP and SEED move to the next instruction, and close their chain where no tap is open; SEED sets the seed; LOOP opens a level
at the next instruction, or skips a body of no iterations. After a chain or a LOOP the innermost loop whose body ends there goes
round again or closes, and a program at its end ends DONE. -/
def Obligations.VectorProgramsRun : Prop :=
  (∀ (id : Nat) (j : Job) (s : State), s.alive = true → s.job? id = some j → j.target = tVxe → j.phase = .running →
    s.vxeJob j.square j.unit = none →
    Completes (.run id) s (s.setVxeEng j.square j.unit { VxeEng.reset with job := some id, seed := runSeed j.body }))
  ∧ (∀ (q : Fin 64) (u : Fin 2) (j : Job) (s : State), s.alive = true → s.vxeJob q.val u.val = some j →
      let e := s.vxeEng q.val u.val
      let p := j.vprog
      let x := p.ins e.pc
      let pg := s.page (pgVxe q.val u.val)
      let set (y : VxeEng) := s.setVxeEng q.val u.val y
      let after (y : VxeEng) := s.vxeAfter q.val u.val j.id p y
      let closed (y : VxeEng) : VxeEng := { y with pc := e.pc + 1, chain := none, bank := none, emptyUse := false }
      let seeded : VxeEng := { e with seed := x.newSeed }
      let stop := e.pc + 1 + bitsOf x.imm 15 0
      (e.chain = none → x.op ≠ 1 → pg.st ≠ .draining ∨ pg.drain = true → Completes (.chainStart q u) s (set { e with
        chain := some e.pc, trap := none
        bank := if (p.chainAt e.pc).any (fun i => (p.ins i).isFunc) then some (s.sftActive q.val) else none }))
      ∧ (e.chain ≠ none → e.openTaps = [] →
          (x.op = 0 → Completes (.vNop q u) s (after (closed e))) ∧ (x.op = 2 → Completes (.vSeed q u) s (after (closed seeded))))
      ∧ (e.chain ≠ none → e.openTaps ≠ [] →
          (x.op = 0 → Completes (.vNop q u) s (set { e with pc := e.pc + 1 }))
          ∧ (x.op = 2 → Completes (.vSeed q u) s (set { seeded with pc := e.pc + 1 })))
      ∧ (x.op = 1 → x.count ≠ 0 → Completes (.vLoop q u) s (after { e with
          pc := e.pc + 1, loops := ⟨e.pc + 1, stop, x.count, 0⟩ :: e.loops }))
      ∧ (x.op = 1 → x.count = 0 → Completes (.vLoop q u) s (after { e with pc := stop })))
  ∧ ∀ (q u id : Nat) (p : VProg) (e : VxeEng) (s : State), e.loops.length ≤ 3 →
      (e.pc < p.len → (∀ l ∈ e.loops.head?, l.stop ≠ e.pc) → s.vxeAfter q u id p e = s.setVxeEng q u e)
      ∧ (∀ l rest, e.loops = l :: rest → l.stop = e.pc → l.iter + 1 < l.count → l.first < p.len → s.vxeAfter q u id p e =
          s.setVxeEng q u { e with pc := l.first, loops := { l with iter := l.iter + 1 } :: rest })
      ∧ (∀ l rest, e.loops = l :: rest → l.stop = e.pc → l.count ≤ l.iter + 1 →
          s.vxeAfter q u id p e = s.vxeAfter q u id p { e with loops := rest })
      ∧ (e.loops = [] → p.len ≤ e.pc → s.vxeAfter q u id p e =
          ((s.setVxeEng q u e).endJob id cDone).setVxeEng q u VxeEng.reset)

/-- Every vector instruction with operands (R196 to R199, R217, R218, R228, R231, R234, R255 to R275), of a chain that has started,
whose operands are read and whose opcode's function answers: with a tap as its destination the tap holds each result converted to
OUT_FMT, the taps it read are closed, and the engine stands at the next instruction; with a stream as its destination, or none, its
results are written, and where that closes the chain the program goes on, or ends NUMERIC_TRAP at the chain's first trap, and as the
last instruction of its program it ends DONE. A lost operand or result ends the program DATA_LOST and a lost table word UNIT_FAULT,
each with the chain's destinations unspecified. -/
def Obligations.VectorInstructionsRun : Prop :=
  ∀ (i : Instr) (q : Fin 64) (u : Fin 2) (op id : Nat) (f : VOp) (p : VProg) (e : VxeEng) (s s1 s2 : State) (m1 m2 : Bool)
    (got : Sum Nat (List Val × List Val × List Val × List Bool)), s.alive = true → vectorRow i = some (q, u, op, f) →
    s.vxeNow q.val u.val op = some (id, p, e) → e.chain ≠ none →
    let x := p.ins e.pc
    let n := p.count e.openTaps x
    let runs := e.execs.get (fun _ => 0) e.pc
    let breaks (t : State) (code operand pc : Nat) := Completes i s (t.vxeBreak q.val u.val id p code operand pc)
    s.atMostOneFault q.val false (fun s => s.vxeOperands q.val p e x n) = (got, m1, s1) →
    (∀ o, got = .inl o → breaks s1 cDataLost o e.pc)
    ∧ ∀ a b c act res, got = .inr (a, b, c, act) →
      let ctx : VCtx := ⟨x, n, a, b, c, act, e.seed, runs, e.scan⟩
      s1.atMostOneFault q.val false (f ctx) = (res, m2, s2) →
      (res = none → breaks s2 cUnitFault 15 e.pc)
      ∧ ∀ r, res = some r →
        let read := [x.a, x.b, x.c].foldl (fun t k => if isTapCode k then t.set (fun _ => none) k none else t) e.taps
        let outs := r.pres.zipIdx.map (fun (y : (Pre × Nat × Nat) × Nat) => (convertPre x (ctx.rand y.2) y.1.1 none, y.1.2))
        let evs : List TrapEv := outs.map (fun o => ⟨o.2.1, o.2.2, o.1.2⟩)
        let trapOf (evs : List TrapEv) : Option TrapAt :=
          if x.trap then firstTrap (x.op = 0x70 && bitOf x.opt 0) e.pc (r.early ++ evs) e.trap else e.trap
        let e1 (trap : Option TrapAt) : VxeEng := { e with
          pc := e.pc + 1
          execs := e.execs.set (fun _ => 0) e.pc (runs + 1)
          taps := read
          scan := r.scan.getD e.scan
          trap := trap
          emptyUse := e.emptyUse || r.noSlot }
        (isTapCode x.d = true → CompletesIn i s (fun t => t.vxeEng q.val u.val =
          { e1 (trapOf evs) with taps := read.set (fun _ => none) x.d (some (outs.map (fun o => o.1.1))) }))
        ∧ (∀ ok ws codes m3 s3, isTapCode x.d = false →
            s2.atMostOneFault q.val false (fun s =>
              if x.d = opNone then ((true, [], []), s)
              else
                let (ok, evs, codes, s1) := s.writeResults q.val ctx (p.desc x.d) e.indices r.pres
                ((ok, evs, codes), s1.mixWrites q.val p e x r.pres.length)) = ((ok, ws, codes), m3, s3) →
            let s4 := if r.empty = 0 then s3
              else (s3.bump (pgVxe q.val u.val) R.VXE_EMPTY_ROWS r.empty).statusAll (pgVxe q.val u.val) 5
            let s5 := if r.noSlot && !e.emptyUse then (s4.bump (pgSft q.val) R.SFT_EMPTY_USE 1).statusAll (pgSft q.val) 8 else s4
            let e2 := e1 (trapOf ws)
            (ok = false → breaks s3 cDataLost 3 e.pc)
            ∧ (ok = true → e2.openTaps ≠ [] → Completes i s (s5.setVxeEng q.val u.val e2))
            ∧ (ok = true → e2.openTaps = [] →
              (∀ z, e2.trap = some z → breaks ((s5.setVxeEng q.val u.val e2).setReg (pgVxe q.val u.val) R.VXE_TRAP_ELEM (word z.elem))
                cNumericTrap 15 z.pc)
              ∧ (e2.trap = none → Completes i s
                (s5.vxeAfter q.val u.val id p { e2 with chain := none, bank := none, emptyUse := false })
                ∧ (e.loops = [] → p.len = e.pc + 1 → (∃ k, s3.job? id = some k ∧ k.live = true) →
                  CompletesIn i s (fun t => (t.job? id).map (·.phase) = some (.ended cDone)
                    ∧ t.vxeEng q.val u.val = VxeEng.reset ∧ t.squares.spad = s3.squares.spad)))))

/-- A value that a format represents converts to its own code, whatever the rounding mode, without any trap condition (R34,
R38): every code but that of a NaN comes back, and an infinity comes back where the saturate flag is clear. -/
def Obligations.ConversionKeepsWhatAFormatHolds : Prop :=
  ∀ (f : Fmt) (code : Nat) (mode : Rnd) (sat : Bool) (r : Nat), code < 2 ^ f.width → (f.decode code).isNaN = false →
    (sat = true → (f.decode code).isInf = false) → f.convert mode sat r (f.decode code) = (code, Traps.none)

/-- SFT_LOAD, SFT_SWAP, SFT_RESTORE, SFT_SYNC, running, and SFT_BANK_RELEASED (R239 to R243, R246, R247): a load, restore or sync
waits while a running chain holds the inactive bank, and goes on when the bank is released; a load takes its images one by one, each
read, checked and written, and ends DONE behind the last, or with the code of the first that fails; a restore leaves the built-in
tables in the inactive bank, a sync the active bank's contents, each ending DONE; a swap makes the inactive bank active. -/
def Obligations.SegmentTableCommands : Prop :=
  ∀ (id : Nat) (j : Job) (q : Fin 64) (s : State), s.alive = true → s.job? id = some j → j.live = true → j.phase = .running →
    j.target = tSft → j.square = q.val →
    let bank := s.sftTarget q.val
    let i := s.sftWritten q.val
    let ended (t : State) := (t.job? id).map (·.phase) = some (.ended cDone)
    let current := s.sch.jobs.find? (fun j => decide (j.target = tSft) && decide (j.square = q.val) && j.isRunning) = some j
    (∀ op c, (op, c) ∈ [(1, Instr.sftLoad id), (3, .sftRestore id), (4, .sftSync id)] → sftOp j.body = op →
      (0 < s.bankHeld q.val bank → Completes c s s ∧ (current → Completes (.sftBankReleased q) s s))
      ∧ (s.bankHeld q.val bank = 0 → current → exec (.sftBankReleased q) s = exec c s))
    ∧ (∀ code met s1, sftOp j.body = 1 → s.bankHeld q.val bank = 0 → s.atMostOneFault q.val false (fun s =>
        s.sftLoadSlot q.val bank (sftSrc j.body + 4096 * i) (sftFirst j.body + i)) = (code, met, s1) →
        (code = cDone → i + 1 < sftCount j.body → Completes (.sftLoad id) s (s1.setSftWritten q.val (i + 1)))
        ∧ (code = cDone → sftCount j.body ≤ i + 1 → Completes (.sftLoad id) s ((s1.endJob id cDone).setSftWritten q.val 0))
        ∧ (code ≠ cDone → Completes (.sftLoad id) s (s1.sftEnd q.val id code)))
    ∧ (sftOp j.body = 2 → CompletesIn (.sftSwap id) s (fun t => t.sftActive q.val = bank ∧ ended t
        ∧ t.reg (pgSft q.val) R.SFT_SWAPS = s.reg (pgSft q.val) R.SFT_SWAPS + 1))
    ∧ (sftOp j.body = 3 → s.bankHeld q.val bank = 0 → CompletesIn (.sftRestore id) s (fun t => ended t
        ∧ ∀ n < 32, t.sftSlot q.val bank n = .builtin ∧ t.sftSlot q.val (1 - bank) n = s.sftSlot q.val (1 - bank) n))
    ∧ (sftOp j.body = 4 → s.bankHeld q.val bank = 0 → (∀ n w, s.sftMark q.val (1 - bank) n w = 0) →
        CompletesIn (.sftSync id) s (fun t => ended t ∧ ∀ n < 32, t.sftSlot q.val bank n = s.sftSlot q.val (1 - bank) n))
    ∧ (∀ code met s1, sftOp j.body = 4 → s.bankHeld q.val bank = 0 →
        s.atMostOneFault q.val false (State.sftSyncSlots q.val (1 - bank) bank (List.range 32)) = (code, met, s1) →
        Completes (.sftSync id) s (s1.sftEnd q.val id code))
/-! ### Movers, the update units, collectives -/

/-- COPY, GATHER, SCATTER, FILL, running (R287 to R299, R313 to R315): a command with no window left ends DONE; at the end of a
window it ends ABORTED where its page drains under DRAIN 0. Of a window not yet made, what it reads and makes decides: it waits
for an answer, ends with the code and side of a failure (its window unspecified, but for INDEX_RANGE and ALIAS_WRITE), ends
NUMERIC_TRAP with its whole destination unspecified, or counts its bytes and goes on to write them. Of a window being written, the
writes go out in order; a failure ends the command, and once all are answered the next window begins. A command of one window,
made and written at once, ends DONE in the one step. DECRYPT, running (R300 to R303, R314, R315, R493): with every chunk done it
ends DONE; at the end of a chunk it ends ABORTED where its page drains under DRAIN 0; without a key KEY_ABSENT; a chunk that
cannot be read ends it with the failure's code, one whose tag fails TAG_MISMATCH, which counts; a chunk that opens is written and
the next begins, and the last one ends it DONE. PLAN (R308, R310): a specification or device list that cannot be read ends it with
the failure's code; one that is not accepted, overlaps its table or names a device twice BAD_DESCRIPTOR; a table outside the
partition's places PARTITION_FAULT; else the table is written whole and the command ends DONE. Each waits where its places are not
ready. -/
def Obligations.MoverCommandsRun : Prop :=
  ∀ (id : Nat) (j : Job) (s : State), s.alive = true → s.job? id = some j → j.phase = .running → j.target = tMov →
    let c := j.movCmd
    let q := j.square
    let ch := s.movProgress j
    let left := State.movWindows j c (2 * ceilDiv c.elems winSize + 1)
    let stops := (s.atBoundary j && s.movAborts q) = true
    let chunk := c.chunk0 + ch.window
    let go (x : Instr) (t : State) : Prop := Completes x s t
    (∀ x ∈ [(mCopy, Instr.copy id), (mGather, .gather id), (mScatter, .scatter id), (mFill, .fill id)], c.op = x.1 →
      let go := go x.2
      (c.elems ≤ ch.window * winSize → go (s.movEnd j cDone sideNone 0))
      ∧ (ch.window * winSize < c.elems → stops → go (s.movEnd j cAborted sideNone (ch.window * winSize)))
      ∧ (∀ r met s1, ch.window * winSize < c.elems → ¬ stops → ch.writing = false →
          s.atMostOneFault q false (fun s => s.movWindow j c ch) = (r, met, s1) →
          (r = .wait → go s1)
          ∧ (∀ code side pos, r = .fail code side pos →
              (code = cIndexRange ∨ code = cAliasWrite → go (s1.movEnd j code side pos))
              ∧ (code ≠ cIndexRange → code ≠ cAliasWrite → go (s1.movBreak j code side pos)))
          ∧ (∀ out seen saved, r = .ok (out, seen, saved) →
              let rs := outRuns out.bytes
              let s2 := (s1.countMoved q (rs.map (fun r => r.2.length)).sum).bump (pgMov q) R.MOV_COALESCED saved
              let s3 := (s2.dropTxs j).modMov j (fun ch => { ch with present := seen, writing := true, out := rs })
              (∀ k, c.trap = true → out.trap = some k → go
                ((s1.movOpenItems j ((List.range (ceilDiv c.elems winSize)).flatMap (s1.windowItems j c))).movEnd j cNumericTrap sideDst k))
              ∧ (c.trap = false ∨ out.trap = none → go (left s3)
                ∧ ∀ s4, ch.window = 0 → c.elems ≤ winSize → (s1.movProgress j).window = 0 → State.putRuns j rs s3 = (none, [], s4) →
                  let s5 := s4.modMov j (fun ch => { ch with out := [] })
                  (s4.movProgress j).window = 0 → s5.writesDone j.id = .ok () →
                  go (((s5.dropTxs j).modMov j MovChan.next).movEnd j cDone sideNone 0))))
      ∧ (∀ bad rest s1, ch.window * winSize < c.elems → ¬ stops → ch.writing = true → State.putRuns j ch.out s = (bad, rest, s1) →
          let s2 := s1.modMov j (fun ch => { ch with out := rest })
          (∀ code, bad = some code → go (s1.movBreak j code sideDst (s1.badWrite j c)))
          ∧ (bad = none → s2.writesDone j.id = .wait → go s2)
          ∧ (∀ code side k, bad = none → s2.writesDone j.id = .fail code side k → go (s2.movBreak j code side (s2.badWrite j c)))
          ∧ (bad = none → s2.writesDone j.id = .ok () → rest ≠ [] → go s2)
          ∧ (bad = none → s2.writesDone j.id = .ok () → rest = [] → go (left ((s2.dropTxs j).modMov j MovChan.next)))))
    ∧ (c.op = mDecrypt →
      (c.chunks ≤ ch.window → go (.decrypt id) (s.movEnd j cDone sideNone 0))
      ∧ (ch.window < c.chunks → stops → go (.decrypt id) (s.movEnd j cAborted sideNone chunk))
      ∧ (ch.window < c.chunks → ¬ stops → s.chunkKey j c = none → go (.decrypt id) (s.movEnd j cKeyAbsent sideKey chunk))
      ∧ ∀ key r met s1, ch.window < c.chunks → ¬ stops → s.chunkKey j c = some key →
        s.atMostOneFault q false (fun s =>
          (s.modMov j (fun ch => { ch with key := some key })).fetch j (c.chunkRuns ch.window) sideSrc) = (r, met, s1) →
        let len := min 65536 (nth 0 c.ext 0 - 65536 * ch.window)
        let a := c.src.addr + 65536 * ch.window
        let t := c.src.saddr + 16 * ch.window
        (r = .wait → go (.decrypt id) s1)
        ∧ (∀ code side pos, r = .fail code side pos →
            go (.decrypt id) (s1.movBreak j code (if s1.lost j (t, 16) then sideKey else side) chunk))
        ∧ ∀ fetched, r = .ok fetched →
          let opened := Config.gcmOpen key (gcmIv c.nonce chunk) (gcmAad c.nonce chunk c.nchunks)
            ((span (s1.canonAddr a) len).map fetched.byte) ((span (s1.canonAddr t) 16).map fetched.byte)
          (opened = none → go (.decrypt id)
            (((s1.bump (pgMov q) R.MOV_TAG_FAIL 1).record 0x13 j.part c.keySlot 1).movEnd j cTagMismatch sideKey chunk))
          ∧ ∀ plain, opened = some plain →
            let out := (chunks 2048 ((List.range len).map (nth 0#8 plain))).zipIdx.map (fun (b, k) =>
              (hereDev * 2 ^ 48 + localOf c.dst.addr + 65536 * ch.window + 2048 * k, b))
            (out.all (s1.runReady j) = false → go (.decrypt id) s1)
            ∧ ∀ bad rest s2, out.all (s1.runReady j) = true → State.putRuns j out (s1.dropTxs j) = (bad, rest, s2) →
              let s3 := (s2.countMoved q len).modMov j MovChan.next
              (∀ code, bad = some code → go (.decrypt id) (s2.movBreak j code sideDst chunk))
              ∧ (bad = none → go (.decrypt id) (State.decryptChunks j c c.chunks s3))
              ∧ (bad = none → c.chunks ≤ (s3.movProgress j).window → go (.decrypt id) (s3.movEnd j cDone sideNone 0)))
    ∧ (∀ r met s1, c.op = mPlan → s.atMostOneFault q false (fun s => s.fetch j [(c.src.addr, 128)] sideSrc) = (r, met, s1) →
        (r = .wait → go (.plan id) s1)
        ∧ (∀ code side pos, r = .fail code side pos → go (.plan id) (s1.movEnd j code side 0))
        ∧ ∀ f, r = .ok f →
          let base := s1.canonAddr c.src.addr
          let x := ShardSpec.parse ((List.range 16).map (fun i => BitVec.ofNat 64 (f.code ((base + 8 * i) * 8) 64)))
          let ok := x.accepted = true ∧ s1.planOverlaps c x = false
          (¬ ok → go (.plan id) (s1.movEnd j cBadDescriptor sideSrc 0))
          ∧ ∀ r2 met2 s2, ok → s1.atMostOneFault q false (fun s =>
              s.fetch j ((List.range x.devices).map (fun i => (c.src.addr + 128 + 2 * i, 2))) sideSrc) = (r2, met2, s2) →
            (r2 = .wait → go (.plan id) s2)
            ∧ (∀ code side pos, r2 = .fail code side pos → go (.plan id) (s2.movEnd j code side 0))
            ∧ ∀ g, r2 = .ok g →
              let devs := (List.range x.devices).map (fun i => g.code ((base + 128 + 2 * i) * 8) 16)
              let me := findIdxFrom (· = s2.devId.toNat) 0 devs
              let bytes := x.header.flatMap (fun h => leBytes 8 h) ++ (List.range (prodNat x.nb)).flatMap (fun e =>
                leBytes 8 (x.entry devs me e).1 ++ leBytes 8 (x.entry devs me e).2)
              let a := localOf c.dst.addr
              let out := (chunks 2048 bytes).zipIdx.map (fun (b, k) => (hereDev * 2 ^ 48 + a + 2048 * k, b))
              let placed := s2.localAllowed j.part a bytes.length = true
              (devs.eraseDups.length ≠ devs.length → go (.plan id) (s2.movEnd j cBadDescriptor sideSrc 0))
              ∧ (devs.eraseDups.length = devs.length → ¬ placed → go (.plan id) (s2.movEnd j cPartitionFault sideDst 0))
              ∧ (devs.eraseDups.length = devs.length → placed → out.all (s2.runReady j) = false → go (.plan id) s2)
              ∧ ∀ bad rest s3, devs.eraseDups.length = devs.length → placed → out.all (s2.runReady j) = true →
                  State.putRuns j out s2 = (bad, rest, s3) →
                (∀ code, bad = some code → go (.plan id) ((s3.countMoved q bytes.length).movEnd j code sideDst 0))
                ∧ (bad = none → go (.plan id) ((s3.countMoved q bytes.length).movEnd j cDone sideNone 0)))

/-- UPDATE (R355, R356, R358, R360, R368, R370, R373): a running update whose places are served goes on to its next boundary: its
bitmap is read; a block of pass 1 or 2 is made, or ends it with the block's code; the squares are combined; X is formed; the
matrix phase sends and takes tiles; and behind its last block it ends DONE. Where its queue aborts it ends ABORTED there, once
none of its tiles runs; it waits where a place is not served. The HOST_RULE path (R362 to R364): its start sets HOST_REQ on the
coordinating unit; the host's write of a pending group completes it DONE, of a group that is not pending is ignored with
CMD_IGNORED; when HOST_BUDGET has passed it ends ABORTED. -/
def Obligations.UpdateCommandsRun : Prop :=
  ∀ (s : State), s.alive = true →
    (∀ id j, s.job? id = some j → j.target = tUpd → j.phase = .running → j.layer.host = false →
      let l := j.layer
      let e := s.updProgress id
      let s0 := s.setUpd e
      let tiles := s.sch.jobs.any (fun j => decide (j.origin = .unit id) && j.isRunning)
      let go (t : State) : Prop := Completes (.update id) s t
      (s.updAborts j.part = true → tiles = true → go (s.dropTiles id))
      ∧ (s.updAborts j.part = true → tiles = false → go (s.updEnd id cAborted noBlock))
      ∧ (s.updAborts j.part = false → s.updServed l = false → go s)
      ∧ (s.updAborts j.part = false → s.updServed l = true →
        (∀ c s1, e.stage = .bitmap → s0.updPresent j.part l = (.inl c, s1) → go (s1.updEnd id c noBlock))
        ∧ (∀ bs s1, e.stage = .bitmap → s0.updPresent j.part l = (.inr bs, s1) → go (s1.setUpd { e with stage := .pass1, left := bs }))
        ∧ (∀ b t c s1, e.stage = .pass1 → e.left = b :: t → s0.updBlock1 j.part j.body l (updK j.body l) b = (.inl c, s1) →
            go (s1.updEnd id c b))
        ∧ (∀ b t dl ms s1, e.stage = .pass1 → e.left = b :: t →
            s0.updBlock1 j.part j.body l (updK j.body l) b = (.inr (dl, ms), s1) →
            go (s1.setUpd { e with
              left := t, delta := e.delta ++ [(b, dl)], sum := if l.twoPass then addSquares e.sum ms else e.sum
              count := e.count + l.blockLen b }))
        ∧ (e.stage = .pass1 → e.left = [] → l.twoPass = true → go (s0.setUpd { e with stage := .combine }))
        ∧ (e.stage = .pass1 → e.left = [] → l.twoPass = false → go (s0.updEnd id cDone noBlock))
        ∧ (e.stage = .combine → go (s0.updCombine l))
        ∧ (e.stage = .start → go (s0.orthoStart j l))
        ∧ (e.stage = .product → go (s0.orthoStep j l))
        ∧ (∀ b t r s1, e.stage = .pass2 → e.left = b :: t → s0.updBlock2 j.part j.body l (updK j.body l) b
              (((e.delta.find? (fun x => x.1 = b)).map (·.2)).getD 0) e.factor = (r, s1) →
            (∀ c, r = some c → go (s1.updEnd id c b)) ∧ (r = none → go (s1.setUpd { e with left := t })))
        ∧ (e.stage = .pass2 → e.left = [] → go (s0.updEnd id cDone noBlock))))
    ∧ (∀ j k, s.nextFor 512 (fun j => j.layer.host && (s.hostJob j.layer.group).isNone) = some j → s.updCoord = some k →
        Completes (.engineCommandStart .upd) s ((s.startJob j.id).statusAll (pgUpd k) 4))
    ∧ (∀ j, s.nextFor 512 (fun j => j.layer.host && (s.hostJob j.layer.group).isNone) = none → s.updJob = none → s.updReady = true →
        s.nextFor 512 (fun j => !j.layer.host) = some j → Completes (.engineCommandStart .upd) s (s.startJob j.id))
    ∧ (∀ r v k, s.updCoord = some k → s.present (pgUpd k) = true → s.mayWrite r (pgUpd k) R.UPD_HOST_DONE false = true →
        (∀ j, s.hostJob (wbits v 7 0) = some j → Completes (.updHostDone r v) s (s.updEnd j.id cDone noBlock))
        ∧ (s.hostJob (wbits v 7 0) = none → Completes (.updHostDone r v) s (s.cmdIgnored (s.reqPart r) (pgUpd k))))
    ∧ (∀ group j, s.hostJob group = some j →
        Completes (.hostBudgetExpiry group) s ((s.reach (j.promise + j.layer.budget)).updEnd j.id cAborted noBlock))

/-- The eight collectives, accepted and running (R450, R455, R460, R463, R464): the source is read once, the counts received are
written where there are counts, the member's streams are sent, and what has arrived is taken; a source that cannot be read ends the
collective with its code, and one that is not served is waited for; a collective whose data moves takes what it can. A BARRIER,
which owes nothing, ends DONE, and a collective one of whose packets found no way out ends LINK_DOWN. JOIN_TIMEOUT (R458): a join
round that has not completed ends LINK_DOWN. -/
def Obligations.CollectivesMoveTheirData : Prop :=
  ∀ (id : Nat) (co : Coll) (j : Job) (s : State), s.alive = true → s.coll? id = some co → s.job? id = some j →
    let c := ColCmd.parse j.body
    let g := s.grp co.grp
    let counts := ((co.offers.find? (fun o => o.rank = g.rank)).map (fun o => o.counts.map (·.toNat))).getD []
    let n := if c.op = cAllToAllv then (counts.map c.bytes).sum else c.bytes (c.srcElems g)
    (j.phase = .running → co.phase = .accepted → s.colServes = true →
      ∀ x ∈ [(cAllGather, Instr.allGather id), (cReduceScatter, .reduceScatter id), (cAllReduce, .allReduce id),
        (cBroadcast, .broadcast id), (cReduce, .reduce id), (cAllToAll, .allToAll id), (cAllToAllv, .allToAllv id),
        (cBarrier, .barrier id)], c.op = x.1 →
        (co.moving = true → Completes x.2 s (s.colMove id))
        ∧ (co.moving = true → co.lost = true → Completes x.2 s (s.colFail id cLinkDown))
        ∧ (∀ k s1, co.moving = false → n ≠ 0 → s.localRead co.part none s.devId.toNat c.src n = (.fail k, s1) →
            Completes x.2 s (s1.colFail id k))
        ∧ (co.moving = false → n ≠ 0 → (s.localRead co.part none s.devId.toNat c.src n).1 = .wait → Completes x.2 s s)
        ∧ (∀ src s1 s2, co.moving = false →
            (n = 0 ∧ src = [] ∧ s1 = s) ∨ (n ≠ 0 ∧ s.localRead co.part none s.devId.toNat c.src n = (.ok src, s1)) →
            s1.colWriteCounts co c = (.ok (), s2) → Completes x.2 s
              (((s2.modColl id (fun k => { k with moving := true, owed := c.owes g co.offers })).colSendOrFail id
                (c.firstMsgs g counts src)).colMove id)))
    ∧ (j.phase = .running → co.phase = .accepted → s.colServes = true → c.op = cBarrier →
        co.lost = false → co.moving = false → co.early = [] →
        CompletesIn (.barrier id) s (fun t => (t.job? id).map (·.phase) = some (.ended cDone) ∧ t.coll? id = none))
    ∧ (co.phase = .joining → co.complete = false → Completes (.joinTimeout id) s
        ((s.reach (co.startAt + 1000 * wbits (s.regB co.part pgCol R.COL_JOIN_TIMEOUT) 23 0)).colFail id cLinkDown))

/-- JOIN, OFFER, UP, DOWN, PEER, ABORT, past the checks of R428 (R457, R459 to R461, R464, R465): a packet is kept while the COL
page does not serve, or when its SEQ is one that its group has yet to take; one that belongs to no collective of this member, or
whose sender is no member, is dropped and counted. A JOIN marks its node joined and an OFFER replaces its sender's, and the round
goes on, as it does when JOIN comes back from the tree's top; an UP, DOWN or PEER piece joins those to be taken; an ABORT ends the
collective with the code it carries. -/
def Obligations.CollectivePacketsAreTaken : Prop :=
  ∀ (p : Packet) (s s1 : State), s.alive = true → p.type = ptCollective → s.verdict p = (.ok, s1) →
    ∀ x ∈ [(kJoin, Instr.join p), (kOffer, .offer p), (kUp, .up p), (kDown, .down p), (kPeer, .peer p), (kAbort, .abort p)],
      colKind p = x.1 →
      let keep := { s1 with col := { s1.col with held := s1.col.held ++ [p] } }
      let drop := s1.bumpB p.part pgCol R.COL_DROP 1
      let mine := s1.colls.find? (fun c => c.part = p.part && c.grp = colGroup p && c.seq = colSeq p)
      (s1.colServes = false → Completes x.2 s keep)
      ∧ (s1.colServes = true → mine = none → s1.colFuture p = true → Completes x.2 s keep)
      ∧ (s1.colServes = true → mine = none → s1.colFuture p = false → Completes x.2 s drop)
      ∧ (∀ co, s1.colServes = true → mine = some co → (s1.grp co.grp).rankOf p.src = none → Completes x.2 s drop)
      ∧ (∀ co r, s1.colServes = true → mine = some co → (s1.grp co.grp).rankOf p.src = some r →
          (x.1 = kJoin → colLevel p ≠ joinedLevel → Completes x.2 s ((s1.modColl co.job (fun c =>
            { c with joined := c.joined ++ [(colLevel p, colChunk p)] })).colAdvance co.job))
          ∧ (x.1 = kJoin → colLevel p = joinedLevel → Completes x.2 s ((s1.modColl co.job (fun c =>
            if c.complete then c else { c with complete := true, g := s1.now })).colAdvance co.job))
          ∧ (x.1 = kOffer → Completes x.2 s ((s1.modColl co.job (fun c => { c with
              offers := c.offers.filter (fun o => o.rank ≠ r) ++ [Offer.decode r (colData p)] })).colAdvance co.job))
          ∧ (x.1 = kUp ∨ x.1 = kDown ∨ x.1 = kPeer →
              Completes x.2 s ((s1.modColl co.job (fun c => { c with early := c.early ++ [p] })).colMove co.job))
          ∧ (x.1 = kAbort → Completes x.2 s (s1.colEnd co.job ((colData p).headD 0#8).toNat r false true)))

/-! ### Memory controllers, spares, power and the safe state -/

/-- The memory controllers and port 7 of their own accord (R118, R120, R326 to R329, R331, R334, R336, R337, R342, R343, R345). A
scratchpad scrub moves to the next row of its bank, and after the last row to the next bank, and corrects a word with a single-bit
error; it stands still while `ENABLE` is 0, and a scrub of a bank whose turn it is not changes nothing. A patrol scrub reads the
next granule index of each channel that serves, and finds what stands there; a channel in a copy waits, as every channel does while
a region is overwritten, while the scrub is off and on a stack that is OFF or absent. A refresh shows the stack's temperature and a
share within its bound, and sets HOT as 95 °C is passed. An access is answered, denied, or held while a stack is not RUNNING or its
partition holds no memory slot. A spare whose copy is done serves the logical channel, its granules corrected where they can be; an
overwritten region passes to its new holder with contents that nothing states. -/
def Obligations.MemoryControllersWork : Prop :=
  (∀ (p : Fin 72) (bank : Fin 64) (s : State), s.alive = true →
    let at' := s.squares.scrubPos.get (fun _ => 0) p.val
    let ws := span ((p.val * spadSize + at' % 768 * 32768 + at' / 768 * 512) / 8) 64
    let moved := { s with squares := { s.squares with scrubPos := s.squares.scrubPos.set (fun _ => 0) p.val ((at' + 1) % 49152) } }
    let only (w : Nat) := w ∈ ws ∧ s.spadMark w = 1 ∧ ∀ v ∈ ws, v ≠ w → s.spadMark v ≠ 1
    (at' / 768 ≠ bank.val → Completes (.scratchpadScrub p bank) s s)
    ∧ (at' / 768 = bank.val →
    (s.nameAt p.val = none → (∀ w ∈ ws, s.spadMark w ≠ 1) → Completes (.scratchpadScrub p bank) s moved)
    ∧ (s.nameAt p.val = none → ∀ w, only w → Completes (.scratchpadScrub p bank) s (moved.setSpadMark w 0))
    ∧ ∀ q, s.nameAt p.val = some q →
      ((s.reg (pgSpd q) R.SPD_SCRUB).getLsbD 0 = false → Completes (.scratchpadScrub p bank) s s)
      ∧ ((s.reg (pgSpd q) R.SPD_SCRUB).getLsbD 0 = true →
          ((∀ w ∈ ws, s.spadMark w ≠ 1) → Completes (.scratchpadScrub p bank) s moved)
          ∧ ∀ w, only w → Completes (.scratchpadScrub p bank) s (moved.spadFind q w true).2)))
  ∧ (∀ (k : Fin 8) (s : State), s.alive = true →
      let scrubs := s.stackFitted k.val = true ∧ s.pstate (pgMem k.val) ≠ .off ∧ (s.reg (pgMem k.val) R.MEM_SCRUB).getLsbD 16 = true
        ∧ s.mem.cutOff = []
      (¬ scrubs → Completes (.patrolScrub k) s s)
      ∧ (scrubs → Completes (.patrolScrub k) s ((List.range 136).foldl (State.scrubChan k.val) s))
      ∧ ∀ ch, ((s.chan k.val ch).st ≠ .serving → s.scrubChan k.val ch = s)
        ∧ ((s.chan k.val ch).st = .serving →
            let key := k.val * 136 + ch
            let i := s.mem.scrubPos.get (fun _ => 0) key
            let moved (t : State) :=
              { t with mem := { t.mem with scrubPos := t.mem.scrubPos.set (fun _ => 0) key ((i + 1) % 2 ^ 23) } }
            (s.scrubHits k.val ch i = [] → s.scrubChan k.val ch = moved s)
            ∧ ∀ g, s.scrubHits k.val ch i = [g] → s.scrubChan k.val ch = moved (s.memFind g).2))
  ∧ (∀ (k : Fin 8) (temp : Nat) (s : State), s.alive = true →
      (s.stackFitted k.val = false ∨ s.pstate (pgMem k.val) = .off → Completes (.refresh k temp) s s)
      ∧ (s.stackFitted k.val = true → s.pstate (pgMem k.val) ≠ .off →
          CompletesIn (.refresh k temp) s (fun t => let r := t.reg (pgMem k.val) R.MEM_REFRESH
            wbits r 31 24 = min temp 255 ∧ wbits r 7 0 < (if 95 < temp then 157 else 79)
            ∧ (95 < temp → wbits (s.reg (pgMem k.val) R.MEM_REFRESH) 31 24 ≤ 95 →
                ∀ p, (t.regB (intBank p (pgMem k.val)) (pgMem k.val) hIntStatus).getLsbD 8 = true)
            ∧ ∀ a, t.memByte a = s.memByte a)))
  ∧ (∀ (part : Fin 16) (addr : BitVec 48) (size : Nat) (write : Option (List Byte)) (s : State), s.alive = true →
      let c := Instr.memoryAccess part addr size write
      let n := (write.map List.length).getD size
      let say (t : State) (code : Nat) (bs : List Byte) := { t with out := t.out ++ [.memory part addr.toNat code bs] }
      (s.memAllowed part addr.toNat n = false → Completes c s (say (s.countDenied part s.devId.toNat) cPartitionFault []))
      ∧ (s.memAllowed part addr.toNat n = true → s.memReady part addr.toNat n = false →
          Completes c s { s with mem := { s.mem with held := s.mem.held ++ [⟨part, addr.toNat, n, write⟩] } })
      ∧ (s.memAllowed part addr.toNat n = true → s.memReady part addr.toNat n = true →
          (∀ bs s1, write = none → s.memReadRaw addr.toNat n = (.ok bs, s1) → Completes c s (say s1 cDone bs))
          ∧ (∀ bs s1, write = some bs → s.memWriteRaw addr.toNat (bs.map Cell.known) = (.ok (), s1) →
            Completes c s (say s1 cDone []))
          ∧ (∀ bs code s1, write = none ∧ s.memReadRaw addr.toNat n = (.fail code, s1)
              ∨ write = some bs ∧ s.memWriteRaw addr.toNat (bs.map Cell.known) = (.fail code, s1) → Completes c s (say s1 code []))))
  ∧ (∀ (k j : Fin 8) (s : State), s.alive = true → let x := s.spare k.val j.val
      (x.phase ≠ 1 ∨ s.pstate (pgMem k.val) = .off → Completes (.spareCopyDone k j) s s)
      ∧ (x.phase = 1 → s.pstate (pgMem k.val) ≠ .off → x.source ≠ 128 + j.val → CompletesIn (.spareCopyDone k j) s (fun t =>
          t.chan k.val (128 + j.val) = ⟨.serving, x.logical⟩ ∧ t.chan k.val x.source = ⟨.retired, x.logical⟩
          ∧ t.spare k.val j.val = { x with phase := 2, progress := 2 ^ 23 - 1 }
          ∧ (∀ g, s.granStack g = k.val → (place g s.nStacks).2.1 = x.logical → s.memMark g ≤ 2 → t.memMark g = 0)
          ∧ ∀ pn, pn = pgMem k.val ∨ pn = pgMch k.val (x.source / 8 + 1) →
              ∀ p, (t.regB (intBank p pn) pn hIntStatus).getLsbD 6 = true)))
  ∧ ∀ (region : Fin 512) (s : State), s.alive = true →
      let dark := ∃ k ∈ s.sys.variant.stacks, s.pstate (pgMem k) = .off
      (s.mem.cutOff = [] → Completes (.regionOverwriteDone region) s s)
      ∧ ∀ (x : Nat) (p : Fin 16) (rest : List (Nat × Fin 16)), s.mem.cutOff = (x, p) :: rest →
        (x ≠ region.val ∨ dark → Completes (.regionOverwriteDone region) s s)
        ∧ (x = region.val → ¬ dark → Completes (.regionOverwriteDone region) s { s with mem := { s.mem with
            cells := s.mem.cells.keep (fun a => decide (a / 2 ^ 30 ≠ x))
            mark := s.mem.mark.keep (fun g => decide (g * 64 / 2 ^ 30 ≠ x))
            regionEra := s.mem.regionEra.set (fun _ => 0) x (s.regionEra x + 1)
            regionOwner := s.mem.regionOwner.set (fun _ => 0) x p
            cutOff := rest } })

/-- Spares and the field self-test (R23, R534 to R536, R577 to R582): the square that has waited longest takes the lowest free
spare, its pages start again where ENABLE is set, a self-gated page being gated no longer, and REMAPPED is set. One square is tested
at a time, the others wait; a test starts on the lowest free spare, and while none is free every square that waits is put off by a
minute. The copy-out hands the name over once nothing is under way on the square and its pawns stand between instructions; a pass
leads to the copy-back and that to the spare's return, a failure, or a regulator that has failed meanwhile, retires the position; an
abandoned test is tried again. -/
def Obligations.SparesAndSelfTests : Prop :=
  (∀ (q : Fin 64) (us : Nat) (rest : List (Fin 64)) (s : State), s.alive = true → s.squares.promotions = q :: rest →
    s.arbiterRuns = true → s.sys.devState ≠ .safe → s.arb.test = none →
    (∀ j, s.lowSpare = some j → CompletesIn (.squarePromotion q us) s (fun t => t.phys q.val = s.sparePos j
      ∧ bitOf t.freeSpares j = false ∧ t.squares.promotions = rest
      ∧ (∀ p, (t.regB (intBank p (pgSq q.val 0)) (pgSq q.val 0) hIntStatus).getLsbD 4 = true)
      ∧ ∀ pn ∈ sqPages q.val, (t.page pn).st = (if (s.page pn).enable ∧ blockAt pn = .sq then .starting else .off)
          ∧ (t.page pn).enable = (s.page pn).enable ∧ (t.page pn).pendingEn = ((s.page pn).enable && blockAt pn ≠ .sq)))
    ∧ (s.lowSpare = none →
        Completes (.squarePromotion q us) s ({ s with squares := { s.squares with promotions := rest } }).nextTest))
  ∧ (∀ (c : Instr) (q : Fin 64) (s s1 : State), s.alive = true →
      (c = .selftest q.val ∧ s1 = s) ∨ (c = .selftestRetry q ∧ ∃ r, s.arb.retries.find? (fun r => r.1 = q) = some r
        ∧ s1 = ({ s with arb := { s.arb with retries := s.arb.retries.erase r } }).reach r.2) →
      s1.arbiterRuns = true → s1.sys.devState = .ready →
      let asked := s1.arb.tests ++ [q]
      let able (q : Fin 64) : Bool := decide ((s1.page (pgSq q.val 0)).st ≠ .retired)
      (∀ x, s1.arb.test = some x → Completes c s { s1 with arb := { s1.arb with tests := asked } })
      ∧ (s1.arb.test = none → s1.lowSpare = none → CompletesIn c s (fun t => t.arb.test = none ∧ t.arb.tests = []
          ∧ t.arb.retries = s1.arb.retries ++ (asked.filter able).map (fun q => (q, s1.now + 60000000000))))
      ∧ (s1.arb.test = none → ∀ j, s1.lowSpare = some j → ∀ out q' rest, asked = out ++ q' :: rest → out.any able = false →
          able q' = true → CompletesIn c s (fun t => bitOf t.freeSpares j = false ∧ t.arb.tests = rest
            ∧ t.arb.test = some ⟨q', s1.phys q'.val, s1.sparePos j, .copyOut, s1.now, false⟩)))
  ∧ (∀ (s : State), s.alive = true → s.arbiterRuns = true →
      (∀ h, Completes (.selftestPeriod h) s { s with arb := { s.arb with period := h } })
      ∧ (∀ n, 64 < n → Completes (.selftest n) s s)
      ∧ (s.arb.period = 0 → Completes .selftestCycle s s)
      ∧ ∀ c, c = .selftest 64 ∨ c = .selftestCycle ∧ s.arb.period ≠ 0 → s.sys.devState = .ready →
          Completes c s ({ s with arb := { s.arb with tests := s.arb.tests ++ List.finRange 64 } }).nextTest)
  ∧ ∀ (x : SelfTest) (s : State), s.alive = true → s.arb.test = some x → s.arb.tests = [] →
      let q := x.square.val
      let idle := s.squareIdle q = true ∧ ∀ k < 4, s.pawnOpen (s.phys q) k = false
      let sound := s.squares.retiredPhys.get (fun _ => false) x.phys = false
      let free (t : State) (j : Nat) := t.arb.test = none ∧ t.squares.standin.get (fun _ => false) q = false ∧ bitOf t.freeSpares j = true
      (¬ idle ∨ x.phase = .testing → Completes .copyOutComplete s s)
      ∧ (idle → x.phase = .copyOut → CompletesIn .copyOutComplete s (fun t => t.phys q = x.standin
          ∧ t.squares.standin.get (fun _ => false) q = true ∧ t.arb.test = some { x with phase := .testing, since := s.now }))
      ∧ (∀ j, s.spareAt x.standin = some j →
          (idle → x.phase = .copyBack → CompletesIn .copyOutComplete s (fun t => t.phys q = x.phys ∧ free t j))
          ∧ (x.phase = .testing → x.solo = true → sound →
            CompletesIn (.selfTestComplete true) s (fun t => t.sparePos j = x.phys ∧ free t j))
          ∧ (x.phase = .copyOut → CompletesIn .selftestAbandon s (fun t => free t j
              ∧ t.arb.retries = s.arb.retries ++ [(x.square, s.now + 60000000000)])))
      ∧ (x.phase = .testing → x.solo = false → sound → Completes (.selfTestComplete true) s { s with
          arb := { s.arb with test := some { x with phase := .copyBack, since := s.now } } })
      ∧ (x.phase = .testing → ∀ pass, pass = false ∨ ¬ sound → CompletesIn (.selfTestComplete pass) s (fun t => t.arb.test = none
          ∧ t.squares.retiredPhys.get (fun _ => false) x.phys = true ∧ ∀ j, t.phys j = s.phys j))
      ∧ (x.phase ≠ .testing → ∀ pass, Completes (.selfTestComplete pass) s s)
      ∧ (x.phase ≠ .copyOut → Completes .selftestAbandon s s)

/-- The power input and the start-up sequence (R484, R519, R525, R565, R567, R570 to R576, R592): VBUS below 36 V takes the
power, rising to 39 V gives it, above 62 V it leads to the safe state; `RST_N` empties the scoresheet, and its release samples
the straps. Each step of start-up comes after the one before, waits for the clock, the auxiliary supply and the links, and
leads to the safe state where a component fails its check, the image is below the anti-rollback count, or the central block or
a stack fails its test. Local time stands until the PLL has locked, at most 50 µs after the first step and before the second
ends (R109). The powered units stand in TESTING until their test is over (R70, R74); then none of them is RUNNING yet. -/
def Obligations.PowerAndStartUp : Prop :=
  (∀ (c : Instr) (v : Nat) (s : State), c = .vbusRise v ∨ c = .vbusLoss v ∨ c = .inputOv v →
    (v < 3600 → CompletesIn c s (fun t => t.sys.vbus = v ∧ t.sys.powered = false ∧ (s.sys.powered = true → t.score.entries = [])))
    ∧ (3600 ≤ v → v ≤ 6200 → s.sys.powered = true ∨ v < 3900 →
        ∃ t, exec c s = .next t ∧ Raised { s with sys := { s.sys with vbus := v } } t)
    ∧ (3900 ≤ v → v ≤ 6200 → s.sys.powered = false → CompletesIn c s (fun t => t.sys.vbus = v ∧ t.sys.powered = true
        ∧ t.sys.bootStep = 0 ∧ t.score.entries = [] ∧ t.reg pgDev R.DEV_RESET_CAUSE = 1))
    ∧ (6200 < v → v ≤ 8000 → s.alive = true → s.sys.devState ≠ .safe → CompletesIn c s (fun t => t.sys.vbus = v
        ∧ t.sys.devState = .safe ∧ t.sys.safeCause.toNat = scInputOv)))
  ∧ (∀ (s : State), CompletesIn .rstNAsserted s (fun t => t.sys.rstN = false ∧ t.score.entries = [] ∧ t.sch.jobs = []
      ∧ t.pending = s.pending))
  ∧ (∀ (s : State), (s.sys.rstN = true → CompletesIn .rstN s (fun t => Raised s t))
      ∧ (s.sys.rstN = false → s.sys.vbus ≤ 6000 → CompletesIn .rstN s (fun t => t.sys.rstN = true ∧ t.sys.bootStep = 0
          ∧ t.sys.bridgeEn = s.sys.strapBridge ∧ t.sys.bridgeStandby = s.sys.strapStandby ∧ t.sys.feedId = s.sys.strapFeed
          ∧ t.reg pgDev R.DEV_RESET_CAUSE = 2))
      ∧ (s.sys.rstN = false → 6000 < s.sys.vbus → s.sys.powered = true → CompletesIn .rstN s (fun t => t.sys.rstN = true
          ∧ t.sys.devState = .safe ∧ t.sys.safeCause.toNat = scInputOv)))
  ∧ (∀ (x : StepResult) (s : State), s.alive = true →
      let n := s.sys.bootStep
      let flash := n = 1 ∨ n = 2 ∨ n = 3
      let loads := flash ∨ n = 6 ∨ n = 7 ∨ n = 8
      let past (t : State) := t.sys.bootStep = n + 1
      let safe (t : State) (cause : Nat) := t.sys.devState = .safe ∧ t.sys.safeCause.toNat = cause
      let unit (pn : Nat) := pn < 4096 ∧ testedBlock s.sys.warm (blockAt pn) = true ∧ s.present pn = true
      (s.sys.devState = .safe ∨ 10 ≤ n ∨ (1 ≤ n ∧ s.sys.refclk = false) ∨ (flash ∧ s.sys.auxOn = false) →
        Completes (.startUpStep x) s s)
      ∧ (s.sys.devState ≠ .safe → n < 10 → n = 0 ∨ s.sys.refclk = true → (flash → s.sys.auxOn = true) →
        (loads → x.verified = false → CompletesIn (.startUpStep x) s (safe · scVerify))
        ∧ ((loads → x.verified = true) →
          (n = 0 → ∃ lock f, lock ≤ 50000
            ∧ Completes (.startUpStep x) s { s with free := f, sys := { s.sys with bootStep := 1, pll := lock } })
          ∧ (n = 1 → 0 < s.rot.rollback → Config.fwSvn s.arb.image % 65 < s.rot.rollback → CompletesIn (.startUpStep x) s (safe · scVerify))
          ∧ (n = 1 → s.rot.rollback = 0 ∨ s.rot.rollback ≤ Config.fwSvn s.arb.image % 65 →
            Completes (.startUpStep x) s { s with sys := { s.sys with bootStep := 2, pll := 0 } })
          ∧ (n = 2 ∨ n = 3 → Completes (.startUpStep x) s { s with sys := { s.sys with bootStep := n + 1 } })
          ∧ (n = 4 → CompletesIn (.startUpStep x) s (fun t => past t ∧ t.sys.devState = .starting ∧ (∀ q, t.phys q = q)
              ∧ ∀ pn, unit pn → (s.page pn).st ≠ .retired → (t.page pn).st = .testing))
          ∧ (n = 5 → (x.central = false → CompletesIn (.startUpStep x) s (safe · scBist))
            ∧ (x.central = true → s.sys.warm = false → (∃ k : Fin 8, s.stackFitted k.val = true ∧ stackOk x k = false) →
                CompletesIn (.startUpStep x) s (safe · scStack))
            ∧ (x.central = true → x.squares = [] → x.channels = [] → x.bases = [] → x.lanes = [] →
                (∀ p, s.squares.retiredPhys.get (fun _ => false) p = false) →
                CompletesIn (.startUpStep x) s (fun t => past t ∧ t.freeSpares = 255 ∧ (∀ j, t.sparePos j = 64 + j)
                  ∧ ∀ pn, unit pn → (s.page pn).st = .testing →
                    (t.page pn).st = .off ∨ (t.page pn).st = .starting ∧ (s.page pn).pendingEn = true)))
          ∧ (n = 6 → s.mem.held = [] → s.fab.heldIn = [] → CompletesIn (.startUpStep x) s (fun t => past t
              ∧ t.mem.keys = if s.sys.warm then s.mem.keys else s.mem.keys ||| 1))
          ∧ (n = 7 → (s.linksSettled = false → Completes (.startUpStep x) s s)
            ∧ (s.linksSettled = true → Completes (.startUpStep x) s { s with sys := { s.sys with bootStep := n + 1 } }))
          ∧ (n = 8 → CompletesIn (.startUpStep x) s (fun t => past t
              ∧ ∀ i < 288, t.squares.pawnImage.get (fun _ => 0) i = s.arb.image + 1))
          ∧ (n = 9 → CompletesIn (.startUpStep x) s (fun t => past t ∧ t.sys.devState = .ready ∧ t.sys.warm = false
              ∧ t.rot.rollback = max s.rot.rollback (Config.fwSvn s.arb.image % 65))))))
  ∧ ∀ (s : State), s.alive = true →
      let identity := s.rot.lifecycle = 1 ∨ s.rot.lifecycle = 2
      (2 ≤ s.sys.bootStep → identity → Completes .aliasKeyReady s { s with rot := { s.rot with akeyReady := true } })
      ∧ (s.sys.bootStep < 2 ∨ ¬ identity → Completes .aliasKeyReady s s)

/-- The safe state and the protections (R526, R567, R583, R584, R592, R602): each cause places the device in the safe state,
with its work lost, its keys destroyed and every page outside the island OFF; the first cause stands, and the watchdog also holds
the Arbiter in reset. An overloaded auxiliary
output goes off until its retry finds it cleared; a failed remote sense is replaced by the power dies' and recorded; a failed
regulator's square is retired; without the reference the clocked islands stop. -/
def Obligations.ProtectionsLeadToTheSafeState : Prop :=
  (∀ (c : Instr) (cause : Nat) (s : State), s.alive = true →
      (∃ d b, c = .powerDie d b ∧ cause = scPowerDie) ∨ (c = .plane ∧ cause = scPlane) ∨ (∃ d, c = .thermalComparator d ∧ cause = scThermal)
      ∨ (c = .watchdog ∧ cause = scWatchdog) ∨ (c = .arbiterBoot ∧ cause = scArbiterBoot ∧ s.sys.bootStep = 3)
      ∨ (c = .auxFault ∧ cause = scAux ∧ s.sys.auxOn = false ∧ 1 ≤ s.sys.bootStep ∧ s.sys.bootStep < 4) →
      CompletesIn c s (fun t => t.sys.devState = .safe
        ∧ (s.sys.devState = .safe → t.sys.safeCause = s.sys.safeCause)
        ∧ (s.sys.devState ≠ .safe → t.sys.safeCause.toNat = cause ∧ t.sys.fault = true ∧ t.sch.jobs = [] ∧ t.col.colls = []
            ∧ t.mem.keys = 0 ∧ (∀ k, t.rot.eph.get (fun _ => none) k = none)
            ∧ ∀ pn, hasStates (blockAt pn) = true → blockAt pn ≠ .hbr → (t.page pn).st = .off)
        ∧ (∀ d, c = .thermalComparator d → t.sys.therm = true)
        ∧ (c = .watchdog → t.sys.arbHeld = true ∧ (t.reg pgDev R.DEV_RESET_CAUSE).getLsbD 5 = true)))
  ∧ ∀ (s : State), s.alive = true →
      Completes .auxOverload s { s with sys := { s.sys with auxOn := false, auxRetry := true } }
      ∧ (s.sys.auxRetry = true → Completes (.auxRetry true) s { s with sys := { s.sys with auxOn := true, auxRetry := false } })
      ∧ Completes (.auxRetry false) s s
      ∧ (s.sys.localSense = false → Completes (.remoteSenseFault false) s
          ((({ s with sys := { s.sys with localSense := true } }).record 7 0 (6 * 65536) 1).statusAll pgPwr 7))
      ∧ (s.sys.localSense = true → Completes (.remoteSenseFault false) s s)
      ∧ Completes (.remoteSenseFault true) s { s with sys := { s.sys with localSense := false } }
      ∧ Completes .refclkLoss s { s with sys := { s.sys with refclk := false } }
      ∧ (∀ (p : Fin 72) (q : Nat), s.nameAt p.val = some q → (s.page (pgSq q 0)).st ≠ .retired →
          CompletesIn (.regulatorFailure p) s (fun t => t.squares.retiredPhys.get (fun _ => false) p.val = true
            ∧ (∀ pn ∈ sqPages q, (t.page pn).st = .retired)
            ∧ t.squares.promotions = s.squares.promotions ++ [Fin.ofNat 64 q]))
      ∧ (∀ (p : Fin 72) (j : Nat), s.nameAt p.val = none → s.spareAt p.val = some j →
          CompletesIn (.regulatorFailure p) s (fun t => t.squares.retiredPhys.get (fun _ => false) p.val = true
            ∧ bitOf t.freeSpares j = false))

/-- The power cap, rails, sensors and scoresheet (R92 to R96, R502 to R518, R521): a cap request is taken between what is
reserved and the variant's most; a target between 1,520 and 2,300; a window above the cap lowers the effective target to the
floor and then starts duty limits, one below 98% lifts them and raises it; a beat window moves the rail of a square that runs
by 5 mV, never above its bound nor below 550 mV, and a rate above 2,300 lowers the rail of any square; a
reading stands in its register, and one at its trip point leads to the safe state; a commit enters the buffered events, each
clear first; it counts `ARB_HEARTBEAT`. -/
def Obligations.PowerPolicyAndScoresheet : Prop :=
  (∀ (c : Instr) (v : Word) (s : State), s.alive = true →
      (∃ r, c = .pwrCapReq r v ∧ s.mayWrite r pgPwr R.PWR_CAP_REQ false = true) ∨ (c = .powerCapEffecter v ∧ s.arbiterRuns = true) →
      let w := wbits v 11 0
      let taken := (s.setReg pgPwr R.PWR_CAP (word w)).setReg pgPwr R.PWR_CAP_STATUS 0
      (640 * w < s.reserved64 → Completes c s (s.setReg pgPwr R.PWR_CAP_STATUS 1))
      ∧ (s.reserved64 ≤ 640 * w → s.sys.variant.maxWatt < w → Completes c s (s.setReg pgPwr R.PWR_CAP_STATUS 2))
      ∧ (s.reserved64 ≤ 640 * w → w ≤ s.sys.variant.maxWatt → s.cap = w → Completes c s taken)
      ∧ (s.reserved64 ≤ 640 * w → w ≤ s.sys.variant.maxWatt → s.cap ≠ w → Completes c s (taken.statusAll pgPwr 4)))
  ∧ (∀ (r : Req) (v : Word) (s : State), s.alive = true → s.mayWrite r pgPwr R.PWR_POLICY false = true →
      let x := wbits v 11 0
      let old := wbits (s.reg pgPwr R.PWR_POLICY) 11 0
      (x < 1520 ∨ 2300 < x → Completes (.pwrPolicy r v) s (s.cmdIgnored (s.reqPart r) pgPwr))
      ∧ (1520 ≤ x → x ≤ 2300 → CompletesIn (.pwrPolicy r v) s (fun t => t.reg pgPwr R.PWR_POLICY = word x
          ∧ t.effTarget = if s.effTarget = old then x else min s.effTarget x)))
  ∧ (∀ (dw : Nat) (s : State), s.alive = true →
      let s1 := (s.setReg pgPwr R.PWR_INPUT_AVG (word (min dw (2 ^ 20 - 1)))).record 1 0 0 dw
      let duty (t : State) := wbits (t.reg pgPwr R.PWR_STATE) 8 8
      (10 * s.cap < dw → 1520 < s.effTarget →
        Completes (.powerCapWindow dw) s (s1.setReg pgPwr R.PWR_TARGET_EFF (word (max 1520 (s.effTarget - 10)))))
      ∧ (10 * s.cap < dw → s.effTarget ≤ 1520 → CompletesIn (.powerCapWindow dw) s (fun t => duty t = 1
          ∧ t.effTarget = s.effTarget ∧ t.arb.dutySince = some (s.arb.dutySince.getD s.now)))
      ∧ (dw ≤ 10 * s.cap → 980 * s.cap ≤ dw * 100 → Completes (.powerCapWindow dw) s s1)
      ∧ (dw * 100 < 980 * s.cap → CompletesIn (.powerCapWindow dw) s (fun t => t.arb.dutySince = none
          ∧ (s.arb.dutySince ≠ none → duty t = 0)
          ∧ t.effTarget = min (wbits (s.reg pgPwr R.PWR_POLICY) 11 0) (s.effTarget + 10))))
  ∧ (∀ (p : Fin 72) (rate : Nat) (s : State), s.alive = true →
      let name := allSquares.find? (fun q => s.phys q = p.val)
      let st := (name.map (fun q => s.pstate (pgSq q 0))).getD .off
      let mv := s.rail p.val
      let lower := if 555 ≤ mv then mv - 5 else mv
      let top := s.maxRail p.val
      let want := max 1520 s.effTarget
      (0 < rate → CompletesIn (.beatRateWindow p rate) s (fun t =>
        (2300 < rate → t.rail p.val = lower)
        ∧ (rate ≤ 2300 → st ≠ .running → st ≠ .starting → t.rail p.val = mv)
        ∧ (rate ≤ 2300 → st = .running ∨ st = .starting → t.rail p.val =
            if rate < want then (if mv + 5 ≤ top then mv + 5 else mv) else if want + 30 ≤ rate then lower else mv)
        ∧ (rate < 1499 → top < mv + 5 → st = .running → ∀ q, name = some q →
            ∀ x, (t.regB (intBank x (pgSq q 0)) (pgSq q 0) hIntStatus).getLsbD 1 = true)))
      ∧ CompletesIn (.beatRateWindow p 0) s (fun t => t.rail p.val = 800
          ∧ ∀ x, (t.regB (intBank x pgPwr) pgPwr hIntStatus).getLsbD 7 = true))
  ∧ (∀ (index : Nat) (x : Int) (s : State), s.alive = true → 0 ≤ x →
      (index < 72 → x ≤ 70 → s.readings.all (fun r => decide (r.2 < tripAt r.1)) = true →
        CompletesIn (.sensorSample 1 index (some x)) s (fun t => t.sqTemp index = x ∧ t.diodeBad index = false
          ∧ t.sys.devState = s.sys.devState))
      ∧ (index < 72 → 115 ≤ x → x ≤ 150 →
          CompletesIn (.sensorSample 1 index (some x)) s (fun t => t.sys.devState = .safe ∧ t.sys.therm = true))
      ∧ (index < 72 → CompletesIn (.sensorSample 1 index none) s (fun t => t.sqTemp index = 125 ∧ t.diodeBad index = true))
      ∧ (x < 65536 → index < 16 → CompletesIn (.sensorSample 7 index (some x)) s (fun t =>
          ((wbits (t.reg pgPwr (R.PWR_RAIL + 4 * index)) 15 0 : Nat) : Int) = x)))
  ∧ (∀ (s : State), s.alive = true →
      let cool := s.readings.all (fun r => decide (r.2 ≤ warnAt r.1 - 5))
      (cool = true → Completes .thermRelease s { s with sys := { s.sys with therm := false } })
      ∧ (cool = false → Completes .thermRelease s s))
  ∧ (∀ (r : Req) (v : Word) (s : State), s.alive = true → s.mayWrite r pgScr R.SCR_CLEAR true = true →
      Completes (.scrClear r v) s { s with score := { s.score with
        clears := s.score.clears ++ (allParts.filter (fun p => v.getLsbD p.val)).map (fun p => (p, s.now)) } })
  ∧ ∀ (s : State), s.alive = true → s.arbiterRuns = true →
      CompletesIn .scoresheetCommit s (fun t => t.score.buffer = [] ∧ t.score.clears = []
        ∧ t.reg pgArb R.ARB_HEARTBEAT = s.reg pgArb R.ARB_HEARTBEAT + 1
        ∧ (∀ p : Fin 16, (∀ c ∈ s.score.clears, c.1 ≠ p) → (∀ e ∈ s.score.buffer, e.part ≠ p) → p ≠ 0 →
            t.score.view p = s.score.view p ∧ t.score.seq.get (fun _ => 0) p.val = s.score.seq.get (fun _ => 0) p.val)
        ∧ (∀ p : Fin 16, p ≠ 0 → (∃ c ∈ s.score.clears, c.1 = p) → (∀ e ∈ s.score.buffer, e.part ≠ p) → t.score.view p = []))

/-! ### The Arbiter's interfaces, links, packets and the host bridge -/

/-- Management messages and the firmware update (R520 to R524, R527, R567): the bus owner's EID and the I3C address stand; a
control and PLDM request is answered, a message of another type is counted, an SPDM message's sender is kept, one for another
endpoint is bridged, and PCIe messages come to the physical function alone; the mailbox
takes a message while it is not BUSY and shows the reply; an update goes from its staging region through transfer,
verification, flash and readback, or fails with a completion code that nothing states, its region overwritten; in recovery
(R525) the ROM takes an image without a staging region, and boots it once it is written. -/
def Obligations.ArbiterMessagesAndUpdate : Prop :=
  (∀ (s : State), s.alive = true →
    let own := wbits (s.reg pgArb R.ARB_MCTP) 7 0
    (∀ e : Byte, s.arbiterRuns = true → CompletesIn (.setEndpointId e) s (fun t => wbits (t.reg pgArb R.ARB_MCTP) 7 0 = e.toNat
      ∧ wbits (t.reg pgArb R.ARB_MCTP) 31 24 = wbits (s.reg pgArb R.ARB_MCTP) 31 24))
    ∧ (∀ e : Byte, s.arbiterRuns = false → Completes (.setEndpointId e) s s)
    ∧ (∀ a, Completes (.dynamicAddress a) s { s with arb := { s.arb with i3c := some a } })
    ∧ ∀ m : MctpMsg, (s.mctpReaches m.transport m.fn = false → Completes (.mctp m) s s)
      ∧ (s.mctpReaches m.transport m.fn = true →
        (m.dst.toNat = own ∨ m.dst = 0 ∨ s.fab.active = false ∨ (m.transport ≠ tpPcie ∧ m.transport ≠ tpMgmt) →
          let kind := (m.bytes.map BitVec.toNat)[1]?.getD 0 % 64
          let handled := m.type = 0 ∨ m.type = 1 ∧ (kind = 0 ∨ kind = 5 ∨ kind = 2 ∧ s.arbiterRuns = true)
          let spdm := (m.type = 5 ∨ m.type = 6) ∧ s.arbiterRuns = true
          (handled → m.transport = tpMbox ∨ (m.bytes.headD 0).getLsbD 7 = false → Completes (.mctp m) s s)
          ∧ (handled → m.transport ≠ tpMbox → (m.bytes.headD 0).getLsbD 7 = true → ∃ bytes, Completes (.mctp m) s
              (s.mctpSend ⟨m.transport, BitVec.ofNat 8 own, m.src, m.type, bytes, m.fn⟩))
          ∧ (spdm → Completes (.mctp m) s { s with arb := { s.arb with spdmFrom := (m.transport, m.src) } })
          ∧ (¬ handled → ¬ spdm → CompletesIn (.mctp m) s (fun t =>
              wbits (t.reg pgArb R.ARB_MCTP) 31 24 = min 255 (wbits (s.reg pgArb R.ARB_MCTP) 31 24 + 1)
              ∧ wbits (t.reg pgArb R.ARB_MCTP) 7 0 = own)))
        ∧ (m.dst.toNat ≠ own → m.dst ≠ 0 → s.fab.active = true → m.transport = tpMgmt →
            Completes (.mctp m) s { s with out := s.out ++ [.mctp { m with transport := tpPcie, fn := 0 }] })
        ∧ (m.dst.toNat ≠ own → m.dst ≠ 0 → s.fab.active = true → m.transport = tpPcie →
            Completes (.mctp m) s (s.forward (withPayload { s.mkPacket ptMgmt 0 (Config.eidDevice m.dst) with det := true, arg := 1 }
              (m.src :: m.dst :: m.type :: m.bytes))).2)))
  ∧ (∀ (r : Req) (v : Word) (s : State), s.alive = true → s.mayWrite r pgArb R.ARB_MBOX_CTRL false = true →
      let n := wbits v 11 0
      let busy := (s.reg pgArb R.ARB_MBOX_CTRL).getLsbD 30
      (busy = true ∨ (v.getLsbD 31 = true ∧ (n = 0 ∨ 2048 < n)) → Completes (.mboxSendArb r v) s (s.cmdIgnored (s.reqPart r) pgArb))
      ∧ (busy = false → v.getLsbD 31 = false → Completes (.mboxSendArb r v) s (s.setReg pgArb R.ARB_MBOX_CTRL (word n)))
      ∧ (busy = false → v.getLsbD 31 = true → 0 < n → n ≤ 2048 → CompletesIn (.mboxSendArb r v) s (fun t =>
          t.reg pgArb R.ARB_MBOX_CTRL = word (2 ^ 30 + n)))
      ∧ (busy = true → s.arbiterRuns = true → ∀ bs, bs.length ≤ 2048 → CompletesIn (.mboxReply bs) s (fun t =>
          t.reg pgArb R.ARB_MBOX_CTRL = word bs.length
          ∧ (∀ i < 512, t.reg pgArb (R.ARB_MBOX_BUF + 4 * i) = word (leNat ((bs.drop (4 * i)).take 4)))
          ∧ ∀ p, (t.regB (intBank p pgArb) pgArb hIntStatus).getLsbD 4 = true))
      ∧ (busy = false ∨ s.arbiterRuns = false → ∀ bs, Completes (.mboxReply bs) s s))
  ∧ (∀ (r : Req) (v : Word) (s : State), s.alive = true → s.mayWrite r pgArb R.ARB_UPD_STAGE false = true →
      let fits := (s.updPhase = 0 ∨ s.updPhase = 6) ∧ wbits v 8 0 < s.regions ∧ s.regionHeldBy 0 (wbits v 8 0) = true
      (fits → Completes (.arbUpdStage r v) s (s.setReg pgArb R.ARB_UPD_STAGE (v &&& 0x800001FF)))
      ∧ (¬ fits → Completes (.arbUpdStage r v) s (s.cmdIgnored (s.reqPart r) pgArb)))
  ∧ (∀ (s : State), s.alive = true → s.arbiterRuns = true →
      let st := s.reg pgArb R.ARB_UPD_STAGE
      let cut := s.mem.cutOff ++ [(s.arb.stagedAt, 0)]
      let failed (t : State) := t.updPhase = 6 ∧ wbits (t.reg pgArb R.ARB_UPD_STATUS) 27 8 = s.arb.received / 1024 % 2 ^ 20
        ∧ t.mem.cutOff = cut ∧ t.arb.newImage = s.arb.newImage ∧ ∀ p, (t.regB (intBank p pgArb) pgArb hIntStatus).getLsbD 6 = true
      (∀ size, st.getLsbD 31 = true → s.updPhase = 0 ∨ s.updPhase = 6 → Completes (.requestUpdate size) s { s.setPhase 1 0 with
        arb := { s.arb with imageSize := size, received := 0, stagedAt := wbits st 8 0 } })
      ∧ (∀ size, st.getLsbD 31 = false ∨ s.updPhase ≠ 0 ∧ s.updPhase ≠ 6 → Completes (.requestUpdate size) s s)
      ∧ (∀ bs : List Byte, s.updPhase = 1 → bs.length ≤ 4096 →
          let n := s.arb.received + bs.length
          CompletesIn (.requestFirmwareData bs) s (fun t => t.arb.received = n
            ∧ t.updPhase = if s.arb.imageSize ≤ n then 2 else 1))
      ∧ (s.updPhase = 2 → Completes (.imageVerifyDone true) s (s.setPhase 3 0) ∧ CompletesIn (.imageVerifyDone false) s failed)
      ∧ (s.updPhase = 3 → (s.sys.auxOn = true → Completes .flashWriteDone s (s.setPhase 4 (s.arb.imageSize / 1024)))
          ∧ (s.sys.auxOn = false → CompletesIn .flashWriteDone s failed))
      ∧ (s.updPhase = 4 → CompletesIn (.readbackDone false) s failed
          ∧ CompletesIn (.readbackDone true) s (fun t => t.updPhase = 5 ∧ t.arb.newImage = true ∧ t.mem.cutOff = cut
              ∧ ∀ p, (t.regB (intBank p pgArb) pgArb hIntStatus).getLsbD 5 = true)))
  ∧ ∀ (s : State), s.alive = true → s.recovers = true →
      (∀ size, s.updPhase = 0 ∨ s.updPhase = 6 → CompletesIn (.requestUpdate size) s (fun t => t.updPhase = 1
        ∧ t.arb.imageSize = size ∧ t.arb.received = 0))
      ∧ (∀ bs : List Byte, s.updPhase = 1 → bs.length ≤ 4096 → CompletesIn (.requestFirmwareData bs) s (fun t => t.mem = s.mem
          ∧ t.arb.received = s.arb.received + bs.length
          ∧ t.updPhase = if s.arb.imageSize ≤ s.arb.received + bs.length then 2 else 1))
      ∧ (s.updPhase = 3 → s.sys.auxOn = true → CompletesIn .flashWriteDone s (fun t => t.sys.devState = .starting
          ∧ t.sys.fault = false ∧ t.sys.bootStep = 1 ∧ t.arb.image = s.arb.image + 1 ∧ t.updPhase = 0))

/-- The links (R83, R404 to R407, R410 to R412, R415, R442, R490, R572): a training ends in the step of DETECT, TRAIN and ALIGN
that fewer than two lanes pass; while `DEV_ID.VALID` is 0 the link is held after ALIGN; then it records its peer, and the link
is in KEYING, or UP with its page RUNNING. Lost lanes are retrained without, and with fewer than two the page is RETIRED; a
flit out of order or unverified is discarded and answered by one NAK, one in order acknowledges what it covers and hands on the
packets it completes, and the first of a new phase turns the receiver's key; a NAK resends, and packets that waited for the
places it frees leave; a new key changes the sender's phase. -/
def Obligations.LinksTrainAndCarryFlits : Prop :=
  (∀ (n : Fin 64) (x : Training) (s : State), s.alive = true →
    s.linkFitted n.val = false ∨ (s.page (pgLnk n.val)).st ≠ .starting →
      Completes (.linkBringUp n x) s s ∧ Completes (.detectTimeout n) s s)
  ∧ (∀ (n : Fin 64) (x : Training) (s : State), s.alive = true → s.linkFitted n.val = true →
    let pn := pgLnk n.val
    let found := s.lanesOf n.val x.detect
    let trained := found &&& x.train
    let aligned := trained &&& x.lanes
    let two (y : BitVec 4) := 2 ≤ popCount 4 y.toNat
    let ends (st : LState) (ok : BitVec 4) := CompletesIn (.linkBringUp n x) s (fun t => (t.link n.val).st = st
      ∧ (t.link n.val).laneOk = ok ∧ t.reg pn R.LNK_TRAINS = s.reg pn R.LNK_TRAINS + 1)
    let peer (t : State) := (t.link n.val).peerDev = x.peerDev ∧ (t.link n.val).peerLink = x.peerLink
    (s.page pn).st = .starting →
    (¬ two found → ends .detect found)
    ∧ (two found → ¬ two trained → ends .train trained)
    ∧ (two found → two trained → ¬ two aligned ∨ s.devIdValid = false → ends .align aligned)
    ∧ (two found → two trained → two aligned → s.devIdValid = true →
      (s.peerPasses x = false → CompletesIn (.linkBringUp n x) s (fun t => (t.link n.val).st = .keying ∧ peer t
          ∧ (⟨0x14, 0, n.val, 1, s.now⟩ : Event) ∈ t.score.buffer))
      ∧ (s.peerPasses x = true → s.rot.lifecycle = 3 → CompletesIn (.linkBringUp n x) s (fun t => (t.link n.val).st = .keying ∧ peer t))
      ∧ (s.peerPasses x = true → s.rot.lifecycle ≠ 3 → CompletesIn (.linkBringUp n x) s (fun t => peer t
          ∧ (t.link n.val).st = .up ∧ (t.link n.val).keyed = true ∧ (t.link n.val).laneOk = aligned ∧ (t.link n.val).lastAcc = 4095
          ∧ (t.link n.val).pol = x.polarity ∧ (t.link n.val).order = x.order
          ∧ (t.page pn).st = if (s.page pn).enable then .running else .draining)))
    ∧ ((s.link n.val).st ≠ .up → exec (.linkRetrain n x) s = exec (.linkBringUp n x) s)
    ∧ Completes (.detectTimeout n) s (s.setLink n.val { s.link n.val with st := .detect, waived := true }))
  ∧ (∀ (n : Fin 64) (x : Training) (s : State), s.alive = true → s.linkFitted n.val = true → (s.link n.val).st = .up →
      let l := s.link n.val
      let left := s.lanesOf n.val (l.laneOk &&& x.lanes)
      let lost := ∃ k < 4, l.laneOk.getLsbD k = true ∧ s.laneRetired n.val k = true
      (lost → popCount 4 left.toNat < 2 → CompletesIn (.linkRetrain n x) s (fun t => (t.link n.val).st = .down
          ∧ (t.page (pgLnk n.val)).st = .retired))
      ∧ (lost → 2 ≤ popCount 4 left.toNat → CompletesIn (.linkRetrain n x) s (fun t => (t.link n.val).st = .up
          ∧ (t.link n.val).laneOk = left ∧ (t.link n.val).keyed = l.keyed
          ∧ (t.link n.val).peerDev = x.peerDev ∧ (t.link n.val).peerLink = x.peerLink
          ∧ ∀ p, (t.regB (intBank p (pgLnk n.val)) (pgLnk n.val) hIntStatus).getLsbD 4 = true))
      ∧ (¬ lost → (∃ f ∈ l.replay, 8 ≤ f.tries) →
          let s1 := s.linkTo n.val { l with st := .retrain, keyed := false }
          Completes (.linkRetrain n x) s ((s1.toPage (pgLnk n.val) { s1.page (pgLnk n.val) with st := .starting }).linkTrained n.val x))
      ∧ (¬ lost → (∀ f ∈ l.replay, f.tries < 8) → (s.page (pgLnk n.val)).st ≠ .starting → Completes (.linkRetrain n x) s s))
  ∧ (∀ (n : Fin 64) (f : Flit) (s : State), s.alive = true →
      let l := s.link n.val
      let pn := pgLnk n.val
      let next := (l.lastAcc + 1) % 4096
      let c := Instr.flitReceived n f
      let said (t : State) := (t.link n.val).discarding = true ∧ (t.link n.val).lastAcc = l.lastAcc
        ∧ (l.discarding = false → Out.nak n.val l.lastAcc ∈ t.out)
      (l.st ≠ .up → Completes c s s)
      ∧ (l.st = .up →
        (f.decoded = false → CompletesIn c s (fun t => said t ∧ (t.link n.val).badBlock = some f.block))
        ∧ (f.decoded = true → f.tagOk = false → CompletesIn c s (fun t => said t
            ∧ t.reg pn R.LNK_TAG_FAIL = s.reg pn R.LNK_TAG_FAIL + 1
            ∧ ∀ p, (t.regB (intBank p pn) pn hIntStatus).getLsbD 6 = true))
        ∧ (f.decoded = true → f.tagOk = true → f.seq ≠ next → Completes c s (if l.discarding then s else
            { s.setLink n.val { l with discarding := true } with out := s.out ++ [.nak n.val l.lastAcc] }))
        ∧ (f.decoded = true → f.tagOk = true → f.seq = next →
          let l1 := { l with lastAcc := f.seq, discarding := false, replay := ackedBy f.ack l.replay, rxPhase := f.key,
                             oldKey := l.oldKey && decide (f.key = l.rxPhase) }
          let base := if f.key = l.rxPhase then s.setLink n.val l1
            else ((s.setLink n.val l1).bump pn R.LNK_REKEYS 1).statusAll pn 7
          let bs := l1.rxOf f.part ++ f.bytes
          let got := takePackets bs.length bs
          (f.ftype ≠ 1 → Completes c s (base.takeRoom n.val))
          ∧ (f.ftype = 1 → ∃ s2, s2 = base.setLink n.val { l1 with
                rx := if got.2.isEmpty then l1.rx.filter (fun y => y.1 ≠ f.part)
                  else (f.part, got.2) :: l1.rx.filter (fun y => y.1 ≠ f.part) }
              ∧ Completes c s (got.1.foldl State.route ((s2.bump64 pn R.LNK_RX_LO 1).takeRoom n.val))))))
  ∧ (∀ (n : Fin 64) (q : Nat) (tx : Bool) (s : State), s.alive = true → (s.link n.val).st ≠ .up →
      Completes (.nak n q) s s ∧ Completes (.rekey n tx) s s)
  ∧ ∀ (n : Fin 64) (s : State), s.alive = true → (s.link n.val).st = .up →
      let l := s.link n.val
      (∀ q, let kept := ackedBy q l.replay
        let s1 := (s.setLink n.val { l with replay := kept.map (fun f => { f with tries := f.tries + 1 }) }).bump (pgLnk n.val)
          R.LNK_REPLAYS kept.length
        Completes (.nak n q) s (({ s1 with out := s.out ++ kept.map (fun f => .flit n.val f.seq) } : State).takeRoom n.val))
      ∧ Completes (.rekey n true) s (((s.setLink n.val { l with txPhase := !l.txPhase, txFlits := 0 }).bump (pgLnk n.val)
          R.LNK_REKEYS 1).statusAll (pgLnk n.val) 7)
      ∧ Completes (.rekey n false) s (s.setLink n.val { l with oldKey := true })

/-- Packets (R61, R422 to R430, R439, R440, R443): one of another device goes out over its route, is held while the page is
not RUNNING, or is dropped with a count, a request then answered LINK_DOWN; one of this device does what its type says: a
request of an older epoch or of no peer is answered NACK, one of a newer epoch is held, and the others reach a register, memory
or a scratchpad; an answer reaches its transaction; an interrupt is acknowledged and its vector raised once. Requests of a
newer epoch that their group's entry has reached then go on (`releaseEpochs`). -/
def Obligations.PacketsReachTheirEnds : Prop :=
  (∀ (p : Packet) (s : State), s.alive = true →
    let c := Instr.packetRoute p
    (p.type.toNat = 0 ∨ 0x0B ≤ p.type.toNat → Completes c s (s.countDrop p 1))
    ∧ (p.dst = s.devId → (p.type = ptWrite → exec c s = exec (.write p) s) ∧ (p.type = ptRead → exec c s = exec (.read p) s)
        ∧ (p.type = ptData → exec c s = exec (.data p) s) ∧ (p.type = ptAck → exec c s = exec (.ack p) s)
        ∧ (p.type = ptNack → exec c s = exec (.nack p) s) ∧ (p.type = ptSignal → exec c s = exec (.signal p) s)
        ∧ (p.type = ptCommand → exec c s = exec (.command p) s) ∧ (p.type = ptInterrupt → exec c s = exec (.interrupt p) s))
    ∧ (0 < p.type.toNat → p.type.toNat < 0x0B → p.dst ≠ s.devId →
      (s.running pgRte = false → Completes c s { s with fab := { s.fab with heldOut := s.fab.heldOut ++ [(⟨p, s.now⟩ : EpochHold)] } })
      ∧ (s.running pgRte = true → ∀ n, p.hops ≠ 15 → s.chooseLink p (s.routeEntry p.dst) = some n →
          Completes c s (s.launch n p))
      ∧ (∀ why, s.running pgRte = true → (p.hops = 15 ∧ why = 3) ∨ (p.hops ≠ 15 ∧ why = 2 ∧ s.chooseLink p (s.routeEntry p.dst) = none) →
          let s1 := s.countDrop p why
          (isAnswer p = true → Completes c s s1)
          ∧ (isAnswer p = false → p.src = s.devId →
              Completes c s (if p.type = ptCollective then s1.loseColl p else s1.failTx p.tag.toNat cLinkDown))
          ∧ (isAnswer p = false → p.src ≠ s.devId → Completes c s (s1.forward { s1.mkPacket ptNack p.part p.src with
              tag := p.tag, code := BitVec.ofNat 8 cLinkDown, stream := p.stream, addr := p.addr, arg := p.arg }).2))))
  ∧ (∀ (c : Instr) (p : Packet) (s : State), s.alive = true → p.dst = s.devId →
      (c = .write p ∧ p.type = ptWrite) ∨ (c = .read p ∧ p.type = ptRead) ∨ (c = .command p ∧ p.type = ptCommand) →
      let fresh := s.staleEpoch p = false ∧ s.newerEpoch p = false
      let known := p.src = s.devId ∨ s.peerOk p.part p.src.toNat = true
      (s.staleEpoch p = true → Completes c s ((s.countStale p).nack p cStaleEpoch).releaseEpochs)
      ∧ (s.newerEpoch p = true → Completes c s
          ({ s with fab := { s.fab with epochHeld := s.fab.epochHeld ++ [(⟨p, s.now⟩ : EpochHold)] } }).releaseEpochs)
      ∧ (fresh → ¬ known → (∀ off, c ≠ .command p → s.packetDrs p = some off → isHostReq (s.linkReq p) = false) →
          Completes c s ((s.countDenied p.part p.src.toNat).nack p cPartitionFault).releaseEpochs)
      ∧ (fresh → known → c = .command p → Completes c s (s.takeCommand p).releaseEpochs)
      ∧ (fresh → known → c ≠ .command p → s.packetDrs p = none → ∀ s1,
          (∀ bs, c = .read p → s.localRead p.part none p.src.toNat p.addr.toNat p.len.toNat = (.ok bs, s1) →
            Completes c s (s1.answer ptData p 0 bs).releaseEpochs)
          ∧ (c = .write p → s.localWrite p.part none p.src.toNat p.addr.toNat p.payload = (.ok (), s1) →
            Completes c s (s1.answer ptAck p 0 []).releaseEpochs)
          ∧ (∀ code, (c = .read p ∧ s.localRead p.part none p.src.toNat p.addr.toNat p.len.toNat = (.fail code, s1))
              ∨ (c = .write p ∧ s.localWrite p.part none p.src.toNat p.addr.toNat p.payload = (.fail code, s1)) →
            (code = cDataLost → Completes c s ((s1.countDenied p.part p.src.toNat).nack p code).releaseEpochs)
            ∧ (code ≠ cDataLost → Completes c s (s1.nack p code).releaseEpochs))
          ∧ ((c = .read p ∧ s.localRead p.part none p.src.toNat p.addr.toNat p.len.toNat = (.wait, s1))
              ∨ (c = .write p ∧ s.localWrite p.part none p.src.toNat p.addr.toNat p.payload = (.wait, s1)) →
            Completes c s ({ s1 with fab := { s1.fab with heldIn := s1.fab.heldIn ++ [p] } }).releaseEpochs))
      ∧ (∀ off, fresh → known ∨ isHostReq (s.linkReq p) = true → c ≠ .command p → s.packetDrs p = some off →
          let size := if p.type = ptRead then p.len.toNat else p.payload.length
          let r := s.linkReq p
          (goodAccess r off size = false → c = .read p →
            Completes c s ((s.badAccess (s.reqPart r)).answer ptData p 0 (List.replicate size 0)).releaseEpochs)
          ∧ (goodAccess r off size = false → c = .write p → Completes c s ((s.badAccess (s.reqPart r)).answer ptAck p 0 []).releaseEpochs)
          ∧ (size = 4 → off % 4 = 0 → c = .write p →
            Completes c s ((s.drsWrite r off (word (leNat p.payload))).answer ptAck p 0 []).releaseEpochs)
          ∧ (size = 4 → off % 4 = 0 → c = .read p → ∀ v s1, s.drsRead r off = (v, s1) →
            Completes c s (s1.answer ptData p 0 (leBytes 4 v.toNat)).releaseEpochs)
          ∧ (size = 8 → goodAccess r off 8 = true → c = .write p →
            Completes c s ((s.drsWrite8 r off (BitVec.ofNat 64 (leNat p.payload))).answer ptAck p 0 []).releaseEpochs)
          ∧ (size = 8 → goodAccess r off 8 = true → c = .read p → ∀ v s1, s.drsRead8 r off = (v, s1) →
            Completes c s (s1.answer ptData p 0 (leBytes 8 v.toNat)).releaseEpochs)))
  ∧ (∀ (p : Packet) (s : State), s.alive = true → p.dst = s.devId → p.type = ptSignal →
      (s.running pgStx = false → Completes (.signal p) s
        ({ s with sch := { s.sch with heldOps := s.sch.heldOps ++ [HeldOp.signal p] } }).releaseEpochs)
      ∧ (s.running pgStx = true → p.src ≠ s.devId →
        let n := bitsOf p.arg.toNat 13 0
        (s.staleEpoch p = true → Completes (.signal p) s (((s.countStale p).dropSignal p 2).nack p cStaleEpoch).releaseEpochs)
        ∧ (s.newerEpoch p = true → Completes (.signal p) s
            ({ s with fab := { s.fab with epochHeld := s.fab.epochHeld ++ [(⟨p, s.now⟩ : EpochHold)] } }).releaseEpochs)
        ∧ (s.staleEpoch p = false → s.newerEpoch p = false →
          (s.peerOk p.part p.src.toNat = false → Completes (.signal p) s
            (((s.countDenied p.part p.src.toNat).dropSignal p 1).nack p cPartitionFault).releaseEpochs)
          ∧ (s.peerOk p.part p.src.toNat = true → s.holdsTally p.part n = false → Completes (.signal p) s
            (((s.countDenied p.part p.src.toNat).dropSignal p 3).nack p cPartitionFault).releaseEpochs)
          ∧ (s.peerOk p.part p.src.toNat = true → s.holdsTally p.part n = true → Completes (.signal p) s
            (((s.bumpB p.part pgStx R.STX_SIG_RX 1).advanceTally n).answer ptAck p 0 []).releaseEpochs))))
  ∧ (∀ (p : Packet) (x : Tx) (s : State), s.alive = true → p.dst = s.devId → s.openTx p.tag.toNat = some x →
      (x.owner = .island → ∀ c, (c = .data p ∧ p.type = ptData ∧ x.isWrite = false)
        ∨ (c = .ack p ∧ p.type = ptAck ∧ p.addr ≠ intAddr ∧ x.isWrite = true) ∨ (c = .nack p ∧ p.type = ptNack) →
          Completes c s (s.closeTx p.tag.toNat).releaseEpochs)
      ∧ (x.owner ≠ .island → p.type = ptData → x.isWrite = false → Completes (.data p) s
        ((s.answerTx p.tag.toNat (fun y => { y with got := some p.payload })).settleBars).releaseEpochs)
      ∧ (x.owner ≠ .island → p.type = ptAck → p.addr ≠ intAddr → x.isWrite = true → Completes (.ack p) s
        ((s.answerTx p.tag.toNat (fun y => { y with got := some [] })).settleBars).releaseEpochs)
      ∧ (x.owner ≠ .island → p.type = ptNack → (∀ id, x.owner ≠ .job id) → Completes (.nack p) s
        ((s.answerTx p.tag.toNat (fun y => { y with fail := some p.code.toNat })).settleBars).releaseEpochs)
      ∧ (∀ id j s1, x.owner = .job id → s1 = s.failTx p.tag.toNat p.code.toNat → s1.job? id = some j → j.live = true →
        p.type = ptNack →
        (j.target ≠ tMov → Completes (.nack p) s (s1.endJob id p.code.toNat).releaseEpochs)
        ∧ (j.target = tMov → Completes (.nack p) s (s1.movBreak j p.code.toNat
            (if x.isWrite then sideDst else s1.readSide j x.addr) (s1.movFailAt j x.isWrite)).releaseEpochs)))
  ∧ (∀ (p : Packet) (s : State), s.alive = true → p.dst = s.devId → p.type = ptAck → p.addr = intAddr →
      p.arg.toNat = s.fab.intSent.get (fun _ => 0) p.part.val % 2 ^ 32 → Completes (.ack p) s
        ({ s with fab := { s.fab with intWait := s.fab.intWait.filter (· ≠ p.part) } }).releaseEpochs)
  ∧ (∀ (p : Packet) (s : State), s.alive = true → p.dst = s.devId → p.type = ptInterrupt →
      let k := p.part.val * 65536 + p.src.toNat
      let s1 := s.answer ptAck p 0 []
      (s.fab.active = false → Completes (.interrupt p) s s.releaseEpochs)
      ∧ (s.fab.active = true → s1.fab.intSeen.get (fun _ => 0) k = p.arg.toNat → Completes (.interrupt p) s s1.releaseEpochs)
      ∧ (s.fab.active = true → s1.fab.intSeen.get (fun _ => 0) k ≠ p.arg.toNat → Completes (.interrupt p) s
          (({ s1 with fab := { s1.fab with intSeen := s1.fab.intSeen.set (fun _ => 0) k p.arg.toNat } }).raiseVector p.part
            (devMember p.src)).releaseEpochs))
  ∧ (∀ (p : Fin 16) (s : State), s.alive = true →
      (p ∈ s.fab.intWait →
        let s1 := s.reach (s.fab.intAt.get (fun _ => 0) p.val + 100000)
        Completes (.interruptResend p) s ((({ s1 with fab := { s1.fab with
          intAt := s1.fab.intAt.set (fun _ => 0) p.val s1.now } } : State).bumpB p pgHbr R.HBR_INT_RESENT 1).sendInterrupt p))
      ∧ (p ∉ s.fab.intWait → Completes (.interruptResend p) s s))
  ∧ (∀ (tag : BitVec 17) (s : State), s.alive = true →
      (s.openTx tag.toNat = none → Completes (.requestTimeout tag) s s)
      ∧ ∀ x, s.openTx tag.toNat = some x → (∀ id, x.owner ≠ .job id) → Completes (.requestTimeout tag) s
          ((s.reach (x.sentAt + 1000 * wbits (s.reg pgRte R.RTE_TIMEOUT) 23 0)).failTx tag.toNat cLinkDown))
  ∧ ∀ (i : Nat) (s : State), s.alive = true →
      (s.fab.epochHeld[i]? = none → Completes (.epochHoldExpiry i) s s)
      ∧ ∀ h : EpochHold, s.fab.epochHeld[i]? = some h →
        let s1 := s.reach (h.since + 1000 * wbits (s.reg pgRte R.RTE_HOLD) 15 0)
        let s2 := { s1 with fab := { s1.fab with epochHeld := s.fab.epochHeld.eraseIdx i } }
        let s3 := s2.countStale h.packet
        Completes (.epochHoldExpiry i) s
          ((if h.packet.type = ptSignal then s3.dropSignal h.packet 2 else s3).nack h.packet cStaleEpoch)

/-- The routing registers and the host bridge (R60, R427, R431, R435 to R439, R445, R446): a route entry takes fitted links
with a hop limit, or is ignored; an epoch only rises; a window does not reach the DRS; a standby bridge takes over once its
port is up; an access by a function that is off is an Unsupported Request, one by another opens its requests; the MSI-X table
answers, and unmasking a pending vector sends it; a function-level reset clears the function's windows and MSI-X state alone. -/
def Obligations.RoutingAndTheHostBridge : Prop :=
  (∀ (r : Req) (off : BitVec 24) (v : DWord) (s : State), s.alive = true → isPairWritable off.toNat = true →
    s.mayWrite r pgRte (off.toNat % 4096) true = true →
    let o := off.toNat % 4096
    let ok := (∀ n ∈ routeCandidates v.toNat, s.linkFitted n = true) ∧ (routeCandidates v.toNat = [] ∨ 0 < routeMaxHops v.toNat)
    (ok → Completes (.rteEntryWrite r off v) s
      ((s.setReg pgRte o (word v.toNat)).setReg pgRte (o + 4) (word (v.toNat / 2 ^ 32 % 2 ^ 29))))
    ∧ (¬ ok → Completes (.rteEntryWrite r off v) s (s.cmdIgnored (s.reqPart r) pgRte)))
  ∧ (∀ (r : Req) (g : BitVec 8) (v : Word) (s : State), s.alive = true → s.mayWrite r pgRte (R.RTE_EPOCH + 4 * g.toNat) true = true →
      (v.toNat < (s.epochOf g.toNat).toNat → Completes (.rteEpoch r g v) s (s.cmdIgnored (s.reqPart r) pgRte).releaseEpochs)
      ∧ ((s.epochOf g.toNat).toNat ≤ v.toNat →
          Completes (.rteEpoch r g v) s (s.setReg pgRte (R.RTE_EPOCH + 4 * g.toNat) v).releaseEpochs))
  ∧ (∀ (r : Req) (n : Fin 16) (v : Word) (s : State), s.alive = true → s.mayWrite r pgHbr (R.HBR_WIN + 4 * n.val) false = true →
      (wbits v 15 0 = 0xFFFF → Completes (.hbrWin r n v) s (s.cmdIgnored (s.reqPart r) pgHbr))
      ∧ (wbits v 15 0 ≠ 0xFFFF → Completes (.hbrWin r n v) s (s.setRegB (s.reqPart r) pgHbr (R.HBR_WIN + 4 * n.val) v)))
  ∧ (∀ (r : Req) (v : Word) (s : State), s.alive = true → s.mayWrite r pgHbr R.HBR_ROLE true = true →
      let standby := v.getLsbD 3 = true ∧ s.sys.bridgeStandby = true ∧ s.sys.bridgeEn = false ∧ s.fab.active = false
      let takesOver (t : State) := ({ t with fab := { t.fab with active := true, takeover := false } }).statusAll pgHbr 5
      (¬ standby → Completes (.takeover r v) s s)
      ∧ (standby → s.fab.pcieUp = true → Completes (.takeover r v) s (takesOver s))
      ∧ (standby → s.fab.pcieUp = false → Completes (.takeover r v) s { s with fab := { s.fab with takeover := true } })
      ∧ (∀ speed width, let up := { s with fab := { s.fab with pcieUp := true, pcieSpeed := speed, pcieWidth := width } }
          (s.sys.bridgeEn = false ∧ s.sys.bridgeStandby = false → Completes (.pcieLinkUp speed width) s s)
          ∧ (s.sys.bridgeEn = true ∨ s.sys.bridgeStandby = true →
            Completes (.pcieLinkUp speed width) s (if s.fab.takeover then takesOver up else up)))
      ∧ (s.fab.pcieUp = true → Completes .pcieDown s
          (({ s with fab := { s.fab with pcieUp := false, pcieSpeed := 0, pcieWidth := 0 } }).statusAll pgHbr 4)
        ∧ ∀ n : Fin 16, Completes (.sriovVfEnable n) s { s with fab := { s.fab with numVfs := n.val } })
      ∧ (s.fab.pcieUp = false → Completes .pcieDown s s))
  ∧ (∀ (fn : Fin 16) (addr size : Nat) (w : Option DWord) (b : Option (List Byte)) (x : Option Word) (s : State), s.alive = true →
      let off := s.fab.active = false ∨ (fn ≠ 0 ∧ s.fab.numVfs < fn.val)
      let unsupported := { s with out := s.out ++ [.completion fn false false []] }
      (s.fab.pcieUp = true → off → Completes (.bar0Access fn addr size w) s unsupported.releaseEpochs
        ∧ Completes (.bar2Access fn addr size b) s unsupported.releaseEpochs ∧ Completes (.bar4Access fn addr x) s unsupported)
      ∧ (s.fab.pcieUp = true → ¬ off →
        let part (lo n : Nat) := w.map (fun v => leBytes n (v.toNat / 2 ^ (8 * lo)))
        let a := drsBase + addr % 2 ^ 24
        let i := addr / 2 ^ 32 % 16
        let win := s.regB fn pgHbr (R.HBR_WIN + 4 * i)
        let en := (s.regB fn pgHbr R.HBR_WIN_EN).getLsbD i
        Completes (.bar0Access fn addr size w) s (s.barOpen fn (mkDev (devGroup s.devId) (addr / 2 ^ 24 % 64)) size w.isSome
          (if size = 8 then [(a, 4, part 0 4), (a + 4, 4, part 4 4)] else [(a, size, part 0 size)])).releaseEpochs
        ∧ (en = false → Completes (.bar2Access fn addr size b) s unsupported.releaseEpochs)
        ∧ (∀ len, en = true → len = (b.map List.length).getD size → 0 < len → len ≤ 2048 →
            Completes (.bar2Access fn addr size b) s (s.barOpen fn (BitVec.ofNat 16 (wbits win 31 16)) len b.isSome
              [(wbits win 15 0 * 2 ^ 32 + addr % 2 ^ 32, len, b.map (fun bs => bs.take 2048))]).releaseEpochs)
        ∧ Completes (.bar4Access fn addr none) s
            { s with out := s.out ++ [.completion fn true false (leBytes 4 (s.msixRead fn addr).toNat)] }
        ∧ (∀ v, 0x800 ≤ addr → Completes (.bar4Access fn addr (some v)) s { s with out := s.out ++ [.completion fn true false []] })
        ∧ (∀ v, addr < 0x800 →
            let m := (s.msixAt fn (addr / 16)).write (addr % 16 / 4) v
            (m.pend = true → m.masked = false → Completes (.bar4Access fn addr (some v)) s
              { s.setMsix fn (addr / 16) { m with pend := false } with
                out := s.out ++ [.msix fn (addr / 16) m.addr m.data] ++ [.completion fn true false []] })
            ∧ (m.pend = false ∨ m.masked = true → Completes (.bar4Access fn addr (some v)) s
              { s.setMsix fn (addr / 16) m with out := s.out ++ [.completion fn true false []] }))))
  ∧ ∀ (fn : Fin 16) (s : State), s.alive = true →
      let s1 := (List.range 16).foldl (fun s i => s.setRegB fn pgHbr (R.HBR_WIN + 4 * i) 0) (s.setRegB fn pgHbr R.HBR_WIN_EN 0)
      Completes (.functionLevelReset fn) s
        { s1 with fab := { s1.fab with msix := s.fab.msix.keep (fun k => decide (k / 128 ≠ fn.val)) } }

/-! ### The root of trust and recovery -/

/-- Requests of the root of trust (R472 to R481, R491 to R496, R500): a request while the bank is BUSY is ignored with
CMD_IGNORED; behind another it waits; else it is served: one that ends at once leaves its result, one that goes on stays at the
front until REQ_DONE finds that what it waits for has ended. A created partition is CONFIGURING, an activated one ACTIVE, one
in teardown TEARDOWN; a request in the wrong state, with DEBUG_OPEN set, without an identity to sign with, or for a slot or an
ephemeral key not held, ends with its code alone; a destroyed key is gone. -/
def Obligations.RootOfTrustServesRequests : Prop :=
  (∀ (c : Instr) (r : Req) (slot : Option Nat) (op : Nat) (p : Fin 16) (s : State), s.alive = true →
    rotRequest c = some (r, slot, op, p) →
    let tenant := slot.isSome
    let pn := if tenant then pgRotT else pgRot
    let status := if tenant then R.ROT_T_STATUS else R.ROT_REQ_STATUS
    let rp := s.reqPart r
    let b := if tenant then rp else 0
    let q : RotReq := ⟨if tenant then some rp else none, op, if tenant then rp else p, slot.getD 0,
      if tenant then [] else (List.range 8).map (fun i => s.reg pgRot (R.ROT_REQ_ARG + 4 * i)),
      s.bufBytes b pn (if tenant then R.ROT_T_BUF else R.ROT_BUF) 2048, false⟩
    let s1 := s.setRegB b pn status (s.regB b pn status ||| 0x80000000)
    let s2 := { s1 with rot := { s1.rot with queue := s.rot.queue ++ [q] } }
    s.mayWrite r pn (if tenant then R.ROT_T_OP else R.ROT_REQ_OP) false = true →
    ((s.regB b pn status).getLsbD 31 = true → Completes c s (s.cmdIgnored rp pn))
    ∧ ((s.regB b pn status).getLsbD 31 = false →
      (∀ x rest, s.rot.queue = x :: rest → x.started = true → Completes c s s2)
      ∧ (s.rot.queue = [] →
        (∀ code data s3, s2.rotBegin q = (some (code, data), s3) →
          Completes c s ({ s3 with rot := { s3.rot with queue := [] } }.finishReq q code data))
        ∧ (∀ s3, s2.rotBegin q = (none, s3) → Completes c s { s3 with rot := { s3.rot with
            queue := { q with started := true } :: s3.rot.queue.filter (fun x => x ≠ q) } })
        ∧ (tenant = false →
          let stands (t : State) (code : Nat) := t.reg pgRot R.ROT_REQ_STATUS = word code ∧ t.rot.queue = []
          let x := s.part p
          (op = 1 → p ≠ 0 → x.st = .free → s.rot.lifecycle ≠ 0 →
            (s.rot.debugOpen = false → CompletesIn c s (fun t => stands t 0 ∧ t.part p = { x with st := .configuring, gen := x.gen + 1 }
              ∧ t.mem.keys = s.mem.keys ||| BitVec.ofNat 16 (2 ^ p.val)))
            ∧ (s.rot.debugOpen = true → CompletesIn c s (fun t => stands t 6 ∧ t.pt = s.pt ∧ t.mem = s.mem)))
          ∧ (op = 1 ∧ (p = 0 ∨ x.st ≠ .free ∨ s.rot.lifecycle = 0) ∨ (op = 2 ∨ op = 3 ∨ op = 6) ∧ x.st ≠ .configuring
              ∨ op = 6 ∧ (s.squaresOf p = [] ∨ s.meshSlots p = 0) ∨ op = 7 ∧ p = 0
              ∨ (op = 4 ∨ op = 5 ∨ op = 7) ∧ x.st ≠ .configuring ∧ x.st ≠ .active →
            CompletesIn c s (fun t => stands t 1 ∧ t.pt = s.pt ∧ t.mem = s.mem))
          ∧ (op = 6 → x.st = .configuring → s.squaresOf p ≠ [] → s.meshSlots p ≠ 0 →
            CompletesIn c s (fun t => stands t 0 ∧ t.part p = { x with st := .active, gen := x.gen + 1 }))
          ∧ (op = 7 → p ≠ 0 → x.st = .configuring ∨ x.st = .active → CompletesIn c s (fun t => (t.part p).st = .teardown
              ∧ t.rot.queue = [{ q with started := true }])))
        ∧ (tenant = true →
          let key := s.holdsKey rp (slot.getD 0)
          let ends (code : Nat) := CompletesIn c s (fun t => t.regB rp pgRotT R.ROT_T_STATUS = word code
            ∧ t.pt = s.pt ∧ t.rot.eph = s.rot.eph)
          ((s.part rp).st = .teardown → ends 1)
          ∧ ((s.part rp).st ≠ .teardown →
            (op ≤ 3 → key = false → ends 2)
            ∧ (op = 1 → key = true → s.rot.debugOpen = true → ends 6)
            ∧ (op = 1 ∧ key = true ∧ s.rot.debugOpen = false ∨ 4 ≤ op → s.hasIdentity = false → ends 1)
            ∧ (op = 2 → key = true → s.eph? rp (slot.getD 0) = none → ends 8)
            ∧ (op = 3 → key = true → CompletesIn c s (fun t => t.regB rp pgRotT R.ROT_T_STATUS = word 0
                ∧ ∀ k, s.keySlot (slot.getD 0) = some k → k.part = rp → t.keySlot (slot.getD 0) = none)))))))
  ∧ ∀ (s : State), s.alive = true →
      (s.rot.queue = [] → Completes .reqDone s s)
      ∧ ∀ q, s.rot.queue = [q] → q.started = true →
        (s.rotFinish q = none → Completes .reqDone s s)
        ∧ ∀ code data s1, s.rotFinish q = some ((code, data), s1) →
          Completes .reqDone s ({ s1 with rot := { s1.rot with queue := [] } }.finishReq q code data)

/-- SPDM (R487, R570): each of the twelve requests completes in every state of a device with power, and is answered to its sender
over the transport it came by; but for the answer only the responder's own state changes, and none of that before the alias key
is ready. GET_VERSION starts it afresh, NEGOTIATE_ALGORITHMS takes effect after it, KEY_EXCHANGE then opens a session, which
FINISH completes and END_SESSION ends, and the other requests leave it as it is. What a response holds, and which number a
session bears, the statement leaves open. -/
def Obligations.SpdmRequestsAreAnswered : Prop :=
  ∀ (c : Instr) (code : Nat) (bs : List Byte) (s : State), s.alive = true → spdmRequest c = some (code, bs) →
    let x := s.rot.spdm
    let eid := BitVec.ofNat 8 (wbits (s.reg pgArb R.ARB_MCTP) 7 0)
    let anew := code = 0x84
    let opens := code = 0xE4 ∧ x.negotiated = true
    let ends := anew ∨ code = 0xEC
    ∃ reply f y,
      Completes c s (State.mctpSend { s with free := f, rot := { s.rot with spdm := y } }
        ⟨s.arb.spdmFrom.1, eid, s.arb.spdmFrom.2, 5, reply, 0⟩)
      ∧ (s.rot.akeyReady = false → y = x)
      ∧ (s.rot.akeyReady = true →
        (y.version = true ↔ anew ∨ x.version = true)
        ∧ (y.negotiated = true ↔ ¬ anew ∧ (if code = 0xE3 then x.version = true else x.negotiated = true))
        ∧ (y.session.isSome = true ↔ ¬ ends ∧ (opens ∨ x.session.isSome = true))
        ∧ (y.finished = true ↔ ¬ ends ∧ ¬ opens ∧ (if code = 0xE5 then x.session.isSome = true else x.finished = true))
        ∧ (¬ ends → ¬ opens → y.session = x.session))

/-- The recovery plan and adjournments (R541 to R543, R550 to R560): a plan is taken while the group is STEADY and saves nothing,
or the commit is BUSY or BAD; an adjournment begins on the captain with ADJOURN to every live member, two steps past the highest;
a member holds its GO tally at that step, or sends LATE; at that step it asks the movers for the copies of its ranges, and once
all are made it lets its GO tally go on and reports its digest; with every digest the captain closes it, and with every copy
confirmed, or the host's word, it is SECURED; a restore goes to every member, and the group is STEADY when each has reported.
Messages that a device sends itself are then taken. -/
def Obligations.PlansAndAdjournments : Prop :=
  ∀ (s : State), s.alive = true → s.arbiterRuns = true → s.rcv.mail = [] →
    let own (t : State) := State.readMail 4096 t
    let rcv (t : State) (f : Recovery → Recovery) : State := { t with rcv := f t.rcv }
    (∀ v, Completes (.planLo v) s (rcv s (fun r => { r with planLo := v }))
      ∧ Completes (.planHi v) s (rcv s (fun r => { r with planHi := v &&& 0xFFFF })))
    ∧ (∀ v, v ≠ 1 → Completes (.commit v) s s)
    ∧ (s.rcv.gstate ≠ .steady ∨ s.saving = true → Completes (.commit 1) s (rcv s (fun r => { r with result := 2 })))
    ∧ (s.rcv.gstate = .steady → s.saving = false → ∀ s1,
        (s.loadPlan = (none, s1) → Completes (.commit 1) s (rcv s1 (fun r => { r with result := 1 })))
        ∧ ∀ pl, s.loadPlan = (some pl, s1) → CompletesIn (.commit 1) s (fun t => t.rcv.plan = some pl ∧ t.rcv.result = 0
            ∧ t.rcv.role = pl.roleOf s1.devId ∧ t.rcv.captain = pl.captain ∧ t.rcv.deputy = pl.deputy ∧ t.rcv.gstate = .steady
            ∧ t.rcv.live = BitVec.ofNat 64 (2 ^ pl.members.length - 1)
            ∧ t.rcv.buddies = assignBuddies pl.members (BitVec.ofNat 64 (2 ^ pl.members.length - 1)) []))
    ∧ (∀ v, let p := Fin.ofNat 16 (wbits v 27 24)
        let ad := s.adjOf p
        (ad.seq % 2 ^ 24 ≠ wbits v 23 0 ∨ ad.seq = 0 → Completes (.hostConfirm v) s s)
        ∧ (ad.seq % 2 ^ 24 = wbits v 23 0 → ad.seq ≠ 0 → CompletesIn (.hostConfirm v) s (fun t => (t.adjOf p).hostHas = ad.seq
            ∧ (t.adjOf p).st = (if ad.st = .exposed then .secured else ad.st)
            ∧ (ad.st = .exposed → (t.adjOf p).secured = ad.seq))))
    ∧ (∀ pl (p : Fin 16) a, s.rcv.plan = some pl → pl.adj? p = some a →
      let ad := s.adjOf p
      let captain := s.rcv.role = .captain
      let serves := s.rcv.role ≠ .standby ∧ s.rcv.role ≠ .none
      let all (xs : List Nat) := s.liveMembers.all (fun m => xs.contains m)
      (∀ c s1, (c = .adjournNow p ∧ s1 = s ∧ s1.rcv.gstate = .steady ∧ s1.savingOf p = false)
          ∨ (c = .adjournInterval p ∧ s1 = s.reach (ad.savedAt + ad.interval * 1000000000) ∧ s1.rcv.gstate = .steady
            ∧ s1.savingOf p = false)
          ∨ (∃ q, c = .late q ∧ s1 = s ∧ s.isMgmt q mkReport (some rpLate) ∧ Fin.ofNat 16 (payNum q 1 1) = p ∧ payNum q 8 8 = ad.seq
              ∧ ad.st = .saving) → captain →
        let step := (s1.topStep a + 2) % 2 ^ 32
        Completes c s (own (s1.liveMembers.foldl (fun t m =>
            t.mgmt (pl.dev m) mkAdjourn (leBytes 4 p.val ++ leBytes 4 step ++ leBytes 8 (ad.seq + 1)))
          (s1.setAdj p { ad with seq := ad.seq + 1, step := step, st := .saving, digests := [], times := [], confirmed := [] }))))
      ∧ (s.savingOf p = true ∨ ¬ captain ∨ s.rcv.gstate ≠ .steady → Completes (.adjournNow p) s s)
      ∧ (∀ q, s.isMgmt q mkAdjourn none → Fin.ofNat 16 (payNum q 0 1) = p → q.src = s.rcv.captain → serves →
        let step := payNum q 4 4
        (tallyReached (s.tally a.stepTally) (word step) = true → Completes (.adjourn q) s (own (s.report rpLate p (payNum q 8 8) 0 [])))
        ∧ (tallyReached (s.tally a.stepTally) (word step) = false → Completes (.adjourn q) s (own (((s.dropCopies p).setAdj p { ad with
            seq := payNum q 8 8, step := step, st := .saving, goAt := some step, saveFrom := none }).putTally a.goTally (word step)))))
      ∧ (ad.goAt = none → Completes (.saveStart p) s s)
      ∧ (∀ goal, ad.goAt = some goal →
        (tallyReached (s.tally a.stepTally) (word goal) = false → Completes (.saveStart p) s s)
        ∧ (tallyReached (s.tally a.stepTally) (word goal) = true →
          (ad.saveFrom = none → Completes (.saveStart p) s (own (s.beginSave p a goal).pace)
            ∧ (s.beginSave p a goal).adjOf p = { ad with
                saveFrom := some s.now, own := setNth ad.own ad.saveSlot (some ⟨ad.seq, goal, s.snapshot p, [], []⟩) }
            ∧ (s.beginSave p a goal).rcv.copies = s.rcv.copies
                ++ (shardRuns a (a.slotAt ad.saveSlot + configSize)).map (fun r => ⟨p, r.1, none, r.2.1, r.2.2, false⟩))
          ∧ (∀ since, ad.saveFrom = some since →
            (s.copying p = true → Completes (.saveStart p) s (own s.pace))
            ∧ (s.copying p = false → Completes (.saveStart p) s (own (s.endSave p a goal since)))
            ∧ (s.copying p = false → s.rcv.captain ≠ s.devId → CompletesIn (.saveStart p) s (fun t =>
                (t.adjOf p).goAt = none ∧ (t.adjOf p).saveFrom = none ∧ t.tally a.goTally = word (goal + 2 ^ 30))))))
      ∧ (∀ q m, s.isMgmt q mkReport (some rpDigest) → Fin.ofNat 16 (payNum q 1 1) = p → pl.memberAt q.src = some m → captain →
        ad.st = .saving → s.savingOf p = true → payNum q 8 8 = ad.seq →
        let ad1 := { ad with
          digests := (m, (q.payload.drop 24).take 64) :: ad.digests.filter (fun d => d.1 ≠ m)
          times := (m, payNum q 16 8) :: ad.times.filter (fun d => d.1 ≠ m) }
        (all (ad1.digests.map (·.1)) = false → Completes (.digest q) s (s.setAdj p ad1))
        ∧ (all (ad1.digests.map (·.1)) = true → Completes (.digest q) s (own ((s.setAdj p ad1).formSeal p pl))))
      ∧ (∀ q i x, s.isMgmt q mkSealMsg none → Fin.ofNat 16 (payNum q 0 1) = p → q.src = s.rcv.captain → serves →
        i = (if (nth none ad.own 0).any (fun c => c.seq = payNum q 8 8) then 0 else 1) → nth none ad.own i = some x → x.seq = payNum q 8 8 →
        let ad1 := { ad with own := setNth ad.own i (some { x with sealed := (q.payload.drop 16).take 64 }) }
        let ad2 := if s.isCaptain then ad1 else if s.allBuddied then ad1.secure else { ad1 with st := .exposed }
        let s1 := (s.setAdj p ad2).sendSlot pl a i
        Completes (.seal q) s (own (rcv s1 (fun r => { r with owes := r.owes ++ s.wards.map (fun m => (p, m)) }))))
      ∧ (∀ q b, s.isMgmt q mkReport (some rpConfirm) → Fin.ofNat 16 (payNum q 1 1) = p → pl.memberAt q.src = some b → captain →
        payNum q 8 8 = ad.seq → ad.st = .saving ∨ ad.st = .exposed →
        let now := (ad.confirmed ++ (List.range pl.members.length).filter (fun m => s.buddyOf m = some b)).eraseDups
        let full := all now = true ∧ all (ad.digests.map (·.1)) = true
        CompletesIn (.confirm q) s (fun t => (t.adjOf p).confirmed = now ∧ (¬ full → (t.adjOf p).st = ad.st)
          ∧ (full → (t.adjOf p).st = .secured ∧ (t.adjOf p).secured = ad.seq)))
      ∧ (∀ v, Fin.ofNat 16 (wbits v 27 24) = p →
        (captain → s.rcv.gstate = .filling → Completes (.restore v) s s)
        ∧ (captain → s.rcv.gstate ≠ .filling → Completes (.restore v) s (own (s.restoreGroup p (wbits v 23 0))))
        ∧ (¬ captain → serves → Completes (.restore v) s (own (s.restoreHere p (wbits v 23 0)).2))
        ∧ (¬ serves → Completes (.restore v) s s))
      ∧ (∀ q m, s.isMgmt q mkReport (some rpRestored) → Fin.ofNat 16 (payNum q 1 1) = p → pl.memberAt q.src = some m → captain →
        s.rcv.gstate = .restoring →
        let s1 := s.setAdj p { ad with restoredBy := (m :: ad.restoredBy).eraseDups }
        let every := ∀ x ∈ s.rcv.restoring, ∀ y ∈ s.liveMembers, y ∈ (s1.adjOf x.1).restoredBy
        (¬ every → Completes (.restored q) s s1)
        ∧ (every → Completes (.restored q) s
          (rcv s1 (fun r => { r with gstate := .steady, restoring := [], useOld := false, fills := [] })))))

/-- A group's membership (R430, R537 to R549, R561): a sending looks after the checks owed, a standby's fill and the copies that
wait, and heartbeats go to whom the role names; one that arrives clears the misses, the captain's word is followed and a wrong
digest leaves the plan; a silent member is counted, declared failed at its cause, and the group's epoch rises; the deputy, then the
heirs, succeed a silent captain, and its fills under way start anew (R547); an EPOCH is followed; a standby that accepts TAKE has
the failed member's place; the captain counts it live, turns to the next standby where it is refused, and restores when every fill
is verified. Messages that a device sends itself are then taken. -/
def Obligations.GroupMembershipChanges : Prop :=
  ∀ (s : State), s.alive = true → s.arbiterRuns = true → s.rcv.mail = [] → ∀ pl, s.rcv.plan = some pl →
    let own (t : State) := State.readMail 4096 t
    let rcv (t : State) (f : Recovery → Recovery) : State := { t with rcv := f t.rcv }
    let captain := s.rcv.role = .captain
    let missed (d : BitVec 16) := s.rcv.misses.get (fun _ => 0) d.toNat
    (∃ s2, s2 = (((s.rcv.owes.foldl State.checkOwed s).rebuild pl).checkFill pl).pace ∧ Completes .heartbeatSend s
      (own ((s2.heartbeatTo pl).foldl (fun t d => t.mgmt d mkHeartbeat (t.heartbeatBytes pl)) s2)))
    ∧ (s.rcv.taken = none → s.rebuild pl = s ∧ s.checkFill pl = s) ∧ (s.rcv.copies = [] → s.pace = s)
    ∧ (∀ q, s.isMgmt q mkHeartbeat none →
      let heard := rcv s (fun r => { r with misses := r.misses.set (fun _ => 0) q.src.toNat 0 })
      let claims := payNum q 4 1 = 2 ∧ ¬ captain ∧ (s.epochOf (devGroup s.devId)).toNat ≤ payNum q 0 4
      let deaf := ∀ m, pl.memberAt q.src = some m → liveBit s.rcv.live m = false
      (¬ claims → deaf ∨ (¬ captain ∧ s.rcv.role ≠ .deputy) → Completes (.heartbeat q) s heard)
      ∧ (¬ claims → ∀ m, pl.memberAt q.src = some m → captain ∨ s.rcv.role = .deputy → liveBit s.rcv.live m = true →
          Completes (.heartbeat q) s (own (heard.hearMember pl m q)))
      ∧ (claims → CompletesIn (.heartbeat q) s (fun t => t.rcv.captain = q.src ∧ t.rcv.live = BitVec.ofNat 64 (payNum q 16 8)
          ∧ ((s.rcv.role = .member ∨ s.rcv.role = .deputy) → (q.payload.drop 8).take 8 ≠ pl.digest →
              t.rcv.role = .none ∧ t.rcv.result = 3))))
    ∧ (∀ m : BitVec 6, let d := pl.dev m.toNat
      let counts := captain ∨ s.rcv.role = .deputy ∨ (s.rcv.role = .member ∧ d = s.rcv.captain)
      (counts → m.toNat < pl.members.length → d ≠ s.devId → Completes (.heartbeatMissed m) s
        (rcv s (fun r => { r with misses := r.misses.set (fun _ => 0) d.toNat (missed d + 1) })))
      ∧ (¬ counts ∨ d = s.devId ∨ pl.members.length ≤ m.toNat → Completes (.heartbeatMissed m) s s)
      ∧ (captain → liveBit s.rcv.live m.toNat = true → m.toNat < pl.members.length → d ≠ s.devId →
        (missed d < 3 → d.toNat ∉ s.rcv.bad → Completes (.memberDeclaredFailed m) s s)
        ∧ (3 ≤ missed d ∨ d.toNat ∈ s.rcv.bad →
          Completes (.memberDeclaredFailed m) s (own (s.declare pl [m.toNat]))
          ∧ (s.rcv.gstate = .steady → s.freeStandby pl = none → 0 < pl.rowSize → s.fab.epochHeld = [] →
            CompletesIn (.memberDeclaredFailed m) s (fun t => t.rcv.gstate = .shrunk
              ∧ t.epochOf (devGroup s.devId) = s.epochOf (devGroup s.devId) + 1
              ∧ ∀ x < 64, x / pl.rowSize = m.toNat / pl.rowSize → liveBit t.rcv.live x = false)))))
    ∧ ((s.claimAt pl = none ∨ (∃ n, s.claimAt pl = some n ∧ missed s.rcv.captain < n) → Completes .captainSuccession s s)
      ∧ ∀ n, s.claimAt pl = some n → n ≤ missed s.rcv.captain → s.rcv.role = .deputy →
        let gone := (List.range pl.members.length).filter (fun m =>
          pl.dev m ≠ s.devId && (pl.dev m = s.rcv.captain || !liveBit s.rcv.live m))
        ∃ d, Completes .captainSuccession s (own ((((rcv s (fun r => { r with role := .captain, captain := s.devId, deputy := d })).record
          0x104 0 s.devId.toNat 0).declare pl gone).refill pl true))
          ∧ (d = s.devId ∨ ∃ m ∈ s.liveMembers, m ∉ gone ∧ pl.dev m = d))
    ∧ (∀ q, s.isMgmt q mkEpoch none →
      let e := payNum q 0 4
      let g := devGroup (BitVec.ofNat 16 (payNum q 4 2))
      let old := (s.epochOf g).toNat
      (g ≠ devGroup s.devId → (old < e → Completes (.epoch q) s (own ((s.raiseEpoch g (word e)).releaseEpochs)))
        ∧ (e ≤ old → Completes (.epoch q) s s))
      ∧ (g = devGroup s.devId → old < e → s.fab.epochHeld = [] → s.rcv.role = .member → CompletesIn (.epoch q) s (fun t =>
          t.epochOf g = word e ∧ t.rcv.captain = BitVec.ofNat 16 (payNum q 4 2) ∧ t.rcv.deputy = BitVec.ofNat 16 (payNum q 6 2)
          ∧ t.rcv.role = (if BitVec.ofNat 16 (payNum q 6 2) = s.devId then .deputy else .member))))
    ∧ (∀ q, s.isMgmt q mkTake none →
      let d : BitVec 16 := BitVec.ofNat 16 (payNum q 0 2)
      let cap : BitVec 16 := BitVec.ofNat 16 (payNum q 2 2)
      let told := rcv s (fun r => { r with captain := cap })
      (s.rcv.role ≠ .standby ∨ s.rcv.taken ≠ none ∨ pl.memberAt d = none →
        Completes (.take q) s (own (told.report rpTakeRefused 0 0 0 [])))
      ∧ (∀ m, s.rcv.role = .standby → s.rcv.taken = none → pl.memberAt d = some m → cap ≠ s.devId →
        CompletesIn (.take q) s (fun t => t.devId = d ∧ t.rcv.role = .member ∧ t.rcv.taken = some m ∧ t.rcv.captain = cap)))
    ∧ (∀ q f, captain → s.rcv.fills.find? (fun f => f.standby = q.src.toNat && !f.accepted) = some f →
      (s.isMgmt q mkReport (some rpTakeOk) → f.member < 64 → CompletesIn (.takeOk q) s (fun t => liveBit t.rcv.live f.member = true
        ∧ t.rcv.fills = s.rcv.fills.map (fun x => if x.member = f.member then { x with accepted := true } else x)))
      ∧ (s.isMgmt q mkReport (some rpTakeRefused) → Completes (.takeRefused q) s (own
          ((rcv s (fun r => { r with fills := r.fills.filter (fun x => x.member ≠ f.member) })).fillOrShrink pl f.member))))
    ∧ ∀ q m, captain → s.isMgmt q mkReport (some rpFilled) → pl.memberAt q.src = some m → s.rcv.gstate = .filling →
      (∃ f ∈ s.rcv.fills, f.member = m ∧ f.accepted = true) →
      let fills := s.rcv.fills.map (fun x => if x.member = m then { x with filled := true } else x)
      let s1 := rcv s (fun r => { r with fills := fills })
      ((∃ f ∈ fills, f.filled = false) → Completes (.filled q) s s1)
      ∧ ((∀ f ∈ fills, f.filled = true) → Completes (.filled q) s (own (s1.fillsOver pl)))
end

