-- ==== Sys2Proof/Laws/FMap.lean ====
section
/-!
SUPPORT. Laws of the sparse maps: a read after a write, that every operation keeps the canonical form, and that maps in
canonical form which read alike are equal.
-/

namespace Sys2Proof.Machine

variable {α : Type}

theorem cellsFind_insert_same (l : List (Nat × α)) (k : Nat) (v : α) : cellsFind (cellsInsert l k v) k = some v := by
  induction l with
  | nil => simp [cellsInsert, cellsFind]
  | cons c t ih =>
    obtain ⟨k', v'⟩ := c
    simp only [cellsInsert]
    split
    · simp [cellsFind]
    · split
      · simp [cellsFind]
      · next h1 h2 => simp [cellsFind, ih, Ne.symm h2]

theorem cellsFind_insert_other (l : List (Nat × α)) {k j : Nat} (v : α) (h : j ≠ k) :
    cellsFind (cellsInsert l k v) j = cellsFind l j := by
  induction l with
  | nil => simp [cellsInsert, cellsFind, Ne.symm h]
  | cons c t ih =>
    obtain ⟨k', v'⟩ := c
    simp only [cellsInsert]
    split
    · simp [cellsFind, Ne.symm h]
    · split
      · next h2 => simp [cellsFind, ← h2, Ne.symm h]
      · simp [cellsFind, ih]

theorem cellsFind_erase_other (l : List (Nat × α)) {k j : Nat} (h : j ≠ k) :
    cellsFind (cellsErase l k) j = cellsFind l j := by
  induction l with
  | nil => rfl
  | cons c t ih =>
    obtain ⟨k', v'⟩ := c
    simp only [cellsErase]
    split
    · next h2 => simp [cellsFind, ih, h2, Ne.symm h]
    · simp [cellsFind, ih]

theorem cellsFind_erase_same (l : List (Nat × α)) (k : Nat) : cellsFind (cellsErase l k) k = none := by
  induction l with
  | nil => rfl
  | cons c t ih =>
    obtain ⟨k', v'⟩ := c
    simp only [cellsErase]
    split
    · exact ih
    · next h2 => simp only [cellsFind, h2, if_false]; exact ih

section Ok

variable [DecidableEq α] (d : Nat → α)

/-- A lower bound may be dropped. -/
theorem cellsOk_none {lo : Option Nat} {l : List (Nat × α)} (h : cellsOk d lo l = true) : cellsOk d none l = true := by
  cases l with
  | nil => rfl
  | cons c t => simp only [cellsOk, Bool.and_eq_true, Bool.true_and] at h ⊢; exact ⟨h.1.2, h.2⟩

theorem cellsOk_mono {l : List (Nat × α)} {m n : Nat} (h : cellsOk d (some m) l = true) (hn : n ≤ m) :
    cellsOk d (some n) l = true := by
  cases l with
  | nil => rfl
  | cons c t =>
    simp only [cellsOk, Bool.and_eq_true, decide_eq_true_eq] at h ⊢
    exact ⟨⟨by omega, h.1.2⟩, h.2⟩

theorem cellsOk_cons {lo : Option Nat} {t : List (Nat × α)} {k : Nat} {v : α} :
    cellsOk d lo ((k, v) :: t) = true ↔ (∀ m, lo = some m → m < k) ∧ v ≠ d k ∧ cellsOk d (some k) t = true := by
  cases lo <;> simp [cellsOk, and_assoc]

theorem cellsOk_insert {lo : Option Nat} {l : List (Nat × α)} {k : Nat} {v : α} (h : cellsOk d lo l = true)
    (hlo : ∀ m, lo = some m → m < k) (hv : v ≠ d k) : cellsOk d lo (cellsInsert l k v) = true := by
  induction l generalizing lo with
  | nil => exact (cellsOk_cons d).2 ⟨hlo, hv, rfl⟩
  | cons c t ih =>
    obtain ⟨k', v'⟩ := c
    have h' := (cellsOk_cons d).1 h
    simp only [cellsInsert]
    split
    · next h1 => exact (cellsOk_cons d).2 ⟨hlo, hv, (cellsOk_cons d).2 ⟨by intro m hm; cases hm; exact h1, h'.2⟩⟩
    · split
      · next h1 h2 => subst h2; exact (cellsOk_cons d).2 ⟨hlo, hv, h'.2.2⟩
      · next h1 h2 =>
        refine (cellsOk_cons d).2 ⟨h'.1, h'.2.1, ih h'.2.2 ?_⟩
        intro m hm; cases hm; omega

theorem cellsOk_erase {lo : Option Nat} {l : List (Nat × α)} (k : Nat) (h : cellsOk d lo l = true) :
    cellsOk d lo (cellsErase l k) = true := by
  induction l generalizing lo with
  | nil => rfl
  | cons c t ih =>
    obtain ⟨k', v'⟩ := c
    have h' := (cellsOk_cons d).1 h
    simp only [cellsErase]
    split
    · cases lo with
      | none => exact ih (cellsOk_none d h'.2.2)
      | some m => exact ih (cellsOk_mono d h'.2.2 (Nat.le_of_lt (h'.1 m rfl)))
    · exact (cellsOk_cons d).2 ⟨h'.1, h'.2.1, ih h'.2.2⟩

theorem cellsOk_filter {lo : Option Nat} {l : List (Nat × α)} (p : Nat → Bool) (h : cellsOk d lo l = true) :
    cellsOk d lo (l.filter (fun c => p c.1)) = true := by
  induction l generalizing lo with
  | nil => rfl
  | cons c t ih =>
    obtain ⟨k', v'⟩ := c
    simp only [cellsOk, Bool.and_eq_true] at h
    simp only [List.filter]
    split
    · simp only [cellsOk, Bool.and_eq_true]; exact ⟨h.1, ih h.2⟩
    · refine ih ?_
      cases lo with
      | none => exact cellsOk_none d h.2
      | some m => exact cellsOk_mono d h.2 (by have := h.1.1; simp at this; omega)

end Ok

theorem cellsFind_filter (l : List (Nat × α)) (p : Nat → Bool) (k : Nat) :
    cellsFind (l.filter (fun c => p c.1)) k = if p k then cellsFind l k else none := by
  induction l with
  | nil => simp [cellsFind]
  | cons c t ih =>
    obtain ⟨k', v'⟩ := c
    by_cases hk : k' = k
    · subst hk
      by_cases hp : p k' = true
      · simp [List.filter, hp, cellsFind]
      · simp [List.filter, hp, ih]
    · by_cases hp : p k' = true
      · simp [List.filter, hp, cellsFind, hk, ih]
      · simp [List.filter, hp, cellsFind, hk, ih]

namespace FMap

@[simp] theorem get_empty (d : Nat → α) (k : Nat) : (emptyMap : FMap α).get d k = d k := rfl

@[simp] theorem get_nil (d : Nat → α) (k : Nat) : (⟨[]⟩ : FMap α).get d k = d k := rfl

/-- A read after a write to the same key. -/
@[simp] theorem get_set_same [DecidableEq α] (d : Nat → α) (m : FMap α) (k : Nat) (v : α) : (m.set d k v).get d k = v := by
  unfold FMap.set FMap.get
  split
  · next hv => simp [cellsFind_erase_same, hv]
  · simp [cellsFind_insert_same]

/-- A write leaves every other key alone. -/
theorem get_set_other [DecidableEq α] (d : Nat → α) (m : FMap α) {k j : Nat} (v : α) (h : j ≠ k) :
    (m.set d k v).get d j = m.get d j := by
  unfold FMap.set FMap.get
  split
  · simp [cellsFind_erase_other _ h]
  · simp [cellsFind_insert_other _ _ h]

theorem get_set [DecidableEq α] (d : Nat → α) (m : FMap α) (k j : Nat) (v : α) :
    (m.set d k v).get d j = if j = k then v else m.get d j := by
  split
  · next h => rw [h, get_set_same]
  · next h => exact get_set_other d m v h

theorem get_keep (d : Nat → α) (m : FMap α) (p : Nat → Bool) (k : Nat) :
    (m.keep p).get d k = if p k then m.get d k else d k := by
  unfold FMap.keep FMap.get
  rw [cellsFind_filter]
  split <;> rfl

theorem wf_empty [DecidableEq α] (d : Nat → α) : (emptyMap : FMap α).wf d = true := rfl

theorem wf_set [DecidableEq α] {d : Nat → α} {m : FMap α} (h : m.wf d = true) (k : Nat) (v : α) :
    (m.set d k v).wf d = true := by
  unfold FMap.set FMap.wf at *
  split
  · exact cellsOk_erase d k h
  · next hv => exact cellsOk_insert d h (by simp) hv

theorem wf_keep [DecidableEq α] {d : Nat → α} {m : FMap α} (h : m.wf d = true) (p : Nat → Bool) :
    (m.keep p).wf d = true := cellsOk_filter d p h

end FMap

end Sys2Proof.Machine
end

