-- ==== Sys2Proof/Laws/State.lean ====
section
/-!
SUPPORT. Each update of the state and each of its fields: the fields that an update leaves alone, and the reads after a
write of a register, a page, a fault-counting set, a partition, a pawn, a link, a vector, a channel and a spare.
-/

namespace Sys2Proof.Machine

open Sys2Proof

theorem State.withDrs_pending (s : State) (x : Drs) : ({ s with drs := x } : State).pending = s.pending := rfl
theorem State.withDrs_sys (s : State) (x : Drs) : ({ s with drs := x } : State).sys = s.sys := rfl
theorem State.withDrs_score (s : State) (x : Drs) : ({ s with drs := x } : State).score = s.score := rfl
theorem State.withDrs_squares (s : State) (x : Drs) : ({ s with drs := x } : State).squares = s.squares := rfl
theorem State.withDrs_sch (s : State) (x : Drs) : ({ s with drs := x } : State).sch = s.sch := rfl
theorem State.withDrs_mem (s : State) (x : Drs) : ({ s with drs := x } : State).mem = s.mem := rfl
theorem State.withDrs_pt (s : State) (x : Drs) : ({ s with drs := x } : State).pt = s.pt := rfl
theorem State.withDrs_fab (s : State) (x : Drs) : ({ s with drs := x } : State).fab = s.fab := rfl
theorem State.withDrs_mxe (s : State) (x : Drs) : ({ s with drs := x } : State).mxe = s.mxe := rfl
theorem State.withDrs_vxe (s : State) (x : Drs) : ({ s with drs := x } : State).vxe = s.vxe := rfl
theorem State.withDrs_sft (s : State) (x : Drs) : ({ s with drs := x } : State).sft = s.sft := rfl
theorem State.withDrs_mov (s : State) (x : Drs) : ({ s with drs := x } : State).mov = s.mov := rfl
theorem State.withDrs_upd (s : State) (x : Drs) : ({ s with drs := x } : State).upd = s.upd := rfl
theorem State.withDrs_col (s : State) (x : Drs) : ({ s with drs := x } : State).col = s.col := rfl
theorem State.withDrs_rot (s : State) (x : Drs) : ({ s with drs := x } : State).rot = s.rot := rfl
theorem State.withDrs_arb (s : State) (x : Drs) : ({ s with drs := x } : State).arb = s.arb := rfl
theorem State.withDrs_rcv (s : State) (x : Drs) : ({ s with drs := x } : State).rcv = s.rcv := rfl
theorem State.withDrs_out (s : State) (x : Drs) : ({ s with drs := x } : State).out = s.out := rfl
theorem State.withDrs_resp (s : State) (x : Drs) : ({ s with drs := x } : State).resp = s.resp := rfl
theorem State.withDrs_free (s : State) (x : Drs) : ({ s with drs := x } : State).free = s.free := rfl

@[simp] theorem State.setReg_pending (s : State) (pn off : Nat) (v : Word) : (s.setReg pn off v).pending = s.pending := State.withDrs_pending s _
@[simp] theorem State.setReg_sys (s : State) (pn off : Nat) (v : Word) : (s.setReg pn off v).sys = s.sys := State.withDrs_sys s _
@[simp] theorem State.setReg_score (s : State) (pn off : Nat) (v : Word) : (s.setReg pn off v).score = s.score := State.withDrs_score s _
@[simp] theorem State.setReg_squares (s : State) (pn off : Nat) (v : Word) : (s.setReg pn off v).squares = s.squares := State.withDrs_squares s _
@[simp] theorem State.setReg_sch (s : State) (pn off : Nat) (v : Word) : (s.setReg pn off v).sch = s.sch := State.withDrs_sch s _
@[simp] theorem State.setReg_mem (s : State) (pn off : Nat) (v : Word) : (s.setReg pn off v).mem = s.mem := State.withDrs_mem s _
@[simp] theorem State.setReg_pt (s : State) (pn off : Nat) (v : Word) : (s.setReg pn off v).pt = s.pt := State.withDrs_pt s _
@[simp] theorem State.setReg_fab (s : State) (pn off : Nat) (v : Word) : (s.setReg pn off v).fab = s.fab := State.withDrs_fab s _
@[simp] theorem State.setReg_mxe (s : State) (pn off : Nat) (v : Word) : (s.setReg pn off v).mxe = s.mxe := State.withDrs_mxe s _
@[simp] theorem State.setReg_vxe (s : State) (pn off : Nat) (v : Word) : (s.setReg pn off v).vxe = s.vxe := State.withDrs_vxe s _
@[simp] theorem State.setReg_sft (s : State) (pn off : Nat) (v : Word) : (s.setReg pn off v).sft = s.sft := State.withDrs_sft s _
@[simp] theorem State.setReg_mov (s : State) (pn off : Nat) (v : Word) : (s.setReg pn off v).mov = s.mov := State.withDrs_mov s _
@[simp] theorem State.setReg_upd (s : State) (pn off : Nat) (v : Word) : (s.setReg pn off v).upd = s.upd := State.withDrs_upd s _
@[simp] theorem State.setReg_col (s : State) (pn off : Nat) (v : Word) : (s.setReg pn off v).col = s.col := State.withDrs_col s _
@[simp] theorem State.setReg_rot (s : State) (pn off : Nat) (v : Word) : (s.setReg pn off v).rot = s.rot := State.withDrs_rot s _
@[simp] theorem State.setReg_arb (s : State) (pn off : Nat) (v : Word) : (s.setReg pn off v).arb = s.arb := State.withDrs_arb s _
@[simp] theorem State.setReg_rcv (s : State) (pn off : Nat) (v : Word) : (s.setReg pn off v).rcv = s.rcv := State.withDrs_rcv s _
@[simp] theorem State.setReg_out (s : State) (pn off : Nat) (v : Word) : (s.setReg pn off v).out = s.out := State.withDrs_out s _
@[simp] theorem State.setReg_resp (s : State) (pn off : Nat) (v : Word) : (s.setReg pn off v).resp = s.resp := State.withDrs_resp s _
@[simp] theorem State.setReg_free (s : State) (pn off : Nat) (v : Word) : (s.setReg pn off v).free = s.free := State.withDrs_free s _

@[simp] theorem State.setRegB_pending (s : State) (p : Fin 16) (pn off : Nat) (v : Word) : (s.setRegB p pn off v).pending = s.pending := State.withDrs_pending s _
@[simp] theorem State.setRegB_sys (s : State) (p : Fin 16) (pn off : Nat) (v : Word) : (s.setRegB p pn off v).sys = s.sys := State.withDrs_sys s _
@[simp] theorem State.setRegB_score (s : State) (p : Fin 16) (pn off : Nat) (v : Word) : (s.setRegB p pn off v).score = s.score := State.withDrs_score s _
@[simp] theorem State.setRegB_squares (s : State) (p : Fin 16) (pn off : Nat) (v : Word) : (s.setRegB p pn off v).squares = s.squares := State.withDrs_squares s _
@[simp] theorem State.setRegB_sch (s : State) (p : Fin 16) (pn off : Nat) (v : Word) : (s.setRegB p pn off v).sch = s.sch := State.withDrs_sch s _
@[simp] theorem State.setRegB_mem (s : State) (p : Fin 16) (pn off : Nat) (v : Word) : (s.setRegB p pn off v).mem = s.mem := State.withDrs_mem s _
@[simp] theorem State.setRegB_pt (s : State) (p : Fin 16) (pn off : Nat) (v : Word) : (s.setRegB p pn off v).pt = s.pt := State.withDrs_pt s _
@[simp] theorem State.setRegB_fab (s : State) (p : Fin 16) (pn off : Nat) (v : Word) : (s.setRegB p pn off v).fab = s.fab := State.withDrs_fab s _
@[simp] theorem State.setRegB_mxe (s : State) (p : Fin 16) (pn off : Nat) (v : Word) : (s.setRegB p pn off v).mxe = s.mxe := State.withDrs_mxe s _
@[simp] theorem State.setRegB_vxe (s : State) (p : Fin 16) (pn off : Nat) (v : Word) : (s.setRegB p pn off v).vxe = s.vxe := State.withDrs_vxe s _
@[simp] theorem State.setRegB_sft (s : State) (p : Fin 16) (pn off : Nat) (v : Word) : (s.setRegB p pn off v).sft = s.sft := State.withDrs_sft s _
@[simp] theorem State.setRegB_mov (s : State) (p : Fin 16) (pn off : Nat) (v : Word) : (s.setRegB p pn off v).mov = s.mov := State.withDrs_mov s _
@[simp] theorem State.setRegB_upd (s : State) (p : Fin 16) (pn off : Nat) (v : Word) : (s.setRegB p pn off v).upd = s.upd := State.withDrs_upd s _
@[simp] theorem State.setRegB_col (s : State) (p : Fin 16) (pn off : Nat) (v : Word) : (s.setRegB p pn off v).col = s.col := State.withDrs_col s _
@[simp] theorem State.setRegB_rot (s : State) (p : Fin 16) (pn off : Nat) (v : Word) : (s.setRegB p pn off v).rot = s.rot := State.withDrs_rot s _
@[simp] theorem State.setRegB_arb (s : State) (p : Fin 16) (pn off : Nat) (v : Word) : (s.setRegB p pn off v).arb = s.arb := State.withDrs_arb s _
@[simp] theorem State.setRegB_rcv (s : State) (p : Fin 16) (pn off : Nat) (v : Word) : (s.setRegB p pn off v).rcv = s.rcv := State.withDrs_rcv s _
@[simp] theorem State.setRegB_out (s : State) (p : Fin 16) (pn off : Nat) (v : Word) : (s.setRegB p pn off v).out = s.out := State.withDrs_out s _
@[simp] theorem State.setRegB_resp (s : State) (p : Fin 16) (pn off : Nat) (v : Word) : (s.setRegB p pn off v).resp = s.resp := State.withDrs_resp s _
@[simp] theorem State.setRegB_free (s : State) (p : Fin 16) (pn off : Nat) (v : Word) : (s.setRegB p pn off v).free = s.free := State.withDrs_free s _

@[simp] theorem State.setPage_pending (s : State) (pn : Nat) (x : Page) : (s.setPage pn x).pending = s.pending := State.withDrs_pending s _
@[simp] theorem State.setPage_sys (s : State) (pn : Nat) (x : Page) : (s.setPage pn x).sys = s.sys := State.withDrs_sys s _
@[simp] theorem State.setPage_score (s : State) (pn : Nat) (x : Page) : (s.setPage pn x).score = s.score := State.withDrs_score s _
@[simp] theorem State.setPage_squares (s : State) (pn : Nat) (x : Page) : (s.setPage pn x).squares = s.squares := State.withDrs_squares s _
@[simp] theorem State.setPage_sch (s : State) (pn : Nat) (x : Page) : (s.setPage pn x).sch = s.sch := State.withDrs_sch s _
@[simp] theorem State.setPage_mem (s : State) (pn : Nat) (x : Page) : (s.setPage pn x).mem = s.mem := State.withDrs_mem s _
@[simp] theorem State.setPage_pt (s : State) (pn : Nat) (x : Page) : (s.setPage pn x).pt = s.pt := State.withDrs_pt s _
@[simp] theorem State.setPage_fab (s : State) (pn : Nat) (x : Page) : (s.setPage pn x).fab = s.fab := State.withDrs_fab s _
@[simp] theorem State.setPage_mxe (s : State) (pn : Nat) (x : Page) : (s.setPage pn x).mxe = s.mxe := State.withDrs_mxe s _
@[simp] theorem State.setPage_vxe (s : State) (pn : Nat) (x : Page) : (s.setPage pn x).vxe = s.vxe := State.withDrs_vxe s _
@[simp] theorem State.setPage_sft (s : State) (pn : Nat) (x : Page) : (s.setPage pn x).sft = s.sft := State.withDrs_sft s _
@[simp] theorem State.setPage_mov (s : State) (pn : Nat) (x : Page) : (s.setPage pn x).mov = s.mov := State.withDrs_mov s _
@[simp] theorem State.setPage_upd (s : State) (pn : Nat) (x : Page) : (s.setPage pn x).upd = s.upd := State.withDrs_upd s _
@[simp] theorem State.setPage_col (s : State) (pn : Nat) (x : Page) : (s.setPage pn x).col = s.col := State.withDrs_col s _
@[simp] theorem State.setPage_rot (s : State) (pn : Nat) (x : Page) : (s.setPage pn x).rot = s.rot := State.withDrs_rot s _
@[simp] theorem State.setPage_arb (s : State) (pn : Nat) (x : Page) : (s.setPage pn x).arb = s.arb := State.withDrs_arb s _
@[simp] theorem State.setPage_rcv (s : State) (pn : Nat) (x : Page) : (s.setPage pn x).rcv = s.rcv := State.withDrs_rcv s _
@[simp] theorem State.setPage_out (s : State) (pn : Nat) (x : Page) : (s.setPage pn x).out = s.out := State.withDrs_out s _
@[simp] theorem State.setPage_resp (s : State) (pn : Nat) (x : Page) : (s.setPage pn x).resp = s.resp := State.withDrs_resp s _
@[simp] theorem State.setPage_free (s : State) (pn : Nat) (x : Page) : (s.setPage pn x).free = s.free := State.withDrs_free s _

@[simp] theorem State.setErr_pending (s : State) (b : Nat) (x : ErrSet) : (s.setErr b x).pending = s.pending := State.withDrs_pending s _
@[simp] theorem State.setErr_sys (s : State) (b : Nat) (x : ErrSet) : (s.setErr b x).sys = s.sys := State.withDrs_sys s _
@[simp] theorem State.setErr_score (s : State) (b : Nat) (x : ErrSet) : (s.setErr b x).score = s.score := State.withDrs_score s _
@[simp] theorem State.setErr_squares (s : State) (b : Nat) (x : ErrSet) : (s.setErr b x).squares = s.squares := State.withDrs_squares s _
@[simp] theorem State.setErr_sch (s : State) (b : Nat) (x : ErrSet) : (s.setErr b x).sch = s.sch := State.withDrs_sch s _
@[simp] theorem State.setErr_mem (s : State) (b : Nat) (x : ErrSet) : (s.setErr b x).mem = s.mem := State.withDrs_mem s _
@[simp] theorem State.setErr_pt (s : State) (b : Nat) (x : ErrSet) : (s.setErr b x).pt = s.pt := State.withDrs_pt s _
@[simp] theorem State.setErr_fab (s : State) (b : Nat) (x : ErrSet) : (s.setErr b x).fab = s.fab := State.withDrs_fab s _
@[simp] theorem State.setErr_mxe (s : State) (b : Nat) (x : ErrSet) : (s.setErr b x).mxe = s.mxe := State.withDrs_mxe s _
@[simp] theorem State.setErr_vxe (s : State) (b : Nat) (x : ErrSet) : (s.setErr b x).vxe = s.vxe := State.withDrs_vxe s _
@[simp] theorem State.setErr_sft (s : State) (b : Nat) (x : ErrSet) : (s.setErr b x).sft = s.sft := State.withDrs_sft s _
@[simp] theorem State.setErr_mov (s : State) (b : Nat) (x : ErrSet) : (s.setErr b x).mov = s.mov := State.withDrs_mov s _
@[simp] theorem State.setErr_upd (s : State) (b : Nat) (x : ErrSet) : (s.setErr b x).upd = s.upd := State.withDrs_upd s _
@[simp] theorem State.setErr_col (s : State) (b : Nat) (x : ErrSet) : (s.setErr b x).col = s.col := State.withDrs_col s _
@[simp] theorem State.setErr_rot (s : State) (b : Nat) (x : ErrSet) : (s.setErr b x).rot = s.rot := State.withDrs_rot s _
@[simp] theorem State.setErr_arb (s : State) (b : Nat) (x : ErrSet) : (s.setErr b x).arb = s.arb := State.withDrs_arb s _
@[simp] theorem State.setErr_rcv (s : State) (b : Nat) (x : ErrSet) : (s.setErr b x).rcv = s.rcv := State.withDrs_rcv s _
@[simp] theorem State.setErr_out (s : State) (b : Nat) (x : ErrSet) : (s.setErr b x).out = s.out := State.withDrs_out s _
@[simp] theorem State.setErr_resp (s : State) (b : Nat) (x : ErrSet) : (s.setErr b x).resp = s.resp := State.withDrs_resp s _
@[simp] theorem State.setErr_free (s : State) (b : Nat) (x : ErrSet) : (s.setErr b x).free = s.free := State.withDrs_free s _

@[simp] theorem State.setPart_pending (s : State) (p : Fin 16) (x : Part) : (s.setPart p x).pending = s.pending := rfl
@[simp] theorem State.setPart_sys (s : State) (p : Fin 16) (x : Part) : (s.setPart p x).sys = s.sys := rfl
@[simp] theorem State.setPart_drs (s : State) (p : Fin 16) (x : Part) : (s.setPart p x).drs = s.drs := rfl
@[simp] theorem State.setPart_score (s : State) (p : Fin 16) (x : Part) : (s.setPart p x).score = s.score := rfl
@[simp] theorem State.setPart_squares (s : State) (p : Fin 16) (x : Part) : (s.setPart p x).squares = s.squares := rfl
@[simp] theorem State.setPart_sch (s : State) (p : Fin 16) (x : Part) : (s.setPart p x).sch = s.sch := rfl
@[simp] theorem State.setPart_mem (s : State) (p : Fin 16) (x : Part) : (s.setPart p x).mem = s.mem := rfl
@[simp] theorem State.setPart_fab (s : State) (p : Fin 16) (x : Part) : (s.setPart p x).fab = s.fab := rfl
@[simp] theorem State.setPart_mxe (s : State) (p : Fin 16) (x : Part) : (s.setPart p x).mxe = s.mxe := rfl
@[simp] theorem State.setPart_vxe (s : State) (p : Fin 16) (x : Part) : (s.setPart p x).vxe = s.vxe := rfl
@[simp] theorem State.setPart_sft (s : State) (p : Fin 16) (x : Part) : (s.setPart p x).sft = s.sft := rfl
@[simp] theorem State.setPart_mov (s : State) (p : Fin 16) (x : Part) : (s.setPart p x).mov = s.mov := rfl
@[simp] theorem State.setPart_upd (s : State) (p : Fin 16) (x : Part) : (s.setPart p x).upd = s.upd := rfl
@[simp] theorem State.setPart_col (s : State) (p : Fin 16) (x : Part) : (s.setPart p x).col = s.col := rfl
@[simp] theorem State.setPart_rot (s : State) (p : Fin 16) (x : Part) : (s.setPart p x).rot = s.rot := rfl
@[simp] theorem State.setPart_arb (s : State) (p : Fin 16) (x : Part) : (s.setPart p x).arb = s.arb := rfl
@[simp] theorem State.setPart_rcv (s : State) (p : Fin 16) (x : Part) : (s.setPart p x).rcv = s.rcv := rfl
@[simp] theorem State.setPart_out (s : State) (p : Fin 16) (x : Part) : (s.setPart p x).out = s.out := rfl
@[simp] theorem State.setPart_resp (s : State) (p : Fin 16) (x : Part) : (s.setPart p x).resp = s.resp := rfl
@[simp] theorem State.setPart_free (s : State) (p : Fin 16) (x : Part) : (s.setPart p x).free = s.free := rfl

@[simp] theorem State.setPawn_pending (s : State) (p k : Nat) (x : Pawn) : (s.setPawn p k x).pending = s.pending := rfl
@[simp] theorem State.setPawn_sys (s : State) (p k : Nat) (x : Pawn) : (s.setPawn p k x).sys = s.sys := rfl
@[simp] theorem State.setPawn_drs (s : State) (p k : Nat) (x : Pawn) : (s.setPawn p k x).drs = s.drs := rfl
@[simp] theorem State.setPawn_score (s : State) (p k : Nat) (x : Pawn) : (s.setPawn p k x).score = s.score := rfl
@[simp] theorem State.setPawn_sch (s : State) (p k : Nat) (x : Pawn) : (s.setPawn p k x).sch = s.sch := rfl
@[simp] theorem State.setPawn_mem (s : State) (p k : Nat) (x : Pawn) : (s.setPawn p k x).mem = s.mem := rfl
@[simp] theorem State.setPawn_pt (s : State) (p k : Nat) (x : Pawn) : (s.setPawn p k x).pt = s.pt := rfl
@[simp] theorem State.setPawn_fab (s : State) (p k : Nat) (x : Pawn) : (s.setPawn p k x).fab = s.fab := rfl
@[simp] theorem State.setPawn_mxe (s : State) (p k : Nat) (x : Pawn) : (s.setPawn p k x).mxe = s.mxe := rfl
@[simp] theorem State.setPawn_vxe (s : State) (p k : Nat) (x : Pawn) : (s.setPawn p k x).vxe = s.vxe := rfl
@[simp] theorem State.setPawn_sft (s : State) (p k : Nat) (x : Pawn) : (s.setPawn p k x).sft = s.sft := rfl
@[simp] theorem State.setPawn_mov (s : State) (p k : Nat) (x : Pawn) : (s.setPawn p k x).mov = s.mov := rfl
@[simp] theorem State.setPawn_upd (s : State) (p k : Nat) (x : Pawn) : (s.setPawn p k x).upd = s.upd := rfl
@[simp] theorem State.setPawn_col (s : State) (p k : Nat) (x : Pawn) : (s.setPawn p k x).col = s.col := rfl
@[simp] theorem State.setPawn_rot (s : State) (p k : Nat) (x : Pawn) : (s.setPawn p k x).rot = s.rot := rfl
@[simp] theorem State.setPawn_arb (s : State) (p k : Nat) (x : Pawn) : (s.setPawn p k x).arb = s.arb := rfl
@[simp] theorem State.setPawn_rcv (s : State) (p k : Nat) (x : Pawn) : (s.setPawn p k x).rcv = s.rcv := rfl
@[simp] theorem State.setPawn_out (s : State) (p k : Nat) (x : Pawn) : (s.setPawn p k x).out = s.out := rfl
@[simp] theorem State.setPawn_resp (s : State) (p k : Nat) (x : Pawn) : (s.setPawn p k x).resp = s.resp := rfl
@[simp] theorem State.setPawn_free (s : State) (p k : Nat) (x : Pawn) : (s.setPawn p k x).free = s.free := rfl

@[simp] theorem State.setJobs_pending (s : State) (js : List Job) : (s.setJobs js).pending = s.pending := rfl
@[simp] theorem State.setJobs_sys (s : State) (js : List Job) : (s.setJobs js).sys = s.sys := rfl
@[simp] theorem State.setJobs_drs (s : State) (js : List Job) : (s.setJobs js).drs = s.drs := rfl
@[simp] theorem State.setJobs_score (s : State) (js : List Job) : (s.setJobs js).score = s.score := rfl
@[simp] theorem State.setJobs_squares (s : State) (js : List Job) : (s.setJobs js).squares = s.squares := rfl
@[simp] theorem State.setJobs_mem (s : State) (js : List Job) : (s.setJobs js).mem = s.mem := rfl
@[simp] theorem State.setJobs_pt (s : State) (js : List Job) : (s.setJobs js).pt = s.pt := rfl
@[simp] theorem State.setJobs_fab (s : State) (js : List Job) : (s.setJobs js).fab = s.fab := rfl
@[simp] theorem State.setJobs_mxe (s : State) (js : List Job) : (s.setJobs js).mxe = s.mxe := rfl
@[simp] theorem State.setJobs_vxe (s : State) (js : List Job) : (s.setJobs js).vxe = s.vxe := rfl
@[simp] theorem State.setJobs_sft (s : State) (js : List Job) : (s.setJobs js).sft = s.sft := rfl
@[simp] theorem State.setJobs_mov (s : State) (js : List Job) : (s.setJobs js).mov = s.mov := rfl
@[simp] theorem State.setJobs_upd (s : State) (js : List Job) : (s.setJobs js).upd = s.upd := rfl
@[simp] theorem State.setJobs_col (s : State) (js : List Job) : (s.setJobs js).col = s.col := rfl
@[simp] theorem State.setJobs_rot (s : State) (js : List Job) : (s.setJobs js).rot = s.rot := rfl
@[simp] theorem State.setJobs_arb (s : State) (js : List Job) : (s.setJobs js).arb = s.arb := rfl
@[simp] theorem State.setJobs_rcv (s : State) (js : List Job) : (s.setJobs js).rcv = s.rcv := rfl
@[simp] theorem State.setJobs_out (s : State) (js : List Job) : (s.setJobs js).out = s.out := rfl
@[simp] theorem State.setJobs_resp (s : State) (js : List Job) : (s.setJobs js).resp = s.resp := rfl
@[simp] theorem State.setJobs_free (s : State) (js : List Job) : (s.setJobs js).free = s.free := rfl

@[simp] theorem State.setLink_pending (s : State) (n : Nat) (x : Link) : (s.setLink n x).pending = s.pending := rfl
@[simp] theorem State.setLink_sys (s : State) (n : Nat) (x : Link) : (s.setLink n x).sys = s.sys := rfl
@[simp] theorem State.setLink_drs (s : State) (n : Nat) (x : Link) : (s.setLink n x).drs = s.drs := rfl
@[simp] theorem State.setLink_score (s : State) (n : Nat) (x : Link) : (s.setLink n x).score = s.score := rfl
@[simp] theorem State.setLink_squares (s : State) (n : Nat) (x : Link) : (s.setLink n x).squares = s.squares := rfl
@[simp] theorem State.setLink_sch (s : State) (n : Nat) (x : Link) : (s.setLink n x).sch = s.sch := rfl
@[simp] theorem State.setLink_mem (s : State) (n : Nat) (x : Link) : (s.setLink n x).mem = s.mem := rfl
@[simp] theorem State.setLink_pt (s : State) (n : Nat) (x : Link) : (s.setLink n x).pt = s.pt := rfl
@[simp] theorem State.setLink_mxe (s : State) (n : Nat) (x : Link) : (s.setLink n x).mxe = s.mxe := rfl
@[simp] theorem State.setLink_vxe (s : State) (n : Nat) (x : Link) : (s.setLink n x).vxe = s.vxe := rfl
@[simp] theorem State.setLink_sft (s : State) (n : Nat) (x : Link) : (s.setLink n x).sft = s.sft := rfl
@[simp] theorem State.setLink_mov (s : State) (n : Nat) (x : Link) : (s.setLink n x).mov = s.mov := rfl
@[simp] theorem State.setLink_upd (s : State) (n : Nat) (x : Link) : (s.setLink n x).upd = s.upd := rfl
@[simp] theorem State.setLink_col (s : State) (n : Nat) (x : Link) : (s.setLink n x).col = s.col := rfl
@[simp] theorem State.setLink_rot (s : State) (n : Nat) (x : Link) : (s.setLink n x).rot = s.rot := rfl
@[simp] theorem State.setLink_arb (s : State) (n : Nat) (x : Link) : (s.setLink n x).arb = s.arb := rfl
@[simp] theorem State.setLink_rcv (s : State) (n : Nat) (x : Link) : (s.setLink n x).rcv = s.rcv := rfl
@[simp] theorem State.setLink_out (s : State) (n : Nat) (x : Link) : (s.setLink n x).out = s.out := rfl
@[simp] theorem State.setLink_resp (s : State) (n : Nat) (x : Link) : (s.setLink n x).resp = s.resp := rfl
@[simp] theorem State.setLink_free (s : State) (n : Nat) (x : Link) : (s.setLink n x).free = s.free := rfl

@[simp] theorem State.setMsix_pending (s : State) (fn : Fin 16) (n : Nat) (x : Msix) : (s.setMsix fn n x).pending = s.pending := rfl
@[simp] theorem State.setMsix_sys (s : State) (fn : Fin 16) (n : Nat) (x : Msix) : (s.setMsix fn n x).sys = s.sys := rfl
@[simp] theorem State.setMsix_drs (s : State) (fn : Fin 16) (n : Nat) (x : Msix) : (s.setMsix fn n x).drs = s.drs := rfl
@[simp] theorem State.setMsix_score (s : State) (fn : Fin 16) (n : Nat) (x : Msix) : (s.setMsix fn n x).score = s.score := rfl
@[simp] theorem State.setMsix_squares (s : State) (fn : Fin 16) (n : Nat) (x : Msix) : (s.setMsix fn n x).squares = s.squares := rfl
@[simp] theorem State.setMsix_sch (s : State) (fn : Fin 16) (n : Nat) (x : Msix) : (s.setMsix fn n x).sch = s.sch := rfl
@[simp] theorem State.setMsix_mem (s : State) (fn : Fin 16) (n : Nat) (x : Msix) : (s.setMsix fn n x).mem = s.mem := rfl
@[simp] theorem State.setMsix_pt (s : State) (fn : Fin 16) (n : Nat) (x : Msix) : (s.setMsix fn n x).pt = s.pt := rfl
@[simp] theorem State.setMsix_mxe (s : State) (fn : Fin 16) (n : Nat) (x : Msix) : (s.setMsix fn n x).mxe = s.mxe := rfl
@[simp] theorem State.setMsix_vxe (s : State) (fn : Fin 16) (n : Nat) (x : Msix) : (s.setMsix fn n x).vxe = s.vxe := rfl
@[simp] theorem State.setMsix_sft (s : State) (fn : Fin 16) (n : Nat) (x : Msix) : (s.setMsix fn n x).sft = s.sft := rfl
@[simp] theorem State.setMsix_mov (s : State) (fn : Fin 16) (n : Nat) (x : Msix) : (s.setMsix fn n x).mov = s.mov := rfl
@[simp] theorem State.setMsix_upd (s : State) (fn : Fin 16) (n : Nat) (x : Msix) : (s.setMsix fn n x).upd = s.upd := rfl
@[simp] theorem State.setMsix_col (s : State) (fn : Fin 16) (n : Nat) (x : Msix) : (s.setMsix fn n x).col = s.col := rfl
@[simp] theorem State.setMsix_rot (s : State) (fn : Fin 16) (n : Nat) (x : Msix) : (s.setMsix fn n x).rot = s.rot := rfl
@[simp] theorem State.setMsix_arb (s : State) (fn : Fin 16) (n : Nat) (x : Msix) : (s.setMsix fn n x).arb = s.arb := rfl
@[simp] theorem State.setMsix_rcv (s : State) (fn : Fin 16) (n : Nat) (x : Msix) : (s.setMsix fn n x).rcv = s.rcv := rfl
@[simp] theorem State.setMsix_out (s : State) (fn : Fin 16) (n : Nat) (x : Msix) : (s.setMsix fn n x).out = s.out := rfl
@[simp] theorem State.setMsix_resp (s : State) (fn : Fin 16) (n : Nat) (x : Msix) : (s.setMsix fn n x).resp = s.resp := rfl
@[simp] theorem State.setMsix_free (s : State) (fn : Fin 16) (n : Nat) (x : Msix) : (s.setMsix fn n x).free = s.free := rfl

@[simp] theorem State.recordAt_pending (s : State) (kind : Nat) (p : Fin 16) (subject value stamp : Nat) : (s.recordAt kind p subject value stamp).pending = s.pending := rfl
@[simp] theorem State.recordAt_sys (s : State) (kind : Nat) (p : Fin 16) (subject value stamp : Nat) : (s.recordAt kind p subject value stamp).sys = s.sys := rfl
@[simp] theorem State.recordAt_drs (s : State) (kind : Nat) (p : Fin 16) (subject value stamp : Nat) : (s.recordAt kind p subject value stamp).drs = s.drs := rfl
@[simp] theorem State.recordAt_squares (s : State) (kind : Nat) (p : Fin 16) (subject value stamp : Nat) : (s.recordAt kind p subject value stamp).squares = s.squares := rfl
@[simp] theorem State.recordAt_sch (s : State) (kind : Nat) (p : Fin 16) (subject value stamp : Nat) : (s.recordAt kind p subject value stamp).sch = s.sch := rfl
@[simp] theorem State.recordAt_mem (s : State) (kind : Nat) (p : Fin 16) (subject value stamp : Nat) : (s.recordAt kind p subject value stamp).mem = s.mem := rfl
@[simp] theorem State.recordAt_pt (s : State) (kind : Nat) (p : Fin 16) (subject value stamp : Nat) : (s.recordAt kind p subject value stamp).pt = s.pt := rfl
@[simp] theorem State.recordAt_fab (s : State) (kind : Nat) (p : Fin 16) (subject value stamp : Nat) : (s.recordAt kind p subject value stamp).fab = s.fab := rfl
@[simp] theorem State.recordAt_mxe (s : State) (kind : Nat) (p : Fin 16) (subject value stamp : Nat) : (s.recordAt kind p subject value stamp).mxe = s.mxe := rfl
@[simp] theorem State.recordAt_vxe (s : State) (kind : Nat) (p : Fin 16) (subject value stamp : Nat) : (s.recordAt kind p subject value stamp).vxe = s.vxe := rfl
@[simp] theorem State.recordAt_sft (s : State) (kind : Nat) (p : Fin 16) (subject value stamp : Nat) : (s.recordAt kind p subject value stamp).sft = s.sft := rfl
@[simp] theorem State.recordAt_mov (s : State) (kind : Nat) (p : Fin 16) (subject value stamp : Nat) : (s.recordAt kind p subject value stamp).mov = s.mov := rfl
@[simp] theorem State.recordAt_upd (s : State) (kind : Nat) (p : Fin 16) (subject value stamp : Nat) : (s.recordAt kind p subject value stamp).upd = s.upd := rfl
@[simp] theorem State.recordAt_col (s : State) (kind : Nat) (p : Fin 16) (subject value stamp : Nat) : (s.recordAt kind p subject value stamp).col = s.col := rfl
@[simp] theorem State.recordAt_rot (s : State) (kind : Nat) (p : Fin 16) (subject value stamp : Nat) : (s.recordAt kind p subject value stamp).rot = s.rot := rfl
@[simp] theorem State.recordAt_arb (s : State) (kind : Nat) (p : Fin 16) (subject value stamp : Nat) : (s.recordAt kind p subject value stamp).arb = s.arb := rfl
@[simp] theorem State.recordAt_rcv (s : State) (kind : Nat) (p : Fin 16) (subject value stamp : Nat) : (s.recordAt kind p subject value stamp).rcv = s.rcv := rfl
@[simp] theorem State.recordAt_out (s : State) (kind : Nat) (p : Fin 16) (subject value stamp : Nat) : (s.recordAt kind p subject value stamp).out = s.out := rfl
@[simp] theorem State.recordAt_resp (s : State) (kind : Nat) (p : Fin 16) (subject value stamp : Nat) : (s.recordAt kind p subject value stamp).resp = s.resp := rfl
@[simp] theorem State.recordAt_free (s : State) (kind : Nat) (p : Fin 16) (subject value stamp : Nat) : (s.recordAt kind p subject value stamp).free = s.free := rfl

@[simp] theorem State.modJob_pending (s : State) (id : Nat) (f : Job → Job) : (s.modJob id f).pending = s.pending := rfl
@[simp] theorem State.modJob_sys (s : State) (id : Nat) (f : Job → Job) : (s.modJob id f).sys = s.sys := rfl
@[simp] theorem State.modJob_drs (s : State) (id : Nat) (f : Job → Job) : (s.modJob id f).drs = s.drs := rfl
@[simp] theorem State.modJob_score (s : State) (id : Nat) (f : Job → Job) : (s.modJob id f).score = s.score := rfl
@[simp] theorem State.modJob_squares (s : State) (id : Nat) (f : Job → Job) : (s.modJob id f).squares = s.squares := rfl
@[simp] theorem State.modJob_mem (s : State) (id : Nat) (f : Job → Job) : (s.modJob id f).mem = s.mem := rfl
@[simp] theorem State.modJob_pt (s : State) (id : Nat) (f : Job → Job) : (s.modJob id f).pt = s.pt := rfl
@[simp] theorem State.modJob_fab (s : State) (id : Nat) (f : Job → Job) : (s.modJob id f).fab = s.fab := rfl
@[simp] theorem State.modJob_mxe (s : State) (id : Nat) (f : Job → Job) : (s.modJob id f).mxe = s.mxe := rfl
@[simp] theorem State.modJob_vxe (s : State) (id : Nat) (f : Job → Job) : (s.modJob id f).vxe = s.vxe := rfl
@[simp] theorem State.modJob_sft (s : State) (id : Nat) (f : Job → Job) : (s.modJob id f).sft = s.sft := rfl
@[simp] theorem State.modJob_mov (s : State) (id : Nat) (f : Job → Job) : (s.modJob id f).mov = s.mov := rfl
@[simp] theorem State.modJob_upd (s : State) (id : Nat) (f : Job → Job) : (s.modJob id f).upd = s.upd := rfl
@[simp] theorem State.modJob_col (s : State) (id : Nat) (f : Job → Job) : (s.modJob id f).col = s.col := rfl
@[simp] theorem State.modJob_rot (s : State) (id : Nat) (f : Job → Job) : (s.modJob id f).rot = s.rot := rfl
@[simp] theorem State.modJob_arb (s : State) (id : Nat) (f : Job → Job) : (s.modJob id f).arb = s.arb := rfl
@[simp] theorem State.modJob_rcv (s : State) (id : Nat) (f : Job → Job) : (s.modJob id f).rcv = s.rcv := rfl
@[simp] theorem State.modJob_out (s : State) (id : Nat) (f : Job → Job) : (s.modJob id f).out = s.out := rfl
@[simp] theorem State.modJob_resp (s : State) (id : Nat) (f : Job → Job) : (s.modJob id f).resp = s.resp := rfl
@[simp] theorem State.modJob_free (s : State) (id : Nat) (f : Job → Job) : (s.modJob id f).free = s.free := rfl

@[simp] theorem State.setChan_pending (s : State) (k ch : Nat) (x : Chan) : (s.setChan k ch x).pending = s.pending := rfl
@[simp] theorem State.setChan_sys (s : State) (k ch : Nat) (x : Chan) : (s.setChan k ch x).sys = s.sys := rfl
@[simp] theorem State.setChan_drs (s : State) (k ch : Nat) (x : Chan) : (s.setChan k ch x).drs = s.drs := rfl
@[simp] theorem State.setChan_score (s : State) (k ch : Nat) (x : Chan) : (s.setChan k ch x).score = s.score := rfl
@[simp] theorem State.setChan_squares (s : State) (k ch : Nat) (x : Chan) : (s.setChan k ch x).squares = s.squares := rfl
@[simp] theorem State.setChan_sch (s : State) (k ch : Nat) (x : Chan) : (s.setChan k ch x).sch = s.sch := rfl
@[simp] theorem State.setChan_pt (s : State) (k ch : Nat) (x : Chan) : (s.setChan k ch x).pt = s.pt := rfl
@[simp] theorem State.setChan_fab (s : State) (k ch : Nat) (x : Chan) : (s.setChan k ch x).fab = s.fab := rfl
@[simp] theorem State.setChan_mxe (s : State) (k ch : Nat) (x : Chan) : (s.setChan k ch x).mxe = s.mxe := rfl
@[simp] theorem State.setChan_vxe (s : State) (k ch : Nat) (x : Chan) : (s.setChan k ch x).vxe = s.vxe := rfl
@[simp] theorem State.setChan_sft (s : State) (k ch : Nat) (x : Chan) : (s.setChan k ch x).sft = s.sft := rfl
@[simp] theorem State.setChan_mov (s : State) (k ch : Nat) (x : Chan) : (s.setChan k ch x).mov = s.mov := rfl
@[simp] theorem State.setChan_upd (s : State) (k ch : Nat) (x : Chan) : (s.setChan k ch x).upd = s.upd := rfl
@[simp] theorem State.setChan_col (s : State) (k ch : Nat) (x : Chan) : (s.setChan k ch x).col = s.col := rfl
@[simp] theorem State.setChan_rot (s : State) (k ch : Nat) (x : Chan) : (s.setChan k ch x).rot = s.rot := rfl
@[simp] theorem State.setChan_arb (s : State) (k ch : Nat) (x : Chan) : (s.setChan k ch x).arb = s.arb := rfl
@[simp] theorem State.setChan_rcv (s : State) (k ch : Nat) (x : Chan) : (s.setChan k ch x).rcv = s.rcv := rfl
@[simp] theorem State.setChan_out (s : State) (k ch : Nat) (x : Chan) : (s.setChan k ch x).out = s.out := rfl
@[simp] theorem State.setChan_resp (s : State) (k ch : Nat) (x : Chan) : (s.setChan k ch x).resp = s.resp := rfl
@[simp] theorem State.setChan_free (s : State) (k ch : Nat) (x : Chan) : (s.setChan k ch x).free = s.free := rfl

@[simp] theorem State.setSpare_pending (s : State) (k j : Nat) (x : Spare) : (s.setSpare k j x).pending = s.pending := rfl
@[simp] theorem State.setSpare_sys (s : State) (k j : Nat) (x : Spare) : (s.setSpare k j x).sys = s.sys := rfl
@[simp] theorem State.setSpare_drs (s : State) (k j : Nat) (x : Spare) : (s.setSpare k j x).drs = s.drs := rfl
@[simp] theorem State.setSpare_score (s : State) (k j : Nat) (x : Spare) : (s.setSpare k j x).score = s.score := rfl
@[simp] theorem State.setSpare_squares (s : State) (k j : Nat) (x : Spare) : (s.setSpare k j x).squares = s.squares := rfl
@[simp] theorem State.setSpare_sch (s : State) (k j : Nat) (x : Spare) : (s.setSpare k j x).sch = s.sch := rfl
@[simp] theorem State.setSpare_pt (s : State) (k j : Nat) (x : Spare) : (s.setSpare k j x).pt = s.pt := rfl
@[simp] theorem State.setSpare_fab (s : State) (k j : Nat) (x : Spare) : (s.setSpare k j x).fab = s.fab := rfl
@[simp] theorem State.setSpare_mxe (s : State) (k j : Nat) (x : Spare) : (s.setSpare k j x).mxe = s.mxe := rfl
@[simp] theorem State.setSpare_vxe (s : State) (k j : Nat) (x : Spare) : (s.setSpare k j x).vxe = s.vxe := rfl
@[simp] theorem State.setSpare_sft (s : State) (k j : Nat) (x : Spare) : (s.setSpare k j x).sft = s.sft := rfl
@[simp] theorem State.setSpare_mov (s : State) (k j : Nat) (x : Spare) : (s.setSpare k j x).mov = s.mov := rfl
@[simp] theorem State.setSpare_upd (s : State) (k j : Nat) (x : Spare) : (s.setSpare k j x).upd = s.upd := rfl
@[simp] theorem State.setSpare_col (s : State) (k j : Nat) (x : Spare) : (s.setSpare k j x).col = s.col := rfl
@[simp] theorem State.setSpare_rot (s : State) (k j : Nat) (x : Spare) : (s.setSpare k j x).rot = s.rot := rfl
@[simp] theorem State.setSpare_arb (s : State) (k j : Nat) (x : Spare) : (s.setSpare k j x).arb = s.arb := rfl
@[simp] theorem State.setSpare_rcv (s : State) (k j : Nat) (x : Spare) : (s.setSpare k j x).rcv = s.rcv := rfl
@[simp] theorem State.setSpare_out (s : State) (k j : Nat) (x : Spare) : (s.setSpare k j x).out = s.out := rfl
@[simp] theorem State.setSpare_resp (s : State) (k j : Nat) (x : Spare) : (s.setSpare k j x).resp = s.resp := rfl
@[simp] theorem State.setSpare_free (s : State) (k j : Nat) (x : Spare) : (s.setSpare k j x).free = s.free := rfl

@[simp] theorem State.bump_pending (s : State) (pn off n : Nat) : (s.bump pn off n).pending = s.pending := State.withDrs_pending s _
@[simp] theorem State.bump_sys (s : State) (pn off n : Nat) : (s.bump pn off n).sys = s.sys := State.withDrs_sys s _
@[simp] theorem State.bump_score (s : State) (pn off n : Nat) : (s.bump pn off n).score = s.score := State.withDrs_score s _
@[simp] theorem State.bump_squares (s : State) (pn off n : Nat) : (s.bump pn off n).squares = s.squares := State.withDrs_squares s _
@[simp] theorem State.bump_sch (s : State) (pn off n : Nat) : (s.bump pn off n).sch = s.sch := State.withDrs_sch s _
@[simp] theorem State.bump_mem (s : State) (pn off n : Nat) : (s.bump pn off n).mem = s.mem := State.withDrs_mem s _
@[simp] theorem State.bump_pt (s : State) (pn off n : Nat) : (s.bump pn off n).pt = s.pt := State.withDrs_pt s _
@[simp] theorem State.bump_fab (s : State) (pn off n : Nat) : (s.bump pn off n).fab = s.fab := State.withDrs_fab s _
@[simp] theorem State.bump_mxe (s : State) (pn off n : Nat) : (s.bump pn off n).mxe = s.mxe := State.withDrs_mxe s _
@[simp] theorem State.bump_vxe (s : State) (pn off n : Nat) : (s.bump pn off n).vxe = s.vxe := State.withDrs_vxe s _
@[simp] theorem State.bump_sft (s : State) (pn off n : Nat) : (s.bump pn off n).sft = s.sft := State.withDrs_sft s _
@[simp] theorem State.bump_mov (s : State) (pn off n : Nat) : (s.bump pn off n).mov = s.mov := State.withDrs_mov s _
@[simp] theorem State.bump_upd (s : State) (pn off n : Nat) : (s.bump pn off n).upd = s.upd := State.withDrs_upd s _
@[simp] theorem State.bump_col (s : State) (pn off n : Nat) : (s.bump pn off n).col = s.col := State.withDrs_col s _
@[simp] theorem State.bump_rot (s : State) (pn off n : Nat) : (s.bump pn off n).rot = s.rot := State.withDrs_rot s _
@[simp] theorem State.bump_arb (s : State) (pn off n : Nat) : (s.bump pn off n).arb = s.arb := State.withDrs_arb s _
@[simp] theorem State.bump_rcv (s : State) (pn off n : Nat) : (s.bump pn off n).rcv = s.rcv := State.withDrs_rcv s _
@[simp] theorem State.bump_out (s : State) (pn off n : Nat) : (s.bump pn off n).out = s.out := State.withDrs_out s _
@[simp] theorem State.bump_resp (s : State) (pn off n : Nat) : (s.bump pn off n).resp = s.resp := State.withDrs_resp s _
@[simp] theorem State.bump_free (s : State) (pn off n : Nat) : (s.bump pn off n).free = s.free := State.withDrs_free s _

@[simp] theorem State.bumpB_pending (s : State) (p : Fin 16) (pn off n : Nat) : (s.bumpB p pn off n).pending = s.pending := State.withDrs_pending s _
@[simp] theorem State.bumpB_sys (s : State) (p : Fin 16) (pn off n : Nat) : (s.bumpB p pn off n).sys = s.sys := State.withDrs_sys s _
@[simp] theorem State.bumpB_score (s : State) (p : Fin 16) (pn off n : Nat) : (s.bumpB p pn off n).score = s.score := State.withDrs_score s _
@[simp] theorem State.bumpB_squares (s : State) (p : Fin 16) (pn off n : Nat) : (s.bumpB p pn off n).squares = s.squares := State.withDrs_squares s _
@[simp] theorem State.bumpB_sch (s : State) (p : Fin 16) (pn off n : Nat) : (s.bumpB p pn off n).sch = s.sch := State.withDrs_sch s _
@[simp] theorem State.bumpB_mem (s : State) (p : Fin 16) (pn off n : Nat) : (s.bumpB p pn off n).mem = s.mem := State.withDrs_mem s _
@[simp] theorem State.bumpB_pt (s : State) (p : Fin 16) (pn off n : Nat) : (s.bumpB p pn off n).pt = s.pt := State.withDrs_pt s _
@[simp] theorem State.bumpB_fab (s : State) (p : Fin 16) (pn off n : Nat) : (s.bumpB p pn off n).fab = s.fab := State.withDrs_fab s _
@[simp] theorem State.bumpB_mxe (s : State) (p : Fin 16) (pn off n : Nat) : (s.bumpB p pn off n).mxe = s.mxe := State.withDrs_mxe s _
@[simp] theorem State.bumpB_vxe (s : State) (p : Fin 16) (pn off n : Nat) : (s.bumpB p pn off n).vxe = s.vxe := State.withDrs_vxe s _
@[simp] theorem State.bumpB_sft (s : State) (p : Fin 16) (pn off n : Nat) : (s.bumpB p pn off n).sft = s.sft := State.withDrs_sft s _
@[simp] theorem State.bumpB_mov (s : State) (p : Fin 16) (pn off n : Nat) : (s.bumpB p pn off n).mov = s.mov := State.withDrs_mov s _
@[simp] theorem State.bumpB_upd (s : State) (p : Fin 16) (pn off n : Nat) : (s.bumpB p pn off n).upd = s.upd := State.withDrs_upd s _
@[simp] theorem State.bumpB_col (s : State) (p : Fin 16) (pn off n : Nat) : (s.bumpB p pn off n).col = s.col := State.withDrs_col s _
@[simp] theorem State.bumpB_rot (s : State) (p : Fin 16) (pn off n : Nat) : (s.bumpB p pn off n).rot = s.rot := State.withDrs_rot s _
@[simp] theorem State.bumpB_arb (s : State) (p : Fin 16) (pn off n : Nat) : (s.bumpB p pn off n).arb = s.arb := State.withDrs_arb s _
@[simp] theorem State.bumpB_rcv (s : State) (p : Fin 16) (pn off n : Nat) : (s.bumpB p pn off n).rcv = s.rcv := State.withDrs_rcv s _
@[simp] theorem State.bumpB_out (s : State) (p : Fin 16) (pn off n : Nat) : (s.bumpB p pn off n).out = s.out := State.withDrs_out s _
@[simp] theorem State.bumpB_resp (s : State) (p : Fin 16) (pn off n : Nat) : (s.bumpB p pn off n).resp = s.resp := State.withDrs_resp s _
@[simp] theorem State.bumpB_free (s : State) (p : Fin 16) (pn off n : Nat) : (s.bumpB p pn off n).free = s.free := State.withDrs_free s _

@[simp] theorem State.statusOne_pending (s : State) (p : Fin 16) (pn bit : Nat) : (s.statusOne p pn bit).pending = s.pending := State.withDrs_pending s _
@[simp] theorem State.statusOne_sys (s : State) (p : Fin 16) (pn bit : Nat) : (s.statusOne p pn bit).sys = s.sys := State.withDrs_sys s _
@[simp] theorem State.statusOne_score (s : State) (p : Fin 16) (pn bit : Nat) : (s.statusOne p pn bit).score = s.score := State.withDrs_score s _
@[simp] theorem State.statusOne_squares (s : State) (p : Fin 16) (pn bit : Nat) : (s.statusOne p pn bit).squares = s.squares := State.withDrs_squares s _
@[simp] theorem State.statusOne_sch (s : State) (p : Fin 16) (pn bit : Nat) : (s.statusOne p pn bit).sch = s.sch := State.withDrs_sch s _
@[simp] theorem State.statusOne_mem (s : State) (p : Fin 16) (pn bit : Nat) : (s.statusOne p pn bit).mem = s.mem := State.withDrs_mem s _
@[simp] theorem State.statusOne_pt (s : State) (p : Fin 16) (pn bit : Nat) : (s.statusOne p pn bit).pt = s.pt := State.withDrs_pt s _
@[simp] theorem State.statusOne_fab (s : State) (p : Fin 16) (pn bit : Nat) : (s.statusOne p pn bit).fab = s.fab := State.withDrs_fab s _
@[simp] theorem State.statusOne_mxe (s : State) (p : Fin 16) (pn bit : Nat) : (s.statusOne p pn bit).mxe = s.mxe := State.withDrs_mxe s _
@[simp] theorem State.statusOne_vxe (s : State) (p : Fin 16) (pn bit : Nat) : (s.statusOne p pn bit).vxe = s.vxe := State.withDrs_vxe s _
@[simp] theorem State.statusOne_sft (s : State) (p : Fin 16) (pn bit : Nat) : (s.statusOne p pn bit).sft = s.sft := State.withDrs_sft s _
@[simp] theorem State.statusOne_mov (s : State) (p : Fin 16) (pn bit : Nat) : (s.statusOne p pn bit).mov = s.mov := State.withDrs_mov s _
@[simp] theorem State.statusOne_upd (s : State) (p : Fin 16) (pn bit : Nat) : (s.statusOne p pn bit).upd = s.upd := State.withDrs_upd s _
@[simp] theorem State.statusOne_col (s : State) (p : Fin 16) (pn bit : Nat) : (s.statusOne p pn bit).col = s.col := State.withDrs_col s _
@[simp] theorem State.statusOne_rot (s : State) (p : Fin 16) (pn bit : Nat) : (s.statusOne p pn bit).rot = s.rot := State.withDrs_rot s _
@[simp] theorem State.statusOne_arb (s : State) (p : Fin 16) (pn bit : Nat) : (s.statusOne p pn bit).arb = s.arb := State.withDrs_arb s _
@[simp] theorem State.statusOne_rcv (s : State) (p : Fin 16) (pn bit : Nat) : (s.statusOne p pn bit).rcv = s.rcv := State.withDrs_rcv s _
@[simp] theorem State.statusOne_out (s : State) (p : Fin 16) (pn bit : Nat) : (s.statusOne p pn bit).out = s.out := State.withDrs_out s _
@[simp] theorem State.statusOne_resp (s : State) (p : Fin 16) (pn bit : Nat) : (s.statusOne p pn bit).resp = s.resp := State.withDrs_resp s _
@[simp] theorem State.statusOne_free (s : State) (p : Fin 16) (pn bit : Nat) : (s.statusOne p pn bit).free = s.free := State.withDrs_free s _

@[simp] theorem State.cmdIgnored_pending (s : State) (p : Fin 16) (pn : Nat) : (s.cmdIgnored p pn).pending = s.pending := State.withDrs_pending s _
@[simp] theorem State.cmdIgnored_sys (s : State) (p : Fin 16) (pn : Nat) : (s.cmdIgnored p pn).sys = s.sys := State.withDrs_sys s _
@[simp] theorem State.cmdIgnored_score (s : State) (p : Fin 16) (pn : Nat) : (s.cmdIgnored p pn).score = s.score := State.withDrs_score s _
@[simp] theorem State.cmdIgnored_squares (s : State) (p : Fin 16) (pn : Nat) : (s.cmdIgnored p pn).squares = s.squares := State.withDrs_squares s _
@[simp] theorem State.cmdIgnored_sch (s : State) (p : Fin 16) (pn : Nat) : (s.cmdIgnored p pn).sch = s.sch := State.withDrs_sch s _
@[simp] theorem State.cmdIgnored_mem (s : State) (p : Fin 16) (pn : Nat) : (s.cmdIgnored p pn).mem = s.mem := State.withDrs_mem s _
@[simp] theorem State.cmdIgnored_pt (s : State) (p : Fin 16) (pn : Nat) : (s.cmdIgnored p pn).pt = s.pt := State.withDrs_pt s _
@[simp] theorem State.cmdIgnored_fab (s : State) (p : Fin 16) (pn : Nat) : (s.cmdIgnored p pn).fab = s.fab := State.withDrs_fab s _
@[simp] theorem State.cmdIgnored_mxe (s : State) (p : Fin 16) (pn : Nat) : (s.cmdIgnored p pn).mxe = s.mxe := State.withDrs_mxe s _
@[simp] theorem State.cmdIgnored_vxe (s : State) (p : Fin 16) (pn : Nat) : (s.cmdIgnored p pn).vxe = s.vxe := State.withDrs_vxe s _
@[simp] theorem State.cmdIgnored_sft (s : State) (p : Fin 16) (pn : Nat) : (s.cmdIgnored p pn).sft = s.sft := State.withDrs_sft s _
@[simp] theorem State.cmdIgnored_mov (s : State) (p : Fin 16) (pn : Nat) : (s.cmdIgnored p pn).mov = s.mov := State.withDrs_mov s _
@[simp] theorem State.cmdIgnored_upd (s : State) (p : Fin 16) (pn : Nat) : (s.cmdIgnored p pn).upd = s.upd := State.withDrs_upd s _
@[simp] theorem State.cmdIgnored_col (s : State) (p : Fin 16) (pn : Nat) : (s.cmdIgnored p pn).col = s.col := State.withDrs_col s _
@[simp] theorem State.cmdIgnored_rot (s : State) (p : Fin 16) (pn : Nat) : (s.cmdIgnored p pn).rot = s.rot := State.withDrs_rot s _
@[simp] theorem State.cmdIgnored_arb (s : State) (p : Fin 16) (pn : Nat) : (s.cmdIgnored p pn).arb = s.arb := State.withDrs_arb s _
@[simp] theorem State.cmdIgnored_rcv (s : State) (p : Fin 16) (pn : Nat) : (s.cmdIgnored p pn).rcv = s.rcv := State.withDrs_rcv s _
@[simp] theorem State.cmdIgnored_out (s : State) (p : Fin 16) (pn : Nat) : (s.cmdIgnored p pn).out = s.out := State.withDrs_out s _
@[simp] theorem State.cmdIgnored_resp (s : State) (p : Fin 16) (pn : Nat) : (s.cmdIgnored p pn).resp = s.resp := State.withDrs_resp s _
@[simp] theorem State.cmdIgnored_free (s : State) (p : Fin 16) (pn : Nat) : (s.cmdIgnored p pn).free = s.free := State.withDrs_free s _

@[simp] theorem State.record_pending (s : State) (kind : Nat) (p : Fin 16) (subject value : Nat) : (s.record kind p subject value).pending = s.pending := rfl
@[simp] theorem State.record_sys (s : State) (kind : Nat) (p : Fin 16) (subject value : Nat) : (s.record kind p subject value).sys = s.sys := rfl
@[simp] theorem State.record_drs (s : State) (kind : Nat) (p : Fin 16) (subject value : Nat) : (s.record kind p subject value).drs = s.drs := rfl
@[simp] theorem State.record_squares (s : State) (kind : Nat) (p : Fin 16) (subject value : Nat) : (s.record kind p subject value).squares = s.squares := rfl
@[simp] theorem State.record_sch (s : State) (kind : Nat) (p : Fin 16) (subject value : Nat) : (s.record kind p subject value).sch = s.sch := rfl
@[simp] theorem State.record_mem (s : State) (kind : Nat) (p : Fin 16) (subject value : Nat) : (s.record kind p subject value).mem = s.mem := rfl
@[simp] theorem State.record_pt (s : State) (kind : Nat) (p : Fin 16) (subject value : Nat) : (s.record kind p subject value).pt = s.pt := rfl
@[simp] theorem State.record_fab (s : State) (kind : Nat) (p : Fin 16) (subject value : Nat) : (s.record kind p subject value).fab = s.fab := rfl
@[simp] theorem State.record_mxe (s : State) (kind : Nat) (p : Fin 16) (subject value : Nat) : (s.record kind p subject value).mxe = s.mxe := rfl
@[simp] theorem State.record_vxe (s : State) (kind : Nat) (p : Fin 16) (subject value : Nat) : (s.record kind p subject value).vxe = s.vxe := rfl
@[simp] theorem State.record_sft (s : State) (kind : Nat) (p : Fin 16) (subject value : Nat) : (s.record kind p subject value).sft = s.sft := rfl
@[simp] theorem State.record_mov (s : State) (kind : Nat) (p : Fin 16) (subject value : Nat) : (s.record kind p subject value).mov = s.mov := rfl
@[simp] theorem State.record_upd (s : State) (kind : Nat) (p : Fin 16) (subject value : Nat) : (s.record kind p subject value).upd = s.upd := rfl
@[simp] theorem State.record_col (s : State) (kind : Nat) (p : Fin 16) (subject value : Nat) : (s.record kind p subject value).col = s.col := rfl
@[simp] theorem State.record_rot (s : State) (kind : Nat) (p : Fin 16) (subject value : Nat) : (s.record kind p subject value).rot = s.rot := rfl
@[simp] theorem State.record_arb (s : State) (kind : Nat) (p : Fin 16) (subject value : Nat) : (s.record kind p subject value).arb = s.arb := rfl
@[simp] theorem State.record_rcv (s : State) (kind : Nat) (p : Fin 16) (subject value : Nat) : (s.record kind p subject value).rcv = s.rcv := rfl
@[simp] theorem State.record_out (s : State) (kind : Nat) (p : Fin 16) (subject value : Nat) : (s.record kind p subject value).out = s.out := rfl
@[simp] theorem State.record_resp (s : State) (kind : Nat) (p : Fin 16) (subject value : Nat) : (s.record kind p subject value).resp = s.resp := rfl
@[simp] theorem State.record_free (s : State) (kind : Nat) (p : Fin 16) (subject value : Nat) : (s.record kind p subject value).free = s.free := rfl

@[simp] theorem State.countIgnored_pending (s : State) (p : Fin 16) (off : Nat) : (s.countIgnored p off).pending = s.pending := rfl
@[simp] theorem State.countIgnored_sys (s : State) (p : Fin 16) (off : Nat) : (s.countIgnored p off).sys = s.sys := rfl
@[simp] theorem State.countIgnored_drs (s : State) (p : Fin 16) (off : Nat) : (s.countIgnored p off).drs = s.drs := rfl
@[simp] theorem State.countIgnored_squares (s : State) (p : Fin 16) (off : Nat) : (s.countIgnored p off).squares = s.squares := rfl
@[simp] theorem State.countIgnored_sch (s : State) (p : Fin 16) (off : Nat) : (s.countIgnored p off).sch = s.sch := rfl
@[simp] theorem State.countIgnored_mem (s : State) (p : Fin 16) (off : Nat) : (s.countIgnored p off).mem = s.mem := rfl
@[simp] theorem State.countIgnored_pt (s : State) (p : Fin 16) (off : Nat) : (s.countIgnored p off).pt = s.pt := rfl
@[simp] theorem State.countIgnored_fab (s : State) (p : Fin 16) (off : Nat) : (s.countIgnored p off).fab = s.fab := rfl
@[simp] theorem State.countIgnored_mxe (s : State) (p : Fin 16) (off : Nat) : (s.countIgnored p off).mxe = s.mxe := rfl
@[simp] theorem State.countIgnored_vxe (s : State) (p : Fin 16) (off : Nat) : (s.countIgnored p off).vxe = s.vxe := rfl
@[simp] theorem State.countIgnored_sft (s : State) (p : Fin 16) (off : Nat) : (s.countIgnored p off).sft = s.sft := rfl
@[simp] theorem State.countIgnored_mov (s : State) (p : Fin 16) (off : Nat) : (s.countIgnored p off).mov = s.mov := rfl
@[simp] theorem State.countIgnored_upd (s : State) (p : Fin 16) (off : Nat) : (s.countIgnored p off).upd = s.upd := rfl
@[simp] theorem State.countIgnored_col (s : State) (p : Fin 16) (off : Nat) : (s.countIgnored p off).col = s.col := rfl
@[simp] theorem State.countIgnored_rot (s : State) (p : Fin 16) (off : Nat) : (s.countIgnored p off).rot = s.rot := rfl
@[simp] theorem State.countIgnored_arb (s : State) (p : Fin 16) (off : Nat) : (s.countIgnored p off).arb = s.arb := rfl
@[simp] theorem State.countIgnored_rcv (s : State) (p : Fin 16) (off : Nat) : (s.countIgnored p off).rcv = s.rcv := rfl
@[simp] theorem State.countIgnored_out (s : State) (p : Fin 16) (off : Nat) : (s.countIgnored p off).out = s.out := rfl
@[simp] theorem State.countIgnored_resp (s : State) (p : Fin 16) (off : Nat) : (s.countIgnored p off).resp = s.resp := rfl
@[simp] theorem State.countIgnored_free (s : State) (p : Fin 16) (off : Nat) : (s.countIgnored p off).free = s.free := rfl

@[simp] theorem State.setCtx_pending (s : State) (n : Nat) (x : Ctx) : (s.setCtx n x).pending = s.pending := rfl
@[simp] theorem State.setCtx_sys (s : State) (n : Nat) (x : Ctx) : (s.setCtx n x).sys = s.sys := rfl
@[simp] theorem State.setCtx_drs (s : State) (n : Nat) (x : Ctx) : (s.setCtx n x).drs = s.drs := rfl
@[simp] theorem State.setCtx_score (s : State) (n : Nat) (x : Ctx) : (s.setCtx n x).score = s.score := rfl
@[simp] theorem State.setCtx_squares (s : State) (n : Nat) (x : Ctx) : (s.setCtx n x).squares = s.squares := rfl
@[simp] theorem State.setCtx_mem (s : State) (n : Nat) (x : Ctx) : (s.setCtx n x).mem = s.mem := rfl
@[simp] theorem State.setCtx_pt (s : State) (n : Nat) (x : Ctx) : (s.setCtx n x).pt = s.pt := rfl
@[simp] theorem State.setCtx_fab (s : State) (n : Nat) (x : Ctx) : (s.setCtx n x).fab = s.fab := rfl
@[simp] theorem State.setCtx_mxe (s : State) (n : Nat) (x : Ctx) : (s.setCtx n x).mxe = s.mxe := rfl
@[simp] theorem State.setCtx_vxe (s : State) (n : Nat) (x : Ctx) : (s.setCtx n x).vxe = s.vxe := rfl
@[simp] theorem State.setCtx_sft (s : State) (n : Nat) (x : Ctx) : (s.setCtx n x).sft = s.sft := rfl
@[simp] theorem State.setCtx_mov (s : State) (n : Nat) (x : Ctx) : (s.setCtx n x).mov = s.mov := rfl
@[simp] theorem State.setCtx_upd (s : State) (n : Nat) (x : Ctx) : (s.setCtx n x).upd = s.upd := rfl
@[simp] theorem State.setCtx_col (s : State) (n : Nat) (x : Ctx) : (s.setCtx n x).col = s.col := rfl
@[simp] theorem State.setCtx_rot (s : State) (n : Nat) (x : Ctx) : (s.setCtx n x).rot = s.rot := rfl
@[simp] theorem State.setCtx_arb (s : State) (n : Nat) (x : Ctx) : (s.setCtx n x).arb = s.arb := rfl
@[simp] theorem State.setCtx_rcv (s : State) (n : Nat) (x : Ctx) : (s.setCtx n x).rcv = s.rcv := rfl
@[simp] theorem State.setCtx_out (s : State) (n : Nat) (x : Ctx) : (s.setCtx n x).out = s.out := rfl
@[simp] theorem State.setCtx_resp (s : State) (n : Nat) (x : Ctx) : (s.setCtx n x).resp = s.resp := rfl
@[simp] theorem State.setCtx_free (s : State) (n : Nat) (x : Ctx) : (s.setCtx n x).free = s.free := rfl

/-! ### Reads after writes -/

/-- The number of a register in its bank's space. -/
theorem State.reg_eq_regB (s : State) (pn off : Nat) : s.reg pn off = s.regB 0 pn off := by
  simp [State.reg, State.regB]

theorem State.setReg_eq_setRegB (s : State) (pn off : Nat) (v : Word) : s.setReg pn off v = s.setRegB 0 pn off v := by
  simp [State.setReg, State.setRegB]

@[simp] theorem State.reg_setReg (s : State) (pn off : Nat) (v : Word) : (s.setReg pn off v).reg pn off = v := by
  simp [State.reg, State.setReg]

theorem State.reg_setReg_other (s : State) {pn off pn' off' : Nat} (v : Word) (h : 4096 * pn' + off' ≠ 4096 * pn + off) :
    (s.setReg pn off v).reg pn' off' = s.reg pn' off' := by
  simp [State.reg, State.setReg, FMap.get_set_other _ _ _ h]

@[simp] theorem State.regB_setRegB (s : State) (p : Fin 16) (pn off : Nat) (v : Word) :
    (s.setRegB p pn off v).regB p pn off = v := by
  simp [State.regB, State.setRegB]

theorem State.regB_setRegB_other (s : State) {p p' : Fin 16} {pn off pn' off' : Nat} (v : Word)
    (h : 2 ^ 24 * p'.val + (4096 * pn' + off') ≠ 2 ^ 24 * p.val + (4096 * pn + off)) :
    (s.setRegB p pn off v).regB p' pn' off' = s.regB p' pn' off' := by
  simp only [State.regB, State.setRegB]; exact FMap.get_set_other _ _ _ h

@[simp] theorem State.page_setPage (s : State) (pn : Nat) (x : Page) : (s.setPage pn x).page pn = x := by
  simp [State.page, State.setPage]

theorem State.page_setPage_other (s : State) {pn j : Nat} (x : Page) (h : j ≠ pn) : (s.setPage pn x).page j = s.page j := by
  simp [State.page, State.setPage, FMap.get_set_other _ _ _ h]

@[simp] theorem State.err_setErr (s : State) (b : Nat) (x : ErrSet) : (s.setErr b x).err b = x := by
  simp [State.err, State.setErr]

theorem State.err_setErr_other (s : State) {b j : Nat} (x : ErrSet) (h : j ≠ b) : (s.setErr b x).err j = s.err j := by
  simp [State.err, State.setErr, FMap.get_set_other _ _ _ h]

@[simp] theorem State.part_setPart (s : State) (p : Fin 16) (x : Part) : (s.setPart p x).part p = x := by
  simp [State.part, State.setPart]

theorem State.part_setPart_other (s : State) {p j : Fin 16} (x : Part) (h : j ≠ p) : (s.setPart p x).part j = s.part j := by
  simp only [State.part, State.setPart]; exact FMap.get_set_other _ _ _ (fun e => h (Fin.ext e))

@[simp] theorem State.pawn_setPawn (s : State) (p k : Nat) (x : Pawn) : (s.setPawn p k x).pawn p k = x := by
  simp [State.pawn, State.setPawn]

@[simp] theorem State.link_setLink (s : State) (n : Nat) (x : Link) : (s.setLink n x).link n = x := by
  simp [State.link, State.setLink]

theorem State.link_setLink_other (s : State) {n j : Nat} (x : Link) (h : j ≠ n) : (s.setLink n x).link j = s.link j := by
  simp [State.link, State.setLink, FMap.get_set_other _ _ _ h]

@[simp] theorem State.chan_setChan (s : State) (k ch : Nat) (x : Chan) : (s.setChan k ch x).chan k ch = x := by
  simp [State.chan, State.setChan]

@[simp] theorem State.spare_setSpare (s : State) (k j : Nat) (x : Spare) : (s.setSpare k j x).spare k j = x := by
  simp [State.spare, State.setSpare]

theorem State.withRegs_page (s : State) (m : FMap Word) (j : Nat) :
    State.page { s with drs := { s.drs with regs := m } } j = s.page j := rfl
theorem State.withRegs_err (s : State) (m : FMap Word) (j : Nat) :
    State.err { s with drs := { s.drs with regs := m } } j = s.err j := rfl
@[simp] theorem State.page_setReg (s : State) (pn off : Nat) (v : Word) (j : Nat) : (s.setReg pn off v).page j = s.page j := State.withRegs_page s _ j
@[simp] theorem State.page_setRegB (s : State) (p : Fin 16) (pn off : Nat) (v : Word) (j : Nat) :
    (s.setRegB p pn off v).page j = s.page j := State.withRegs_page s _ j
@[simp] theorem State.err_setReg (s : State) (pn off : Nat) (v : Word) (j : Nat) : (s.setReg pn off v).err j = s.err j := State.withRegs_err s _ j
@[simp] theorem State.err_setRegB (s : State) (p : Fin 16) (pn off : Nat) (v : Word) (j : Nat) :
    (s.setRegB p pn off v).err j = s.err j := State.withRegs_err s _ j
@[simp] theorem State.regB_setPage (s : State) (pn : Nat) (x : Page) (p : Fin 16) (j off : Nat) :
    (s.setPage pn x).regB p j off = s.regB p j off := rfl
@[simp] theorem State.reg_setPage (s : State) (pn : Nat) (x : Page) (j off : Nat) : (s.setPage pn x).reg j off = s.reg j off := rfl
@[simp] theorem State.err_setPage (s : State) (pn : Nat) (x : Page) (j : Nat) : (s.setPage pn x).err j = s.err j := rfl
@[simp] theorem State.page_setErr (s : State) (b : Nat) (x : ErrSet) (j : Nat) : (s.setErr b x).page j = s.page j := rfl
@[simp] theorem State.regB_setErr (s : State) (b : Nat) (x : ErrSet) (p : Fin 16) (j off : Nat) :
    (s.setErr b x).regB p j off = s.regB p j off := rfl

end Sys2Proof.Machine
end

