-- ==== Sys2Proof/Laws/Memory.lean ====
section
/-!
SUPPORT. Device memory and the scratchpads: every operation on them keeps their canonical form, a byte read after a write is
the byte written, and counting a fault touches neither.
-/

namespace Sys2Proof.Machine

open Sys2Proof

/-- `t` has the contents of `s` in device memory and in the scratchpads. -/
structure SameMem (s t : State) : Prop where
  cells : t.mem.cells = s.mem.cells
  spad : t.squares.spad = s.squares.spad

namespace SameMem

theorem refl (s : State) : SameMem s s := ⟨rfl, rfl⟩

theorem trans {a b c : State} (h : SameMem a b) (h' : SameMem b c) : SameMem a c :=
  ⟨h'.cells.trans h.cells, h'.spad.trans h.spad⟩

theorem foldl {β : Type} (f : State → β → State) (h : ∀ s x, SameMem s (f s x)) (l : List β) (s : State) :
    SameMem s (l.foldl f s) := by
  induction l generalizing s with
  | nil => exact refl s
  | cons a t ih => exact (h s a).trans (ih _)

theorem ok {s t : State} (h : SameMem s t) (hs : s.memOk = true) : t.memOk = true := by
  unfold State.memOk at *
  rw [h.cells, h.spad]
  exact hs

theorem setReg {s t : State} (h : SameMem s t) (pn off : Nat) (v : Word) : SameMem s (t.setReg pn off v) := ⟨h.cells, h.spad⟩

theorem setPage {s t : State} (h : SameMem s t) (pn : Nat) (p : Page) : SameMem s (t.setPage pn p) := ⟨h.cells, h.spad⟩

theorem setErr {s t : State} (h : SameMem s t) (b : Nat) (e : ErrSet) : SameMem s (t.setErr b e) := ⟨h.cells, h.spad⟩

theorem setChan {s t : State} (h : SameMem s t) (k ch : Nat) (c : Chan) : SameMem s (t.setChan k ch c) := ⟨h.cells, h.spad⟩

theorem setSpare {s t : State} (h : SameMem s t) (k j : Nat) (x : Spare) : SameMem s (t.setSpare k j x) := ⟨h.cells, h.spad⟩

theorem setMemMark {s t : State} (h : SameMem s t) (g m : Nat) : SameMem s (t.setMemMark g m) := ⟨h.cells, h.spad⟩

theorem setSpadMark {s t : State} (h : SameMem s t) (w m : Nat) : SameMem s (t.setSpadMark w m) := ⟨h.cells, h.spad⟩

theorem record {s t : State} (h : SameMem s t) (kind : Nat) (p : Fin 16) (x v : Nat) : SameMem s (t.record kind p x v) :=
  ⟨h.cells, h.spad⟩

theorem bump {s t : State} (h : SameMem s t) (pn off n : Nat) : SameMem s (t.bump pn off n) := h.setReg _ _ _

theorem bump64 {s t : State} (h : SameMem s t) (pn off n : Nat) : SameMem s (t.bump64 pn off n) :=
  (h.setReg _ _ _).setReg _ _ _

theorem statusOne {s t : State} (h : SameMem s t) (p : Fin 16) (pn bit : Nat) : SameMem s (t.statusOne p pn bit) :=
  ⟨h.cells, h.spad⟩

theorem statusAll {s t : State} (h : SameMem s t) (pn bit : Nat) : SameMem s (t.statusAll pn bit) := by
  unfold State.statusAll
  split
  · exact h.trans (foldl (fun s p => s.statusOne p pn bit) (fun s p => statusOne (refl s) p pn bit) allParts t)
  · exact h.statusOne _ _ _

theorem signal {s t : State} (h : SameMem s t) (pn bit : Nat) : SameMem s (t.signal pn bit) :=
  h.trans (foldl (fun s x => s.statusAll x bit) (fun s x => statusAll (refl s) x bit) _ t)

theorem ungate {s t : State} (h : SameMem s t) (pn : Nat) : SameMem s (t.ungate pn) := by
  unfold State.ungate
  split
  · exact ⟨h.cells, h.spad⟩
  · exact h

theorem toPage {s t : State} (h : SameMem s t) (pn : Nat) (p : Page) : SameMem s (t.toPage pn p) := by
  have h2 : SameMem s (if (t.page pn).st = p.st then t.setPage pn p else ((t.setPage pn p).ungate pn).signal pn 0) := by
    split
    · exact h.setPage _ _
    · exact ((h.setPage _ _).ungate _).signal _ _
  unfold State.toPage
  dsimp only
  generalize (if (t.page pn).st = p.st then t.setPage pn p else ((t.setPage pn p).ungate pn).signal pn 0) = t2 at h2 ⊢
  split
  · exact h2.signal _ _
  · exact h2

theorem statusUnless {s t : State} (h : SameMem s t) (c : Prop) [Decidable c] (pn bit : Nat) :
    SameMem s (if c then t else t.statusAll pn bit) := by
  split
  · exact h
  · exact h.statusAll _ _

/-- What the end of a command leaves on its engine's page touches no storage. -/
theorem noteEnd {s t : State} (h : SameMem s t) (j : Job) (code : Nat) : SameMem s (t.noteEnd j code) := by
  unfold State.noteEnd
  dsimp only
  split
  · exact h
  split
  · split
    · exact h
    · exact h.setReg _ _ _
  split
  · exact (h.setReg _ _ _).statusUnless _ _ _
  split
  · exact (((h.setReg _ _ _).setReg _ _ _).setReg _ _ _).statusUnless _ _ _
  split
  · exact h.setReg _ _ _
  split
  · split
    · exact (h.setReg _ _ _).statusUnless _ _ _
    · exact h
  · exact h

theorem endNoted {s t : State} (h : SameMem s t) (p : Job → Bool) (code : Nat) : SameMem s (t.endNoted p code) := by
  unfold State.endNoted State.endJobs State.setJobs
  have h1 := h.trans (foldl (fun s j => s.noteEnd j code) (fun s j => noteEnd (refl s) j code)
    (t.sch.jobs.filter (fun j => p j && j.live)) t)
  exact ⟨h1.cells, h1.spad⟩

theorem retirePage {s t : State} (h : SameMem s t) (pn : Nat) : SameMem s (t.retirePage pn) := by
  unfold State.retirePage
  exact h.toPage _ _

theorem retireSquare {s t : State} (h : SameMem s t) (q : Nat) : SameMem s (t.retireSquare q) := by
  unfold State.retireSquare
  split
  · exact h
  · have h1 := h.trans (foldl State.retirePage (fun s pn => retirePage (refl s) pn) (sqPages q) t)
    have h2 := h1.endNoted (Job.onSquare q) cUnitFault
    dsimp only [State.dropEngines, State.dropEndedTxs]
    generalize ((sqPages q).foldl State.retirePage t).endNoted (Job.onSquare q) cUnitFault = s2 at h2 ⊢
    exact ⟨h2.cells, h2.spad⟩

theorem copyToSpare {s t : State} (h : SameMem s t) (k ch : Nat) : SameMem s (t.copyToSpare k ch) := by
  unfold State.copyToSpare
  dsimp only
  split
  · exact (h.setChan _ _ _).statusAll _ _
  · exact ((h.setChan _ _ _).setChan _ _ _).setSpare _ _ _

theorem startSpareCopy {s t : State} (h : SameMem s t) (k ch : Nat) : SameMem s (t.startSpareCopy k ch) := by
  unfold State.startSpareCopy
  split
  · exact h.copyToSpare _ _
  · exact ((h.setChan _ _ _).setSpare _ _ _).copyToSpare _ _
  · exact h

theorem declareLasting {s t : State} (h : SameMem s t) (base : Nat) : SameMem s (t.declareLasting base) := by
  have h3 := ((h.setErr base { t.err base with lasting := true }).statusAll (base / 4096) 2).record 0x100 0
    (bitsOf base 23 12 * 256 + errUnit base) 1
  unfold State.declareLasting
  dsimp only
  generalize ((t.setErr base { t.err base with lasting := true }).statusAll (base / 4096) 2).record 0x100 0
    (bitsOf base 23 12 * 256 + errUnit base) 1 = s3 at h3 ⊢
  split
  iterate 4 exact h3.retireSquare _
  · exact h3.startSpareCopy _ _
  iterate 2 exact h3.retirePage _
  · exact ⟨h3.cells, h3.spad⟩
  · exact h3

theorem countFault {s t : State} (h : SameMem s t) (base n : Nat) : SameMem s (t.countFault base n) := by
  unfold State.countFault State.checkLasting
  dsimp only
  split
  · exact (h.setErr _ _).declareLasting _
  · exact h.setErr _ _

theorem chanEvent {s t : State} (h : SameMem s t) (g m : Nat) (u : Bool) : SameMem s (t.chanEvent g m u) := by
  unfold State.chanEvent
  dsimp only
  refine SameMem.countFault ?_ _ _
  split
  · exact ((((h.setReg _ _ _).setReg _ _ _).statusAll _ _).statusAll _ _).bump _ _ _
  · exact (((h.setReg _ _ _).setReg _ _ _).statusAll _ _).statusAll _ _

theorem memFind {s t : State} (h : SameMem s t) (g : Nat) : SameMem s (t.memFind g).2 := by
  unfold State.memFind
  dsimp only
  split
  · exact h
  · split
    · exact (h.setMemMark _ _).chanEvent _ _ _
    · exact h.chanEvent _ _ _

theorem spadFind {s t : State} (h : SameMem s t) (q w : Nat) (first : Bool) : SameMem s (t.spadFind q w first).2 := by
  unfold State.spadFind State.eccLast State.unitFault
  split
  · exact h
  · split
    · exact (((h.setSpadMark _ _).setReg _ _ _).statusAll _ _).countFault _ _
    · dsimp only
      split
      · exact ((h.setReg _ _ _).statusAll _ _).countFault _ _
      · exact (h.setReg _ _ _).statusAll _ _

/-- A read of device memory, allowed or not, changes none of its bytes. -/
theorem memRead (s : State) (p : Fin 16) (src a n : Nat) : SameMem s (s.memRead p src a n).2 := by
  unfold State.memRead
  split
  · exact ⟨rfl, rfl⟩
  · split
    · exact refl s
    · unfold State.memReadRaw
      dsimp only
      have h : ∀ (l : List Nat) (x : Bool × State), SameMem s x.2 → SameMem s (l.foldl (fun (y : Bool × State) g =>
          ((y.1 && (y.2.memFind g).1 : Bool), (y.2.memFind g).2.bump64 (pgMem (y.2.granStack g)) R.MEM_RD_LO 1)) x).2 := by
        intro l
        induction l with
        | nil => exact fun _ hx => hx
        | cons g t ih =>
          intro x hx
          exact ih _ ((hx.memFind g).bump64 _ _ _)
      exact h _ (true, s) (refl s)

end SameMem

/-! ### The canonical form -/

theorem State.reset_memOk : State.reset.memOk = true := by decide

theorem State.memOk_iff (s : State) :
    s.memOk = true ↔ s.mem.cells.wf memDefault = true ∧ s.squares.spad.wf spadDefault = true := by
  unfold State.memOk
  simp

theorem State.setMemCell_memOk {s : State} (h : s.memOk = true) (a : Nat) (c : Cell) : (s.setMemCell a c).memOk = true := by
  rw [State.memOk_iff] at *
  exact ⟨FMap.wf_set h.1 a c, h.2⟩

theorem State.breakReservations_same (s : State) (r : Nat) : SameMem s (s.breakReservations r) := by
  unfold State.breakReservations
  exact SameMem.foldl (fun (s : State) (c : Nat × Pawn) => { s with squares := { s.squares with
    pawns := s.squares.pawns.set (fun _ => Pawn.reset) c.1 { c.2 with reservation := none } } }) (fun _ _ => ⟨rfl, rfl⟩) _ _

theorem State.setSpadCell_memOk {s : State} (h : s.memOk = true) (k : Nat) (c : Cell) : (s.setSpadCell k c).memOk = true := by
  rw [State.memOk_iff] at *
  have hb := State.breakReservations_same s (spadReservation k)
  refine ⟨?_, FMap.wf_set h.2 k c⟩
  show (s.breakReservations (spadReservation k)).mem.cells.wf memDefault = true
  rw [hb.cells]
  exact h.1

theorem State.renewRegion_memOk {s : State} (h : s.memOk = true) (x : Nat) : (s.renewRegion x).memOk = true := by
  rw [State.memOk_iff] at *
  exact ⟨FMap.wf_keep h.1 _, h.2⟩

theorem State.cryptoErase_memOk {s : State} (h : s.memOk = true) (x : Nat) : (s.cryptoErase x).memOk = true := by
  rw [State.memOk_iff] at *
  exact ⟨FMap.wf_keep h.1 _, h.2⟩

theorem State.zeroPhys_memOk {s : State} (h : s.memOk = true) (x : Nat) : (s.zeroPhys x).memOk = true := by
  rw [State.memOk_iff] at *
  exact ⟨h.1, FMap.wf_keep h.2 _⟩

theorem State.setMemCells_memOk (l : List (Nat × Cell)) {s : State} (h : s.memOk = true) :
    (l.foldl (fun s (x, c) => s.setMemCell x c) s).memOk = true := by
  induction l generalizing s with
  | nil => exact h
  | cons a t ih => exact ih (State.setMemCell_memOk h a.1 a.2)

theorem State.writeGranule_memOk {s : State} (h : s.memOk = true) (g : Nat) (part : List (Nat × Cell)) :
    (s.writeGranule g part).2.memOk = true := by
  have count {t : State} (ht : t.memOk = true) : (t.bump64 (pgMem (t.granStack g)) R.MEM_WR_LO 1).memOk = true :=
    ((SameMem.refl t).bump64 _ _ _).ok ht
  unfold State.writeGranule
  dsimp only
  split
  · exact State.setMemCells_memOk _ (count (SameMem.ok ((SameMem.refl s).setMemMark g 0) h))
  · have hf := SameMem.ok ((SameMem.refl s).memFind g) h
    dsimp only
    split
    · exact State.setMemCells_memOk _ (count hf)
    · exact hf

/-- A write to device memory keeps the canonical form, whatever it answers. -/
theorem State.memWriteRaw_memOk {s : State} (h : s.memOk = true) (a : Nat) (cs : List Cell) : (s.memWriteRaw a cs).2.memOk = true := by
  unfold State.memWriteRaw
  dsimp only
  generalize cs.zipIdx.map (fun (c, i) => (a + i, c)) = tagged
  generalize granules a cs.length = l
  have key : ∀ (l : List Nat) (x : Bool × State), x.2.memOk = true → (l.foldl (fun (y : Bool × State) g =>
      ((y.1 && (y.2.writeGranule g (tagged.filter (fun x => x.1 / 64 = g))).1 : Bool),
        (y.2.writeGranule g (tagged.filter (fun x => x.1 / 64 = g))).2)) x).2.memOk = true := by
    intro l
    induction l with
    | nil => exact fun _ hx => hx
    | cons g t ih => exact fun x hx => ih _ (State.writeGranule_memOk hx g _)
  exact key l (true, s) h

theorem State.memWriteCells_memOk {s : State} (h : s.memOk = true) (p : Fin 16) (src a : Nat) (cs : List Cell) :
    (s.memWriteCells p src a cs).2.memOk = true := by
  unfold State.memWriteCells
  split
  · exact SameMem.ok ⟨rfl, rfl⟩ h
  · split
    · exact h
    · exact State.memWriteRaw_memOk h a cs

theorem State.spadWriteWord_memOk {s : State} (h : s.memOk = true) (q : Nat) (first : Bool) (part : List (Nat × Cell)) :
    (s.spadWriteWord q first part).2.memOk = true := by
  have key : ∀ (key : State → Nat → Nat) (l : List (Nat × Cell)) (t : State), t.memOk = true →
      (l.foldl (fun t (x : Nat × Cell) => t.setSpadCell (key t x.1) x.2) t).memOk = true := by
    intro key l
    induction l with
    | nil => exact fun _ ht => ht
    | cons a t ih => exact fun s hs => ih _ (State.setSpadCell_memOk hs _ _)
  unfold State.spadWriteWord
  split
  · exact h
  · dsimp only
    split
    · exact key _ _ _ (SameMem.ok ((SameMem.refl s).setSpadMark _ _) h)
    · split
      · exact key _ _ _ (SameMem.ok ((SameMem.refl s).spadFind q _ _) h)
      · exact SameMem.ok ((SameMem.refl s).spadFind q _ _) h

/-- A write to a scratchpad keeps the canonical form, whatever it answers. -/
theorem State.spadWriteCells_memOk {s : State} (h : s.memOk = true) (q a : Nat) (cs : List Cell) :
    (s.spadWriteCells q a cs).2.memOk = true := by
  unfold State.spadWriteCells
  split
  · exact h
  · dsimp only
    generalize groupWords a cs = l
    have key : ∀ (l : List (List (Nat × Cell))) (x : Bool × State), x.2.memOk = true → (l.foldl (fun (y : Bool × State) g =>
        ((y.1 && (y.2.spadWriteWord q y.1 g).1 : Bool), (y.2.spadWriteWord q y.1 g).2)) x).2.memOk = true := by
      intro l
      induction l with
      | nil => exact fun _ hx => hx
      | cons g t ih => exact fun x hx => ih _ (State.spadWriteWord_memOk hx q _ g)
    exact key l (true, s) h

/-! ### Reads after writes -/

theorem State.memByte_setMemCell_same (s : State) (a : Nat) (b : Byte) : (s.setMemCell a (.known b)).memByte a = b := by
  unfold State.memByte State.setMemCell
  simp

theorem State.memByte_setMemCell_other (s : State) {a b : Nat} (c : Cell) (h : b ≠ a) : (s.setMemCell a c).memByte b = s.memByte b := by
  have e : (s.setMemCell a c).mem.cells.get memDefault b = s.mem.cells.get memDefault b := FMap.get_set_other _ _ _ h
  unfold State.memByte
  rw [e]
  rfl

theorem State.spadCell_setSpadCell_same (s : State) (k : Nat) (c : Cell) : (s.setSpadCell k c).spadCell k = c :=
  FMap.get_set_same _ _ _ _

theorem State.spadCell_setSpadCell_other (s : State) {k j : Nat} (c : Cell) (h : j ≠ k) : (s.setSpadCell k c).spadCell j = s.spadCell j :=
  FMap.get_set_other _ _ _ h

end Sys2Proof.Machine
end

