-- ==== Sys2Proof/Laws/Settle.lean ====
section
/-!
SUPPORT. What the end of a command adds to its effect: nothing but the interrupts that it has made to rise.
-/

namespace Sys2Proof.Machine

open Sys2Proof

namespace Raised

theorem refl (s : State) : Raised s s := ⟨rfl, fun _ _ => rfl, fun _ => ⟨_, _, _, _, rfl⟩, [], by simp⟩

theorem trans {a b c : State} (h : Raised a b) (h' : Raised b c) : Raised a c := by
  refine ⟨?_, fun k hk => (h'.regs k hk).trans (h.regs k hk), fun n => ?_, ?_⟩
  · have e := h.same
    have e' := h'.same
    rw [e] at e'
    exact e'
  · obtain ⟨x, y, z, w, e⟩ := h.links n
    obtain ⟨x', y', z', w', e'⟩ := h'.links n
    exact ⟨x', y', z', w', by rw [e', e]⟩
  · obtain ⟨l, e⟩ := h.outs
    obtain ⟨l', e'⟩ := h'.outs
    exact ⟨l ++ l', by rw [e', e, List.append_assoc]⟩

theorem setRegB (s : State) (p : Fin 16) (pn off : Nat) (v : Word)
    (h : interruptReg (2 ^ 24 * p.val + (4096 * pn + off)) = true) : Raised s (s.setRegB p pn off v) := by
  refine ⟨rfl, fun k hk => ?_, fun n => ⟨_, _, _, _, rfl⟩, [], by simp [State.setRegB]⟩
  exact FMap.get_set_other _ _ _ (fun e => by rw [e, h] at hk; cases hk)

theorem out (s : State) (l : List Out) : Raised s { s with out := s.out ++ l } :=
  ⟨rfl, fun _ _ => rfl, fun _ => ⟨_, _, _, _, rfl⟩, l, rfl⟩

theorem fab (s : State) (h : List EpochHold) (w : List (Fin 16)) (i a : FMap Nat) (m : FMap Msix) :
    Raised s { s with fab := { s.fab with heldOut := h, intWait := w, intSent := i, intAt := a, msix := m } } :=
  ⟨rfl, fun _ _ => rfl, fun _ => ⟨_, _, _, _, rfl⟩, [], by simp⟩

theorem setLink (s : State) (n seq : Nat) (rep : List KeptFlit) (cnt : Nat) (hs : List EpochHold) :
    Raised s (s.setLink n { s.link n with txSeq := seq, replay := rep, txFlits := cnt, waiting := hs }) := by
  refine ⟨rfl, fun _ _ => rfl, fun m => ?_, [], by simp [State.setLink]⟩
  by_cases hm : m = n
  · subst hm; exact ⟨_, _, _, _, State.link_setLink s m _⟩
  · exact ⟨_, _, _, _, State.link_setLink_other s _ hm⟩

theorem setReg (s : State) (pn off : Nat) (v : Word) (h : interruptReg (4096 * pn + off) = true) :
    Raised s (s.setReg pn off v) := by
  rw [State.setReg_eq_setRegB]
  exact setRegB s 0 pn off v (by simpa using h)

theorem fwd_reg (p : Fin 16) : interruptReg (2 ^ 24 * p.val + (4096 * pgHbr + R.HBR_INT_FWD)) = true := by
  revert p; decide

theorem raiseVector (s : State) (fn : Fin 16) (v : Nat) : Raised s (s.raiseVector fn v) := by
  have h : Raised s (s.bumpB fn pgHbr R.HBR_INT_FWD 1) := setRegB s fn _ _ _ (fwd_reg fn)
  unfold State.raiseVector
  dsimp only
  split
  · exact h.trans (fab _ _ _ _ _ _)
  · exact h.trans (out _ _)

theorem countDrop (s : State) (p : Packet) (r : Nat) : Raised s (s.countDrop p r) := by
  have hb : intBank 0 pgRte = 0 := by decide
  have hn : bankedInt (blockAt pgRte) = false := by decide
  unfold State.countDrop State.statusAll State.statusOne State.bump
  simp only [hn, hb, Bool.false_eq_true, if_false]
  refine ((setReg s pgRte R.RTE_DROP (s.reg pgRte R.RTE_DROP + word 1) (by decide)).trans
    (setReg _ pgRte R.RTE_LAST_DROP (word (r * 2 ^ 24 + p.src.toNat)) (by decide))).trans ?_
  exact setRegB _ 0 pgRte hIntStatus _ (by decide)

theorem link_reg : ∀ n < 64, interruptReg (4096 * pgLnk n + R.LNK_TX_LO) = true
    ∧ interruptReg (4096 * pgLnk n + (R.LNK_TX_LO + 4)) = true := by decide

theorem transmit (s : State) {n : Nat} (h : n < 64) (p : Packet) : Raised s (s.transmit n p) := by
  unfold State.transmit State.bump64
  exact (((setLink s n _ _ _ _).trans (setReg _ (pgLnk n) R.LNK_TX_LO _ (link_reg n h).1)).trans
    (setReg _ (pgLnk n) (R.LNK_TX_LO + 4) _ (link_reg n h).2)).trans (out _ _)

theorem candidate_lt {e n : Nat} (h : n ∈ routeCandidates e) : n < 64 := by
  unfold routeCandidates at h
  obtain ⟨c, -, rfl⟩ := List.mem_map.1 h
  unfold bitsOf
  have : 7 * c + 5 + 1 - 7 * c = 6 := by omega
  rw [this]
  exact Nat.mod_lt _ (by decide)

theorem chooseLink_lt {s : State} {p : Packet} {e n : Nat} (h : s.chooseLink p e = some n) : n < 64 := by
  unfold State.chooseLink at h
  dsimp only at h
  split at h
  · have := List.mem_of_find?_eq_some h
    rw [List.mem_append] at this
    rcases this with h1 | h1
    · exact candidate_lt (List.mem_of_mem_drop h1)
    · exact candidate_lt (List.mem_of_mem_take h1)
  · exact candidate_lt (List.mem_filter.1 (List.mem_of_find?_eq_some h)).1

theorem launch (s : State) {n : Nat} (h : n < 64) (p : Packet) : Raised s (s.launch n p) := by
  unfold State.launch
  split
  · exact transmit s h _
  · exact setLink s n _ _ _ _

theorem forward (s : State) (p : Packet) : Raised s (s.forward p).2 := by
  unfold State.forward
  split
  · exact fab _ _ _ _ _ _
  · split
    · exact countDrop _ _ _
    · split
      · exact countDrop _ _ _
      · next h => exact launch _ (chooseLink_lt h) _

theorem sendInterrupt (s : State) (p : Fin 16) : Raised s (s.sendInterrupt p) := by
  unfold State.sendInterrupt
  dsimp only
  split
  · exact refl s
  · split
    · split
      · exact (raiseVector s p _).trans (fab _ _ _ _ _ _)
      · exact refl s
    · exact forward _ _

theorem raiseSummary (s : State) (p : Fin 16) : Raised s (s.raiseSummary p) :=
  (fab s _ _ _ _ _).trans (sendInterrupt _ p)

theorem settleSummary (b s : State) (p : Fin 16) : Raised s (b.settleSummary s p) := by
  unfold State.settleSummary
  split
  · exact raiseSummary s p
  · exact refl s

theorem settleVector (b s : State) (p : Fin 16) : Raised s (b.settleVector s p) := by
  unfold State.settleVector
  split
  · exact raiseVector s p 64
  · exact refl s

theorem settleOne (b s : State) (p : Fin 16) : Raised s (State.settleOne b s p) :=
  (settleSummary b s p).trans (settleVector b _ p)

theorem settle (b s : State) : Raised s (State.settle b s) := by
  unfold State.settle
  generalize allParts = l
  induction l generalizing s with
  | nil => exact refl s
  | cons p t ih => exact (settleOne b s p).trans (ih _)

end Raised

/-- What a live device answers to a command whose effect is `t`. -/
theorem done_alive {s : State} (h : s.alive = true) (t : State) :
    done s t = .next { State.settle s t with pending := s.pending } := by
  simp [done, h]

/-- A device without power, or held in reset, keeps its state. -/
theorem done_dead {s : State} (h : s.alive = false) (t : State) : done s t = .next s := by
  simp [done, h]

theorem done_next (s t : State) : ∃ u, done s t = .next u ∧ u.pending = s.pending := ⟨_, rfl, rfl⟩

theorem donePin_next (s t : State) : ∃ u, donePin s t = .next u ∧ u.pending = s.pending := ⟨_, rfl, rfl⟩

/-- The outcome of a command on a live device: its effect `e`, the queue, and the interrupts that rise. -/
theorem done_raised {s : State} (h : s.alive = true) (e : State) :
    ∃ t, done s e = .next t ∧ Raised { e with pending := s.pending } t := by
  refine ⟨_, done_alive h e, ?_⟩
  obtain ⟨h1, h2, h3, h4⟩ := Raised.settle s e
  refine ⟨?_, h2, h3, h4⟩
  rw [h1]

/-- The same for an effect that leaves the queue alone. -/
theorem done_effect {s e : State} (h : s.alive = true) (hq : e.pending = s.pending) : ∃ t, done s e = .next t ∧ Raised e t := by
  obtain ⟨t, h1, h2⟩ := done_raised h e
  rw [← hq] at h2
  exact ⟨t, h1, h2⟩

/-- A command whose arm ends in `done` completes on a live device with the effect that it names. -/
theorem completes_of_done {c : Instr} {s e : State} (h : s.alive = true) (hc : exec c s = done s e) : Completes c s e := by
  unfold Completes
  rw [hc]
  exact done_raised h e

end Sys2Proof.Machine
end

