-- ==== Sys2Proof/Laws/Commands.lean ====
section
/-!
SUPPORT. The small operations that many commands share: a write as a requester, held requests that go on, messages an Arbiter
sends itself, and self-tests that wait.
-/

namespace Sys2Proof.Machine

open Sys2Proof

/-- Who may write a register is admitted. -/
theorem State.admitted_of_mayWrite {s : State} {r : Req} {pn off : Nat} {rwo : Bool} (h : s.mayWrite r pn off rwo = true) :
    s.admitted r = true := by
  cases ha : s.admitted r
  · simp [State.mayWrite, ha] at h
  · rfl

/-- A write that R61 to R63 allow takes effect. -/
theorem State.asWrite_allowed {s : State} {r : Req} {pn off : Nat} {rwo : Bool} (f : State → State) (hp : s.present pn = true)
    (h : s.mayWrite r pn off rwo = true) : s.asWrite r pn off rwo f = f s := by
  simp [State.asWrite, State.admitted_of_mayWrite h, hp, h]

/-- One that they do not is counted against its requester (R64). -/
theorem State.asWrite_denied {s : State} {r : Req} {pn off : Nat} {rwo : Bool} (f : State → State) (hp : s.present pn = true)
    (ha : s.admitted r = true) (h : s.mayWrite r pn off rwo = false) :
    s.asWrite r pn off rwo f = s.countIgnored (s.reqPart r) (pn * 4096 + off) := by
  simp [State.asWrite, ha, hp, h]

/-- One to a page that the variant does not fit does nothing. -/
theorem State.asWrite_absent {s : State} {r : Req} {pn off : Nat} {rwo : Bool} (f : State → State) (ha : s.admitted r = true)
    (hp : s.present pn = false) : s.asWrite r pn off rwo f = s := by
  simp [State.asWrite, ha, hp]

/-- A remote device that the peer list does not admit is denied before all else, and counted (R61, R428). -/
theorem State.asWrite_unadmitted {s : State} {r : Req} (pn off : Nat) (rwo : Bool) (f : State → State)
    (ha : s.admitted r = false) : s.asWrite r pn off rwo f = s.countUnadmitted r := by
  simp [State.asWrite, ha]

/-- With no request held for a newer epoch, none goes on. -/
theorem State.releaseEpochs_nil {s : State} (h : s.fab.epochHeld = []) : s.releaseEpochs = s := by
  unfold State.releaseEpochs
  simp only [h, List.filter_nil, List.foldl_nil]
  rw [← h]

theorem State.readMail_nil {s : State} (h : s.rcv.mail = []) : ∀ n, State.readMail n s = s
  | 0 => rfl
  | n + 1 => by simp [State.readMail, h]

/-- What the Arbiter does that leaves it no mail of its own. -/
theorem State.arbiterActs_quiet {s : State} {f : State → State} (h : s.arbiterRuns = true) (hm : (f s).rcv.mail = []) :
    s.arbiterActs f = f s := by
  simp [State.arbiterActs, State.byArbiter, h, State.readMail_nil hm]

theorem State.nextTest_none {s : State} (h : s.arb.tests = []) : s.nextTest = s := by
  unfold State.nextTest
  rw [h]
  split
  · rfl
  · rfl

theorem State.nextTest_busy {s : State} {t : SelfTest} (h : s.arb.test = some t) : s.nextTest = s := by
  simp [State.nextTest, h]

end Sys2Proof.Machine
end

