-- ==== Sys2Proof/Tests/Slice0.lean ====
section
/-!
SUPPORT. Small checks of the model: an ill-formed operand for each check of `Instr.wf`, the state after reset, single commands
against the spec's words, and, for the statements of Obligations.lean that have hypotheses, states and operands that meet them
(`witness_…`).
-/

set_option maxRecDepth 20000
set_option Elab.async false

namespace Sys2Proof.Tests

open Sys2Proof Sys2Proof.Machine

/-! ### States to test on -/

/-- A device that has started up (R571) with nothing granted, enabled or at work. -/
def ready : State := { State.reset with sys := { State.reset.sys with devState := .ready, bootStep := 10 } }

/-- A page that runs. -/
def runs : Page := ⟨.running, true, false, false, false, false, 0⟩

/-- `ready` with the pages listed running. -/
def running (pns : List Nat) : State := pns.foldl (fun s pn => s.setPage pn runs) ready

/-- `s` with one admitted command. -/
def State.withJob (s : State) (j : Job) : State := { s with sch := { s.sch with jobs := [j], nextJob := j.id + 1 } }

/-- A running command of partition 0, for target `t`. -/
def job (t : Nat) (body : List DWord) : Job :=
  { id := 1, part := 0, ctx := 0, origin := .ring 0, target := t, square := 0, unit := 0, tc := 0, body := body, signal := none,
    promise := 100, beats := 10, fs := 0, ff := 0, phase := .running, fell := false, prog := [] }

/-- The host's physical function, which reads and writes for partition 0. -/
def host : Req := .host 0

/-- A packet of a type, from device 2 to device 0, of partition 0, with a payload. -/
def pkt (type : Byte) (arg : Word) (payload : List Byte) : Packet :=
  { type := type, part := 0, det := false, dst := 0, src := 2, stream := 0, addr := 0, len := BitVec.ofNat 12 payload.length,
    epoch := 0, tag := 0, hops := 0, code := 0, remain := 0, arg := arg, payload := payload }

/-! ### What no command may carry -/

def sound : Training := ⟨0xF, 0xF, 0xF, 0, [0, 1, 2, 3], 2, 0, true, true, false⟩

def flit : Flit := ⟨0, true, 0, true, 0, 0, 0, 0, false, []⟩

theorem test_wf_packet_length : Packet.wf { pkt 1 0 [0] with len := 2 } = false
    ∧ Packet.wf (pkt 1 0 (List.replicate 2049 0)) = false ∧ Packet.wf (pkt 2 0 []) = false
    ∧ Packet.wf { pkt 2 0 [] with len := 2048 } = true ∧ Packet.wf (pkt 1 0 [0, 1]) = true := by decide

theorem test_wf_packet_type :
    [Instr.write (pkt 2 0 []), .read (pkt 1 0 []), .data (pkt 1 0 []), .ack (pkt 1 0 []), .nack (pkt 1 0 []), .signal (pkt 1 0 []),
      .command (pkt 1 0 []), .join (pkt 1 0 []), .offer (pkt 1 0 []), .up (pkt 1 0 []), .down (pkt 1 0 []), .peer (pkt 1 0 []),
      .abort (pkt 1 0 []), .interrupt (pkt 1 0 []), .packetRoute { pkt 1 0 [] with len := 1 }].any Instr.wf = false
    ∧ [Instr.write (pkt 1 0 []), .data (pkt 3 0 []), .ack (pkt 4 0 []), .nack (pkt 5 0 []), .signal (pkt 6 0 []),
      .command (pkt 7 0 []), .join (pkt 8 0 []), .interrupt (pkt 9 0 []), .packetRoute (pkt 1 0 [])].all Instr.wf = true := by
  decide

theorem test_wf_management :
    [Instr.heartbeat (pkt 10 2 (List.replicate 87 0)), .heartbeat (pkt 10 3 (List.replicate 88 0)),
      .heartbeat { pkt 10 2 (List.replicate 88 0) with part := 1 }, .epoch (pkt 10 3 []), .take (pkt 10 4 []),
      .adjourn (pkt 10 5 []), .takeOk (pkt 10 6 (List.replicate 88 1)), .takeRefused (pkt 10 6 (List.replicate 88 0)),
      .digest (pkt 10 6 (List.replicate 88 0)), .late (pkt 10 6 (List.replicate 88 0)), .confirm (pkt 10 6 (List.replicate 88 0)),
      .filled (pkt 10 6 (List.replicate 88 0)), .restored (pkt 10 6 (List.replicate 88 0)), .seal (pkt 10 7 [])].any Instr.wf = false
    ∧ [Instr.heartbeat (pkt 10 2 (List.replicate 88 0)), .takeOk (pkt 10 6 (List.replicate 88 0)),
      .restored (pkt 10 6 (List.replicate 88 6)), .seal (pkt 10 7 (List.replicate 80 0))].all Instr.wf = true := by decide

theorem test_wf_links :
    [Instr.linkBringUp 0 { sound with order := [0, 1, 2] }, .linkRetrain 0 { sound with order := [0, 1, 2, 2] },
      .flitReceived 0 { flit with seq := 4096 }, .flitReceived 0 { flit with ack := 4096 },
      .flitReceived 0 { flit with bytes := List.replicate 1009 0 }, .nak 0 4096].any Instr.wf = false
    ∧ [Instr.linkBringUp 0 sound, .linkRetrain 0 { sound with order := [3, 2, 1, 0] }, .flitReceived 0 { flit with seq := 4095 },
      .nak 0 4095].all Instr.wf = true := by decide

theorem test_wf_numbers :
    [Instr.sensorSample 8 0 none, .thermalComparator 88, .selftest 65, .requestFirmwareData (List.replicate 4097 0),
      .mboxReply (List.replicate 2049 0), .dynamicAddress 128, .bar0Access 0 0 3 none, .bar0Access 0 (2 ^ 30) 4 none,
      .bar2Access 0 0 0 none, .bar2Access 0 (2 ^ 36) 8 none, .bar4Access 0 4096 none, .bar4Access 0 2 none].any Instr.wf = false
    ∧ [Instr.sensorSample 7 0 none, .thermalComparator 87, .selftest 64, .requestFirmwareData [0], .mboxReply [0],
      .dynamicAddress 127, .bar0Access 0 (2 ^ 30 - 4) 4 none, .bar2Access 0 (2 ^ 36 - 8) 8 none,
      .bar4Access 0 4092 none].all Instr.wf = true := by decide

theorem test_no_encodings : decodeTableWord 32 0x12345678 = none ∧ ready.withFetchWord 32 5 = ready := by decide

/-! ### The state after reset -/

theorem test_reset_starts_up : State.reset.sys.devState = .starting ∧ State.reset.sys.bootStep = 0 ∧ State.reset.pending = [] := by
  decide

theorem test_reset_power_cap : State.reset.reg pgPwr R.PWR_CAP = 2600 := by decide

/-! ### Witnesses: the step, registers -/

def dead : State := { ready with sys := { ready.sys with rstN := false } }

theorem witness_DeadDeviceKeepsItsState : dead.alive = false ∧ isPin .auxFault = false := by decide

theorem witness_StepRunsTheFrontCommand : ready.pending = [] := by decide

/-- The state that a command leaves, none where it does not go on. -/
def after (o : Host.Outcome State Fault Refusal) : Option State :=
  match o with
  | .next t => some t
  | _ => none

/-- Whether a command stops the machine by a fault. -/
def faulted (o : Host.Outcome State Fault Refusal) : Bool :=
  match o with
  | .fault _ => true
  | _ => false

theorem witness_EveryStepTakesOneCommand :
    (after (step { ready with pending := [.rstNAsserted, .auxFault] })).map (fun t => (t.pending, t.alive))
      = some ([.auxFault], false)
    ∧ State.queueOk { ready with pending := [.rstNAsserted, .auxFault] } = true := by decide +kernel

theorem witness_OnlyOverVoltageStops : 8000 < 8001 ∧ faulted (exec (.vbusRise 8001) ready) = true
    ∧ (∀ v, 8000 < v →
      Instr.vbusRise 8000 ≠ .vbusRise v ∧ Instr.vbusRise 8000 ≠ .vbusLoss v ∧ Instr.vbusRise 8000 ≠ .inputOv v) := by
  refine ⟨by decide, by decide +kernel, fun v h => ⟨fun e => ?_, by simp, by simp⟩⟩
  cases e
  exact absurd h (by decide)

/-- `VXE_GATE` of square 0. -/
def gateOff : BitVec 24 := BitVec.ofNat 24 (4096 * pgVxe 0 0 + R.VXE_GATE)

theorem witness_RegisterWriteTakesTheWritableBits : ready.alive = true ∧ ready.fab.epochHeld = [] ∧ gateOff.toNat % 4 = 0
    ∧ isHeader (gateOff.toNat % 4096) = false ∧ errSetAt gateOff.toNat = none ∧ plainReg gateOff.toNat = true
    ∧ (regFields (blockAt (gateOff.toNat / 4096)) (gateOff.toNat % 4096)).isSome = true ∧ ready.present (gateOff.toNat / 4096) = true
    ∧ ready.mayWrite host (gateOff.toNat / 4096) (gateOff.toNat % 4096) (regRwo gateOff.toNat) = true := by decide +kernel

/-- A register's DRS offset. -/
def regOff (pn o : Nat) : BitVec 24 := BitVec.ofNat 24 (4096 * pn + o)

/-- A register with a bound, at it and just below it. -/
def atBound (off : BitVec 24) (hi least : Nat) : Bool :=
  boundOf off.toNat = some (hi, least) && ready.present (off.toNat / 4096) && decide (off.toNat % 4 = 0)
    && ready.mayWrite host (off.toNat / 4096) (off.toNat % 4096) (regRwo off.toNat)
    && (regFields (blockAt (off.toNat / 4096)) (off.toNat % 4096)).isSome
    && decide (least ≤ wbits (BitVec.ofNat 32 least) hi 0) && decide (wbits (BitVec.ofNat 32 (least - 1)) hi 0 < least)

theorem witness_RegisterWriteTakesTheWritableBits_bounds :
    atBound (regOff (pgMem 0) R.MEM_SCRUB) 15 1 = true ∧ atBound (regOff pgRte R.RTE_TIMEOUT) 23 10 = true
    ∧ atBound (regOff pgCol R.COL_JOIN_TIMEOUT) 23 1000 = true := by decide +kernel

theorem witness_RegisterWriteTakesTheWritableBits_others :
    [regOff pgScr R.SCR_CURSOR, BitVec.ofNat 24 (errSq 0 + 4), BitVec.ofNat 24 (errSq 0 + 8), regOff pgSch R.SCH_DOORBELL].all (fun o =>
      ready.present (o.toNat / 4096) && decide (o.toNat % 4 = 0)
        && ready.mayWrite host (o.toNat / 4096) (o.toNat % 4096) (regRwo o.toNat)) = true
    ∧ (regOff pgScr R.SCR_CURSOR).toNat % 4096 = R.SCR_CURSOR ∧ (regOff pgScr R.SCR_CURSOR).toNat / 4096 = pgScr
    ∧ reqNo host = some 0
    ∧ errSetAt (errSq 0 + 4) = some (errSq 0) ∧ errSetAt (errSq 0 + 8) = some (errSq 0)
    ∧ writesRegister (.schDoorbell host 5) = some (host, (regOff pgSch R.SCH_DOORBELL).toNat / 4096,
        (regOff pgSch R.SCH_DOORBELL).toNat % 4096, false)
    ∧ writtenValue (.schDoorbell host 5) = some 5 ∧ ready.fab.epochHeld = [] := by decide +kernel

/-- A function of partition 1. -/
def tenant : Req := .host 1

/-- Device 5 on behalf of partition 1, which no peer list admits; and device 0 itself. -/
def stranger : Req := .remote 5 1
def selfReq : Req := .remote 0 0

theorem witness_IgnoredWritesAreCounted :
    ready.admitted tenant = true ∧ ready.admitted stranger = false
    ∧ writesRegister (.schDoorbell stranger 5) = some (stranger, pgSch, R.SCH_DOORBELL, false)
    ∧ writesRegister (.enable tenant (BitVec.ofNat 12 (pgUpd 0)) 1) = some (tenant, (pgUpd 0), hCtrl, false)
    ∧ ready.present (pgUpd 0) = true ∧ ready.mayWrite tenant (pgUpd 0) hCtrl false = false ∧ ready.alive = true
    ∧ ready.fab.epochHeld = [] := by decide +kernel

theorem host_not_remote : ¬ ∃ (d : BitVec 16) (p : Fin 16), host = .remote d p :=
  fun ⟨_, _, h⟩ => Req.noConfusion h

theorem witness_BadAccessIsFlaggedAndReadsZero : ready.alive = true ∧ ready.admitted host = true
    ∧ ¬ (4 = 4 ∧ (2 : BitVec 24).toNat % 4 = 0) ∧ ¬ ((∃ d p, host = .remote d p) ∧ 4 = 8 ∧ (2 : BitVec 24).toNat % 8 = 0)
    ∧ ¬ (8 = 4 ∧ (0 : BitVec 24).toNat % 4 = 0) ∧ ¬ ((∃ d p, host = .remote d p) ∧ 8 = 8 ∧ (0 : BitVec 24).toNat % 8 = 0) :=
  ⟨by decide, by decide, by decide, fun h => host_not_remote h.1, by decide, fun h => host_not_remote h.1⟩

/-- The first intra-group route entry. -/
def routeOff : BitVec 24 := BitVec.ofNat 24 (4096 * pgRte + R.RTE_INTRA)

theorem witness_PairReadsLatchTheHighWord : ready.alive = true ∧ reqNo host = some 0 ∧ routeOff.toNat % 4 = 0
    ∧ pairLow routeOff.toNat = true
    ∧ ready.mayRead host (routeOff.toNat / 4096) (routeOff.toNat % 4096) (regRwo routeOff.toNat) = true
    ∧ (routeOff.toNat + 4) % 4 = 0 ∧ pairLow (routeOff.toNat + 4) = false ∧ pairHigh (routeOff.toNat + 4) = true
    ∧ ready.mayRead host ((routeOff.toNat + 4) / 4096) ((routeOff.toNat + 4) % 4096) (regRwo (routeOff.toNat + 4)) = true := by
  decide +kernel

/-- `ready` with the low word 0 (no link named) held for the host. -/
def lowHeld : State :=
  { ready with drs := { ready.drs with holds := ready.drs.holds.set noLatch 0 (some ⟨routeOff.toNat, 0⟩) } }

theorem witness_PairWritesCommitTogether : ready.alive = true ∧ reqNo host = some 0 ∧ isPairWritable routeOff.toNat = true
    ∧ ready.reqPart host = 0 ∧ lowHeld.drs.holds.get noLatch 0 = some ⟨routeOff.toNat, 0⟩
    ∧ ready.drs.holds.get noLatch 0 = none ∧ lowHeld.routeOk 0 = true ∧ ready.routeOk (0 + 0x1F000000 * 2 ^ 32) = true := by
  decide +kernel

theorem witness_RemotePairAccessIsWhole : ready.alive = true ∧ routeOff.toNat % 8 = 0 ∧ pairLow routeOff.toNat = true
    ∧ isPairWritable routeOff.toNat = true ∧ ready.admitted stranger = false ∧ ready.admitted selfReq = true
    ∧ blockAt (routeOff.toNat / 4096) ≠ .scr ∧ ready.routeOk 0 = true ∧ ready.routeOk 0x40 = false
    ∧ ready.admitted (.remote 0 1) = true ∧ ¬ (2 = 4 ∧ routeOff.toNat % 4 = 0) ∧ ¬ (2 = 8 ∧ routeOff.toNat % 8 = 0)
    ∧ gateOff.toNat % 8 = 0 ∧ isPairWritable gateOff.toNat = false ∧ pairLow gateOff.toNat = false := by decide +kernel

/-! ### Witnesses: pages, fault counting, resets -/

/-- `ready` with one page in another state. -/
def pageIn (pn : Nat) (st : PState) : State := ready.setPage pn { Page.reset with st := st }

/-- `ready` with partition 1 being configured. -/
def configuring : State := ready.setPart 1 { ready.part 1 with st := .configuring }

theorem witness_PageOwnerIsJudgedByTheOldLock :
    let s := configuring
    s.alive = true ∧ s.reqPart host = 0 ∧ (BitVec.ofNat 12 (pgSq 63 0)).toNat = pgSq 63 0
    ∧ Fin.ofNat 16 (wbits 0 3 0) = s.sqOwner 63 ∧ Fin.ofNat 16 (wbits 1 3 0) ≠ s.sqOwner 63
    ∧ (s.page (pgSq 63 0)).lock = false ∧ (∀ x ∈ sqPages 63, (s.page x).st = .off ∨ (s.page x).st = .retired)
    ∧ (s.part 1).st = .configuring ∧ s.sqOwner 63 = 0
    ∧ ¬ ((ready.part 1).st = .configuring ∨ (ready.part 1).st = .active) := by decide +kernel

/-- Square 63 while its reassignment is being zeroed, its SQ page with an enable pending. -/
def zeroing (pend : Bool) : State :=
  ready.setPage (pgSq 63 0) { Page.reset with zeroing := true, enable := pend, pendingEn := pend }

theorem witness_ZeroingDoneClearsZeroing : (zeroing false).alive = true ∧ ((zeroing false).page (pgSq 63 0)).zeroing = true
    ∧ (∀ x ∈ sqPages 63, ((zeroing false).page x).pendingEn = false)
    ∧ (zeroing true).alive = true ∧ ((zeroing true).page (pgSq 63 0)).zeroing = true
    ∧ ((zeroing true).page (pgSq 63 0)).st = .off ∧ ((zeroing true).page (pgSq 63 0)).pendingEn = true := by decide +kernel

theorem witness_EnableMovesThePage :
    let pn := pgVxe 63 1
    (∀ st ∈ [PState.off, .starting, .running, .draining, .faulted, .retired],
      (pageIn pn st).alive = true ∧ (pageIn pn st).sys.devState ≠ .safe
      ∧ blockAt pn ∈ [Block.vxe, .spd, .mesh, .upd, .hbr] ∧ (pageIn pn st).present pn = true
      ∧ (pageIn pn st).mayWrite host pn hCtrl false = true ∧ ((pageIn pn st).page pn).st = st)
    ∧ (running [pgSq 63 0]).enableHeld pn = false ∧ ((running [pgSq 63 0]).page pn).st = .off
    ∧ ready.enableHeld pn = true
    ∧ (∀ v ∈ [1, 3, 0, 2, 1, 3], (BitVec.ofNat 32 v).getLsbD 2 = false) := by decide +kernel

theorem witness_EnableMovesThePage_blocks :
    (pageIn (pgVxe 63 1) .testing).alive = true ∧ ((pageIn (pgVxe 63 1) .testing).page (pgVxe 63 1)).st = .testing
    ∧ alwaysOn (blockAt pgDev) = true ∧ blockAt (pgMch 0 1) = .mch ∧ alwaysOn (blockAt (pgVxe 63 1)) = false
    ∧ ({ ready with sys := { ready.sys with devState := .safe } }).sys.devState = .safe
    ∧ (blockAt (pgMxe 0 0) = .mxe ∧ ((pageIn (pgMxe 0 0) .running).page (pgMxe 0 0)).st = .running)
    ∧ (blockAt (pgPwn 0 3) = .pwn ∧ (pageIn (pgPwn 0 3) .running).pawnOpen ((pageIn (pgPwn 0 3) .running).phys (sqOf (pgPwn 0 3)))
        (pgPwn 0 3 % 16 - 8) = false)
    ∧ (blockAt (pgSq 0 0) = .sq ∧ ∀ x ∈ sqPages (sqOf (pgSq 0 0)), ((pageIn (pgSq 0 0) .running).page x).drain = true)
    ∧ blockAt (pgLnk 63) = .lnk ∧ ready.present (pgLnk 63) = true := by decide +kernel

theorem witness_SoftResetReturnsThePageToReset :
    let pn := pgSft 5
    ∀ st ∈ [PState.off, .faulted, .running], (pageIn pn st).alive = true ∧ (pageIn pn st).sys.devState ≠ .safe
      ∧ blockAt pn ∈ [Block.spd, .mesh, .upd, .sq, .sft, .col, .stx, .mem] ∧ (pageIn pn st).present pn = true
      ∧ (pageIn pn st).mayWrite host pn hCtrl false = true ∧ ((pageIn pn st).page pn).st = st := by decide +kernel

/-- A page that starts up, with ENABLE and DRAIN as given. -/
def starting (pn : Nat) (en : Bool) : State := ready.setPage pn { Page.reset with st := .starting, enable := en }

theorem witness_InitialisedPageRuns :
    let pn := pgMov 0
    ∀ en ∈ [true, false], (starting pn en).alive = true ∧ blockAt pn ∈ [Block.mxe, .vxe, .spd, .upd, .hbr, .mov]
      ∧ (starting pn en).present pn = true ∧ ((starting pn en).page pn).st = .starting ∧ ((starting pn en).page pn).enable = en
      ∧ ((starting pn en).page pn).drain = true ∧ blockAt pn ≠ .mxe := by decide +kernel

/-- Square 0's page STARTING, its monitor at a rate. -/
def monitored (rate : Nat) : State :=
  (starting (pgSq 0 0) true).setReg pgPwr (R.PWR_SQ + 4 * (ready.phys 0)) (BitVec.ofNat 32 (rate * 2 ^ 20))

theorem witness_InitialisedPageRuns_blocks :
    (∀ r ∈ [1519, 1520], (monitored r).alive = true ∧ ((monitored r).page (pgSq 0 0)).st = .starting
      ∧ ((monitored r).page (pgSq 0 0)).enable = true ∧ blockAt (pgSq 0 0) = .sq
      ∧ wbits ((monitored r).reg pgPwr (R.PWR_SQ + 4 * (monitored r).phys (sqOf (pgSq 0 0)))) 31 20 = r)
    ∧ (∀ pn ∈ [pgPwn 0 3, pgSft 0, pgMem 0, pgMesh 0, pgSch, pgStx, pgCol, pgRte], ((starting pn true).page pn).st = .starting
      ∧ ((starting pn true).page pn).enable = true ∧ (starting pn true).present pn = true)
    ∧ ready.mem.held = [] ∧ ready.fab.heldIn = [] ∧ ready.sch.heldOps = [] ∧ ready.col.held = [] ∧ ready.fab.heldOut = []
    ∧ (pgVxe 0 0) ∈ (sqPages (sqOf (pgSq 0 0))).drop 1
    ∧ (let s := (monitored 1520).setPage (pgVxe 0 0) { Page.reset with pendingEn := true }
      (s.page (pgVxe 0 0)).st = .off ∧ (s.page (pgVxe 0 0)).pendingEn = true ∧ (s.page (pgVxe 0 0)).zeroing = false) := by
  decide +kernel

theorem witness_initialised_links : ∀ i, (ready.link i).waiting = [] := fun _ => rfl

theorem witness_DrainedPageLeavesDraining_links :
    (let s := pageIn (pgLnk 5) .draining
    s.alive = true ∧ (s.page (pgLnk 5)).st = .draining ∧ (s.page (pgLnk 5)).drain = true ∧ (s.link 5).replay = [] ∧ (s.link 5).waiting = [])
    ∧ (let s := { pageIn pgHbr .draining with fab := { ready.fab with bars := [⟨0, 0, 4, false⟩] } }
    s.drained pgHbr = false) := by decide +kernel

theorem witness_DrainedPageLeavesDraining :
    let pn := pgUpd 0
    (pageIn pn .draining).alive = true ∧ blockAt pn ≠ .lnk ∧ ((pageIn pn .draining).page pn).st = .draining
    ∧ ((pageIn pn .draining).page pn).drain = true ∧ (pageIn pn .draining).drained pn = true := by decide +kernel

theorem witness_InterruptRegistersWork : ready.alive = true ∧ ready.present pgSch = true
    ∧ ∀ off ∈ [hIntStatus, hIntEnable, hIntForce], ready.mayWrite tenant pgSch off false = true
      ∧ ready.mayWrite host (pgUpd 0) off false = true := by decide +kernel

/-- A tenant whose MASTER is 1 and whose bit 0 of the block summary is set. -/
def summoned : State := (ready.setRegB 0 pgDev R.DEV_INT_CTRL 1).setRegB 0 pgSch hIntStatus 4
  |>.setRegB 0 pgSch hIntEnable 4

theorem witness_RisingSummaryRaisesOneInterrupt : ready.alive = true ∧ goesOn (done ready summoned) = true
    ∧ summoned.master 0 = true ∧ (∃ i, (summoned.summary 0).testBit i = true) ∧ ready.master 0 = false
    ∧ goesOn (done ready ready) = true := by
  refine ⟨by decide +kernel, by decide +kernel, by decide +kernel, ?_, by decide +kernel, by decide +kernel⟩
  exact Nat.exists_testBit_of_ne_zero (by decide +kernel)

theorem witness_FaultWindowAndThreshold :
    let b := errSq 0
    let faulty := ready.setErr b { ready.err b with buckets := [1, 0, 0, 0, 0, 0, 0, 2] }
    ready.alive = true ∧ ready.reqPart host = 0 ∧ ready.errSet? (BitVec.ofNat 24 b).toNat = some b
    ∧ wbits 7 23 0 < 8 ∧ 8 ≤ wbits 8 23 0 ∧ wbits 0 15 0 = 0 ∧ (ready.err b).inWindow < wbits 1 15 0
    ∧ faulty.errSet? (BitVec.ofNat 24 b).toNat = some b ∧ 0 < wbits 3 15 0 ∧ wbits 3 15 0 ≤ (faulty.err b).inWindow
    ∧ (faulty.err b).inWindow < wbits 4 15 0 ∧ (faulty.err b).lasting = false := by decide +kernel

theorem witness_BucketsAndLasting :
    let b := errSq 0
    let s := ready.setErr b { ready.err b with buckets := [0, 0, 0, 0, 0, 0, 0, 2], limit := 3 }
    s.alive = true ∧ s.errSet? (BitVec.ofNat 24 b).toNat = some b ∧ (s.err b).limit ≠ 0 ∧ (s.err b).lasting = false
    ∧ (s.err b).buckets ≠ [] ∧ (s.err b).limit = (s.err b).inWindow + 1 ∧ (s.err b).limit ≤ 65535 := by decide +kernel

theorem witness_DeviceIdNeedsLinksOff : ready.alive = true ∧ ready.reqPart host = 0 ∧ ready.arbiterRuns = true
    ∧ (∀ n, ready.linkFitted n = true → (ready.page (pgLnk n)).st = .off)
    ∧ ¬ (∀ n, (running [pgLnk 0]).linkFitted n = true → ((running [pgLnk 0]).page (pgLnk n)).st = .off) := by
  refine ⟨by decide +kernel, by decide +kernel, by decide +kernel, fun _ _ => rfl, fun h => ?_⟩
  exact absurd (h 0 (by decide +kernel)) (by decide +kernel)

theorem witness_DeviceResetsAct : ready.alive = true ∧ ready.reqPart tenant ≠ 0 ∧ ready.reqPart host = 0
    ∧ wbits (0x12340001 : Word) 31 16 ≠ 0xA5C3
    ∧ (∀ v ∈ [0xA5C30007, 0xA5C30003, 0xA5C30001], wbits (BitVec.ofNat 32 v) 31 16 = 0xA5C3)
    ∧ ready.sys.devState ≠ .safe ∧ (0xA5C30007 : Word).getLsbD 2 = true
    ∧ (0xA5C30003 : Word).getLsbD 2 = false ∧ (0xA5C30003 : Word).getLsbD 1 = true
    ∧ (0xA5C30001 : Word).getLsbD 2 = false ∧ (0xA5C30001 : Word).getLsbD 1 = false ∧ (0xA5C30001 : Word).getLsbD 0 = true := by
  decide +kernel

theorem witness_PerstResetsTheBridgeAlone : ready.alive = true ∧ (ready.page pgHbr).st ≠ .retired := by decide +kernel

/-! ### Witnesses: squares and pawns -/

theorem witness_SquareRegistersAreChecked :
    let pn := pgSpd 0
    let b := R.SPD_SWZ_BASE + 8 * 7
    let c := R.SPD_SWZ_CFG + 8 * 7
    ready.alive = true ∧ ready.mayWrite host pn c false = true ∧ ready.mayWrite host pn b false = true
    ∧ (ready.page pn).st = .off ∧ (0 : Word).getLsbD 31 = false
    ∧ ready.swizzleOk 0 7 (wbits (ready.reg pn b) 9 0) ((0x80040300 : Word) &&& 0x800703FF).toNat = true
    ∧ (ready.reg pn c).getLsbD 31 = false
    ∧ (running [pn]).mayWrite host pn c false = true ∧ (running [pn]).mayWrite host pn b false = true
    ∧ ((running [pn]).page pn).st ≠ .off ∧ ready.reqPart host = 0
    ∧ 4 ≤ wbits 4 4 0 ∧ wbits 20 4 0 ≤ 20 ∧ wbits 3 4 0 < 4 ∧ 20 < wbits 21 4 0 := by decide +kernel

/-- Pawn 0 of square 0, running in machine mode, with an instruction at its PC, `x2` and `x3` holding values and the floating
point state on. -/
def pawnAt (ins : Nat) (x2 x3 : DWord) : State :=
  let s := (running [pgPwn 0 0, pgSq 0 0]).setPawn 0 0
    { Pawn.reset with halted := false, pc := BitVec.ofNat 64 pawnBase, mstatus := 0x6000,
                      mtvec := BitVec.ofNat 64 (pawnBase + 0x100), mepc := BitVec.ofNat 64 pawnBase,
                      x := [0, x2, x3] ++ List.replicate 28 0 }
  (List.range 4).foldl (fun s i => s.setPawnByte 0 i (BitVec.ofNat 8 (ins / 2 ^ (8 * i)))) s

theorem witness_PawnMessagesAndTimer :
    let s := ready.setPawn 0 3 { Pawn.reset with mie := 0x80, mtimecmp := 0 }
    s.alive = true ∧ s.mayWrite host (pgPwn 0 3) R.PWN_MBOX_IN false = true ∧ s.phys 0 = 0
    ∧ (s.pawn 0 3).mtimecmp.toNat ≤ s.now ∧ (s.pawn 0 3).mie.getLsbD 7 = true := by decide +kernel

/-- What a pawn fetches, where it is an instruction. -/
def fetched (s : State) : Option (PIns × Nat × Nat) :=
  match (s.pawnFetch 0 0).1 with
  | .ins i size bits => some (i, size, bits)
  | _ => none

/-- The words are written out from the published encodings (assumption 20). -/
theorem witness_PawnInstructionsRetireOrTrap :
    ∀ x ∈ [(0x003100B3, PIns.op .add false 1 2 3), (0x003100BB, .op .add true 1 2 3), (0xFFF10093, .opImm .add false 1 2 (-1)),
        (0x800000B7, .lui 1 0xFFFFFFFF80000000), (0x00001097, .auipc 1 0x1000), (0x008000EF, .jal 1 8), (0x000100E7, .jalr 1 2 0),
        (0x00310463, .branch 0 2 3 8), (0x00000073, .ecall), (0x30200073, .mret)],
      let s := pawnAt x.1 5 7
      s.alive = true ∧ s.pawnReady 0 0 = true ∧ (s.pawn 0 0).wfi = false ∧ s.interrupt (s.pawn 0 0) = none
      ∧ fetched s = some (x.2, 4, x.1) ∧ (s.pawnFetch 0 0).2 = s ∧ (s.pawn 0 0).mode = .machine := by decide +kernel

theorem test_pawn_results :
    ([0x003100B3, 0x403100B3, 0x003110B3, 0x000100E7, 0x800000B7].map
      (fun n => (after (exec (.pawnInstruction 0 0) (pawnAt n 5 7))).map (fun t => ((t.pawn 0 0).getX 1, (t.pawn 0 0).pc.toNat % 2 ^ 32))))
    = [some (12, 4), some (BitVec.ofInt 64 (-2), 4), some (640, 4), some (BitVec.ofNat 64 (pawnBase + 4), 4),
        some (0xFFFFFFFF80000000, 4)] := by
  decide +kernel

/-- The local address of square 0's scratchpad, as a pawn names it. -/
def ownSpad : Nat := 0x8000 * 2 ^ 48 + spadBase

theorem witness_PawnFloatAndMemoryInstructions :
    (∀ x ∈ [(0x003100D3, PIns.fop .add 1 2 3 0), (0x203100C3, .fused 0 1 2 3 4 0), (0x00012083, .load 2 1 2 0),
        (0x00312023, .store 2 2 3 0)],
      let s := pawnAt x.1 (BitVec.ofNat 64 ownSpad) 7
      s.alive = true ∧ s.pawnReady 0 0 = true ∧ (s.pawn 0 0).wfi = false ∧ s.interrupt (s.pawn 0 0) = none
      ∧ s.pawnTx 0 0 = none ∧ s.running (pgPwn 0 0) = true ∧ fetched s = some (x.2, 4, x.1) ∧ (s.pawnFetch 0 0).2 = s
      ∧ (s.pawn 0 0).fsOn = true ∧ ((s.pawn 0 0).rounding 0).isSome = true)
    ∧ (let s := pawnAt 0x00012083 (BitVec.ofNat 64 ownSpad) 7
      let w := s.pawn 0 0
      (w.getX 2 + 0).toNat / 2 ^ 48 ≠ 0xC000 ∧ (w.getX 2 + 0).toNat % 2 ^ (2 % 4) = 0
      ∧ w.pmpOk w.dataMode .load (w.getX 2 + 0).toNat 4 = true ∧ w.pmpOk w.dataMode .store (w.getX 2 + 0).toNat 4 = true
      ∧ (s.pawnLoad 0 0 (w.getX 2 + 0).toNat 4).1 = .ok 0 ∧ (s.pawnLoad 0 0 (w.getX 2 + 0).toNat 4).2.phys 0 = s.phys 0
      ∧ (s.pawnLoad 0 0 (w.getX 2 + 0).toNat 4).2.pending = s.pending
      ∧ (s.pawnStore 0 0 (w.getX 2 + 0).toNat 4 7).1 = .ok 0 ∧ (s.pawnStore 0 0 (w.getX 2 + 0).toNat 4 7).2.phys 0 = s.phys 0
      ∧ (s.pawnStore 0 0 (w.getX 2 + 0).toNat 4 7).2.pending = s.pending) := by decide +kernel

/-! ### Witnesses: the scheduler -/

/-- Device memory holding words from a local address on. -/
def putWords (s : State) (a : Nat) (ws : List DWord) : State :=
  (ws.flatMap (fun w => leBytes 8 w.toNat)).zipIdx.foldl (fun s x => s.setMemCell (a + x.2) (.known x.1)) s

/-- The stacks, the scheduler and what square 0 needs, running; context 0 active on a ring of 16 slots with one submitted, and
time control 0 with units, a share of the path and tags. -/
def scheduling : State :=
  let s := running ((List.range 8).map pgMem ++ [pgSch, pgSq 0 0, pgMxe 0 0, pgVxe 0 0, pgMov 0, pgSft 0, pgUpd 0, pgCol])
  (s.setCtx 0 { Ctx.reset with st := .active, ringLog2 := 4, tail := 1, budget := 1000000, cqBase := 8192 }).setTc 0
    { Tc.reset with uMe := 8, uVe := 8, uMov := 8, uSft := 8, p := 8, squares := 1, cmdLimit := 1000000, tags := 64 }

/-- A ring slot of two header words and a body. -/
def slot (w0 w1 : DWord) (body : List DWord) : List DWord := w0 :: w1 :: body ++ List.replicate (30 - body.length) 0

/-- `scheduling` with a slot at the head of context 0's ring. -/
def ringed (s : State) (ws : List DWord) : State := putWords s 0 ws

/-- What RING_SLOT_TAKEN reads at the head of context 0's ring. -/
def slotRead (s : State) : Option (List DWord × State) :=
  match s.memRead (s.ctxPart 0) s.devId.toNat ((s.ctx 0).ringBase + 256 * (s.ctx 0).head) 256 with
  | (.ok bs, s1) => some ((chunks 8 bs).map (fun b => BitVec.ofNat 64 (leNat b)), s1)
  | _ => none

/-- A command whose header is empty; a NOP of the scheduler; the same waiting for tally 0 to reach 5; a tile with no room. -/
def emptySlot : List DWord := slot 0 0 []
def nopSlot : List DWord := slot 0x10007 0 [0]
def waitSlot : List DWord := slot 0x210007 0x500000000 [0]
def tileSlot : List DWord := slot 0x10001 0 [0]

theorem witness_RingSlotIsTakenAtTheHead_fault :
    let s := ringed scheduling emptySlot
    s.alive = true ∧ s.ringReady 0 = true
    ∧ (slotRead s).map (fun x => x.2.hdrFault 0 x.1 (Hdr.parse x.1)) = some (some cBadDescriptor) := by decide +kernel

theorem witness_RingSlotIsTakenAtTheHead_wait :
    let s := ringed scheduling waitSlot
    s.alive = true ∧ s.ringReady 0 = true ∧ (slotRead s).map (fun x => (x.2.hdrFault 0 x.1 (Hdr.parse x.1), (Hdr.parse x.1).wait,
        x.2.waitOf 0, tallyReached (x.2.tally (Hdr.parse x.1).waitTally) (word (Hdr.parse x.1).waitValue)))
      = some (none, true, none, false) := by decide +kernel

theorem witness_RingSlotIsTakenAtTheHead_accepted :
    let s := ringed scheduling nopSlot
    s.alive = true ∧ s.ringReady 0 = true ∧ (slotRead s).map (fun x =>
        let c := x.2.slotCmd 0 0 (.ring 0) x.1
        (x.2.hdrFault 0 x.1 (Hdr.parse x.1), (Hdr.parse x.1).wait, (Hdr.parse x.1).target, x.2.mustWait x.2.sch.held c,
          (x.2.admitCmd c x.2.now).1))
      = some (none, false, tSch, false, .accepted) := by decide +kernel

/-- A time control with one unit of matrix engine, whose one entry is taken. -/
def full : State := { scheduling.setTc 0 { scheduling.tc 0 with uMe := 1 } with
  sch := { (scheduling.setTc 0 { scheduling.tc 0 with uMe := 1 }).sch with jobs := [job tMxe []] } }

theorem witness_RingSlotIsTakenAtTheHead_held :
    let s := ringed full tileSlot
    s.alive = true ∧ s.ringReady 0 = true ∧ (slotRead s).map (fun x =>
        let c := x.2.slotCmd 0 0 (.ring 0) x.1
        (x.2.hdrFault 0 x.1 (Hdr.parse x.1), (Hdr.parse x.1).wait, (Hdr.parse x.1).target, x.2.mustWait x.2.sch.held c))
      = some (none, false, tMxe, true) := by decide +kernel

/-- What the memory answers where context 0's ring stands. -/
def ringRead (s : State) : Got (List Byte) := (s.memRead (s.ctxPart 0) s.devId.toNat ((s.ctx 0).ringBase + 256 * (s.ctx 0).head) 256).1

theorem witness_RingSlotIsTakenAtTheHead_memory :
    (let s := scheduling.setMemMark 0 3
    s.alive = true ∧ s.ringReady 0 = true ∧ ringRead s = .fail cDataLost ∧ faults cDataLost = true)
    ∧ (let s := scheduling.setPage (pgMem 0) { Page.reset with st := .draining }
    s.ringReady 0 = true ∧ ringRead s = .wait) := by decide +kernel

/-- Slots that admission ends, and that go to a group. -/
def badSlot : List DWord := slot 0x10007 0 [0xFF]
def groupSlot : List DWord := slot 0x10006 0 [0]

theorem witness_RingSlotIsTakenAtTheHead_ended :
    (let s := ringed scheduling badSlot
    s.ringReady 0 = true ∧ (slotRead s).map (fun x =>
        let c := x.2.slotCmd 0 0 (.ring 0) x.1
        (x.2.hdrFault 0 x.1 (Hdr.parse x.1), (Hdr.parse x.1).wait, (Hdr.parse x.1).target, x.2.mustWait x.2.sch.held c,
          (x.2.admitCmd c x.2.now).1))
      = some (none, false, tSch, false, .ended cBadDescriptor))
    ∧ (let s := ringed scheduling groupSlot
    s.ringReady 0 = true ∧ (slotRead s).map (fun x => (x.2.hdrFault 0 x.1 (Hdr.parse x.1), (Hdr.parse x.1).wait,
        (Hdr.parse x.1).target)) = some (none, false, tCol)) := by decide +kernel

/-- Port 5 of pawn 0, its CMD buffer holding a swap of the segment tables. -/
def ported : State := { scheduling with squares := { scheduling.squares with cmdBuf := scheduling.squares.cmdBuf.set (fun _ => 0) 160 2 } }

/-- The word that submits two words for context 0. -/
def submitWord : Word := 0x20000

/-- `ported` with all of the port's entries taken. -/
def portFull : State := { ported with sch := { ported.sch with
  jobs := (List.range 16).map (fun i => { job tSft [2, 0] with id := i, origin := .port 0 0 5 i }) } }

/-- `ported` with a command of the port held. -/
def portHeld (s : State) : State := s.addHeld { ctx := 0, part := 0, origin := .port 0 0 5 0, words := [2, 0] }

theorem witness_PortCommandsAreAdmittedHeldOrRefused :
    ported.alive = true ∧ ported.running pgSch = true ∧ ported.phys 0 = 0
    ∧ portFull.portFree 0 0 5 = 0 ∧ portFull.alive = true ∧ portFull.running pgSch = true
    ∧ ported.portFree 0 0 5 ≠ 0 ∧ ported.holdsCtx 0 0 = true ∧ (ported.ctx 0).st = .active ∧ (ported.ctx 1).st ≠ .active
    ∧ ported.holdsCtx 0 1 = true ∧ (ready.setPart 1 { ready.part 1 with ctx := ⟨0, 8⟩ }).holdsCtx 0 0 = false
    ∧ (let c := ported.portCmd 0 0 (.port 0 0 5 1) 0 5 [2, 0]
      let s0 := ported.setPawn 0 0 { ported.pawn 0 0 with ports := setNth (ported.pawn 0 0).ports 5 ⟨1, 0, 0⟩ }
      ported.mustWait [] c = false ∧ (s0.admitCmd c ported.now).1 = .accepted
      ∧ ported.mustWait [{ ctx := 0, part := 0, origin := .port 0 0 5 0, words := [2, 0] }] c = true
      ∧ (s0.admitCmd { c with body := [0xFF] } ported.now).1 = .ended cBadDescriptor) := by decide +kernel

theorem witness_PortCommandsAreAdmittedHeldOrRefused_held :
    let h : Held := { ctx := 0, part := 0, origin := .port 0 0 5 0, words := [2, 0] }
    (∀ s ∈ [ported, portFull], (portHeld s).sch.held[0]? = some h ∧ (portHeld s).heldFirst 0 h = true)
    ∧ ((portHeld ported).addHeld h).heldFirst 1 h = false
    ∧ allSquares.find? (fun y => ported.phys y = 0) = some 0
    ∧ (((portHeld ported).dropHeld 0).portGo [] 0 0 0 5 0 [2, 0]).isSome = true
    ∧ (((portHeld portFull).dropHeld 0).portGo [] 0 0 0 5 0 [2, 0]).isSome = false
    ∧ (let s := scheduling.addHeld { h with origin := .ring 0, words := nopSlot }
      s.sch.held[0]? = some { h with origin := .ring 0, words := nopSlot }
      ∧ s.heldFirst 0 { h with origin := .ring 0, words := nopSlot } = true ∧ (s.ctx 0).st = .active ∧ s.running pgSch = true)
    ∧ (let r : Held := { h with origin := .remote 2 0, words := nopSlot, packet := some (pkt 7 0 []) }
      (scheduling.addHeld r).heldFirst 0 r = true ∧ r.packet = some (pkt 7 0 []) ∧ r.origin = .remote 2 0) := by decide +kernel

/-- `scheduling` with one queued command. -/
def queued (t : Nat) (body : List DWord) : State :=
  { scheduling with sch := { scheduling.sch with jobs := [{ job t body with phase := .queued }] } }

theorem witness_EnginesStartTheirNextCommand :
    (∀ x ∈ [(Engine.vxe 0 0, tVxe, pgVxe 0 0), (.mov 0 0, tMov, pgMov 0), (.sft 0, tSft, pgSft 0), (.mxe 0 0, tMxe, pgMxe 0 0)],
      let s := queued x.2.1 []
      s.alive = true ∧ s.serves x.2.2 = true ∧ (s.nextFor (engineNum x.1) (fun _ => true)).map (·.id) = some 1
      ∧ s.engineBusy (engineNum x.1) (fun _ => true) = false)
    ∧ (queued tMov []).engineBusy (engineNum (.mov 0 0)) (fun k => decide (k.movCmd.chan = 0)) = false
    ∧ Job.movCmd { job tMov [] with phase := .queued } = { Job.movCmd { job tMov [] with phase := .queued } with chan := 0 }
    ∧ (((queued tSch []).sch.jobs.filter (fun k => decide (k.target = tSch) && decide (k.phase = .queued))).find?
        (queued tSch []).eligible).map (·.id) = some 1
    ∧ (queued tSch []).serves pgSch = true
    ∧ ((queued tMxe []).mxeEng 0 0).window = [] ∧ ((queued tMxe []).mxeEng 0 0).slots = []
    ∧ Tile.shape (Job.tile { job tMxe [] with phase := .queued }) = 0
    ∧ Tile.batch (Job.tile { job tMxe [] with phase := .queued }) = false
    ∧ gateBit (.vxe 0 0) = some (0, 2) ∧ scheduling.running (pgSq 0 (2 + 1 + b01 (decide ((2 : Nat) = 4)))) = true
    ∧ 0 < scheduling.idleBeats (.vxe 0 0) ∧ scheduling.sch.jobs = [] := by decide +kernel

/-- `scheduling` with one command. -/
def withJob (j : Job) : State := { scheduling with sch := { scheduling.sch with jobs := [j], nextJob := 2 } }

theorem witness_CompletionAdvancesTheTally :
    let j := { job tMov [] with phase := .ended cDone, signal := some (7, none) }
    let k := job tMov []
    (withJob j).alive = true ∧ (withJob j).job? 1 = some j ∧ j.origin = .ring 0 ∧ (withJob j).ctxPart j.ctx = j.part
    ∧ (withJob j).running pgSch = true ∧ (withJob j).rcv.plan = none ∧ j.run = 0
    ∧ (withJob j).sch.jobs.any (fun x => !(((withJob j).runMates j).any (fun m => m.id = x.id)) && x.before j) = false
    ∧ (withJob k).job? 1 = some k ∧ k.signal = none ∧ k.fell = false ∧ k.live = true ∧ k.promise ≠ 0 := by decide +kernel

theorem witness_flag_falls_of_a_ring_command : ∀ x, (job tMov []).origin ≠ .replay x ∧ (job tMov []).origin ≠ .unit x :=
  fun _ => ⟨fun h => Origin.noConfusion h, fun h => Origin.noConfusion h⟩

/-- A vector program behind an earlier one of its engine; a member of a joined run of which another still runs. -/
theorem witness_CompletionAdvancesTheTally_waits :
    let two (a b : Job) : State := { scheduling with sch := { scheduling.sch with jobs := [a, b], nextJob := 3 } }
    let k := { job tVxe [] with id := 2, order := 1 }
    let j := { job tVxe [] with phase := .ended cDone, order := 2 }
    let m := { job tMxe [] with phase := .ended cDone, order := 1, run := 2 }
    (two j k).job? 1 = some j
    ∧ (two j k).sch.jobs.any (fun x => !(((two j k).runMates j).any (fun y => y.id = x.id)) && x.before j) = true
    ∧ ((two m { m with id := 2, phase := .running, order := 2 }).runMates m).any Job.live = true := by decide +kernel

theorem witness_ParityFaultsEndWhatTheyHit :
    scheduling.alive = true ∧ scheduling.vxeJob 0 0 = none ∧ scheduling.sch.jobs = []
    ∧ (let s := (withJob (job tMxe [])).setMxeEng 0 0 { MxeEng.reset with slots := [(0, 1)] }
      let s := s.setErr (errSq 0) { s.err (errSq 0) with limit := 0 }
      (s.mxeEng 0 0).slots = [(0, 1)] ∧ (s.mxeEng 0 0).shape = 0 ∧ (s.mxeEng 0 0).counted = false
      ∧ (0 : Fin 128).val < (s.tileOf 1).m ∧ (0 : Fin 128).val < (s.tileOf 1).n
      ∧ (s.err (errSq 0)).limit = 0 ∧ s.squares.spadMark = emptyMap ∧ (s.job? 1).map (·.live) = some true
      ∧ (s.page (pgSft 0)).st = .running ∧ s.parityHits 0 0 1 0 true = [] ∧ s.countsOnce 0 0 = false)
    ∧ (let s := (withJob (job tVxe [])).setVxeEng 0 0 { VxeEng.reset with job := some 1 }; (s.vxeJob 0 0).map (·.id) = some 1)
    ∧ ((withJob (job tMov [])).sch.jobs.find? (fun j => decide (j.target = tMov) && decide (j.square = (0 : Fin 64).val) && j.isRunning
        && decide (j.movCmd.chan = (0 : Fin 4).val))).map (·.id) = some 1
    ∧ (withJob (job tUpd [])).updJob.map (·.id) = some 1 ∧ scheduling.updJob = none
    ∧ scheduling.nameAt 5 = some 5 ∧ 2 < 3 ∧ ¬ 3 < 3 := by decide +kernel

theorem witness_parity_marks : ∀ w, scheduling.spadMark w = 0 := fun _ => rfl

theorem witness_ContextOperations :
    let s := scheduling
    let tenanted := ready.setPart 1 { ready.part 1 with st := .active, ctx := ⟨8, 1⟩ }
    let stopped := s.setCtx 0 { s.ctx 0 with st := .stopped }
    let idle := s.setCtx 0 { s.ctx 0 with st := .idle }
    s.alive = true ∧ tenanted.alive = true ∧ tenanted.reqPart tenant = 1
    ∧ tenanted.holdsCtx 1 (wbits (tenanted.regB 1 pgSch R.SCH_CTX_SEL) 15 0) = false
    ∧ s.reqPart host = 0 ∧ wbits (s.regB 0 pgSch R.SCH_CTX_SEL) 15 0 = 0 ∧ s.holdsCtx 0 0 = true
    ∧ (stopped.ctx 0).st = .stopped ∧ (idle.ctx 0).st = .idle ∧ (idle.ctx 0).ringLog2 ≤ 12 ∧ (idle.ctx 0).ringBase % 4096 = 0
    ∧ (idle.ctx 0).cqBase % 4096 = 0 ∧ idle.memAllowed 0 (idle.ctx 0).ringBase (256 * (idle.ctx 0).slots) = true
    ∧ idle.memAllowed 0 (idle.ctx 0).cqBase (16 * (idle.ctx 0).slots) = true ∧ idle.holdsTc 0 (idle.ctx 0).tc = true
    ∧ (s.ctx 0).st = .active ∧ s.col.colls = [] ∧ s.sch.jobs = []
    ∧ (5 : Fin 16).val ≤ 5 ∧ 5 < (6 : Fin 16).val := by decide +kernel

theorem witness_SelectorsAndDoorbells :
    let tenanted := ready.setPart 1
      { ready.part 1 with st := .active, ctx := ⟨8, 1⟩, tally := ⟨8, 1⟩, tc := ⟨8, 1⟩, grp := ⟨8, 1⟩ }
    (∀ x ∈ [pgSch * 4096 + R.SCH_CTX_SEL, pgSch * 4096 + R.SCH_TALLY_SEL, pgSch * 4096 + R.SCH_TC_SEL, pgCol * 4096 + R.COL_GRP_SEL],
      (BitVec.ofNat 24 x).toNat = x)
    ∧ tenanted.alive = true ∧ tenanted.reqPart tenant = 1
    ∧ (∀ f ∈ [State.holdsCtx, State.holdsTally, State.holdsTc, State.holdsGrp],
        f tenanted 1 7 = false ∧ f tenanted 1 8 = true ∧ f tenanted 1 9 = false)
    ∧ scheduling.holdsCtx 0 (wbits 0x20000 15 0) = true ∧ scheduling.running pgSch = true ∧ ready.running pgSch = false
    ∧ ready.holdsCtx 0 (wbits 0x20000 15 0) = true ∧ tenanted.holdsCtx 1 (wbits 0x20000 15 0) = false := by decide +kernel

theorem witness_TalliesReleaseTheirWaits :
    let parked := scheduling.setCtx 0 { scheduling.ctx 0 with st := .parked }
    let s := { parked with sch := { parked.sch with waits := [⟨0, 0, 5, none⟩] } }
    let tenanted := ready.setPart 1 { ready.part 1 with st := .active, tally := ⟨8, 1⟩ }
    s.alive = true ∧ s.holdsTally 0 (wbits (s.regB 0 pgSch R.SCH_TALLY_SEL) 13 0) = true ∧ s.running pgSch = true
    ∧ ready.holdsTally 0 (wbits (ready.regB 0 pgSch R.SCH_TALLY_SEL) 13 0) = true ∧ ready.running pgSch = false
    ∧ tenanted.holdsTally 1 (wbits (tenanted.regB 1 pgSch R.SCH_TALLY_SEL) 13 0) = false
    ∧ (s.ctx 0).st = .parked ∧ ((0x80000004 : Word) - 5).toNat < 2 ^ 31 ∧ ¬ ((4 : Word) - 5).toNat < 2 ^ 31
    ∧ ((s.putTally 0 0x80000004).ctx 0).st = .active ∧ ((s.putTally 0 4).ctx 0).st = .parked ∧ s.rcv.plan = none := by decide +kernel

/-- Time control 0's words in the window: U_ME 64, TAGS 8. -/
def windowed (uMe : Nat) : State :=
  (scheduling.setRegB 0 pgSch R.SCH_TC_DATA (BitVec.ofNat 32 uMe)).setRegB 0 pgSch (R.SCH_TC_DATA + 20) 8

def tcOk (s : State) : Bool :=
  let d (i : Nat) : Nat := (s.regB 0 pgSch (R.SCH_TC_DATA + 4 * i)).toNat
  let w (i : Nat) : Nat := d (2 * i) + d (2 * i + 1) * 2 ^ 32
  let tc := Tc.ofWords w
  s.holdsTc 0 (wbits (s.regB 0 pgSch R.SCH_TC_SEL) 11 0) && tcWordsOk w tc
    && allSquares.all (fun q => !tc.hasSquare q || decide (s.sqOwner q = 0))
    && !(s.sch.jobs.any (fun j => decide (j.tc = wbits (s.regB 0 pgSch R.SCH_TC_SEL) 11 0) && !s.joins j.id)) && (s.setTc 0 tc).tcsOk s 0

/-- A group's words in the window: size 1, width 1, VALID as given, its member list at address 64. -/
def grouped (valid : Nat) : State :=
  let s := ((scheduling.setRegB 0 pgCol R.COL_GRP_DATA 1).setRegB 0 pgCol (R.COL_GRP_DATA + 4) (BitVec.ofNat 32 (1 + 8 * valid))).setRegB
    0 pgCol (R.COL_GRP_DATA + 8) 64
  putWords s 64 [0]

theorem witness_CommitsAreAppliedOrIgnored :
    scheduling.alive = true ∧ tcOk (windowed 64) = true ∧ tcOk (windowed 65) = false
    ∧ (∀ v ∈ [0, 1], let s := grouped v
      let e (i : Nat) := (s.regB 0 pgCol (R.COL_GRP_DATA + 8 * i)).toNat + (s.regB 0 pgCol (R.COL_GRP_DATA + 8 * i + 4)).toNat * 2 ^ 32
      s.holdsGrp 0 (wbits (s.regB 0 pgCol R.COL_GRP_SEL) 9 0) = true ∧ s.col.colls = [] ∧ s.sch.jobs = []
      ∧ bitsOf (e 0) 34 32 ≤ 5 ∧ bitsOf (e 0) 14 0 ≠ 0 ∧ bitsOf (e 0) 14 0 ≤ 16384 ∧ bitsOf (e 0) 29 16 < bitsOf (e 0) 14 0
      ∧ bitsOf (e 1) 47 0 % 64 = 0 ∧ bitOf (e 0) 35 = decide (v = 1))
    ∧ (grouped 1).memAllowed 0 64 4 = true
    ∧ (((grouped 1).setMemMark 1 3).readMembers 0 64 1).1 = none
    ∧ ((grouped 1).readMembers 0 64 1).1 = some [(0, 0)] ∧ ((grouped 1).readMembers 0 64 1).2.membersOk 0 0 [(0, 0)] = true
    ∧ bitsOf ((scheduling.regB 0 pgCol R.COL_GRP_DATA).toNat) 14 0 = 0 := by decide +kernel

theorem witness_SegmentCommands :
    (∀ b ∈ [[0#64], [0x701, 0x1000, 4], [0x702], [0x703]], let s := withJob (job tSch b)
      s.alive = true ∧ (s.job? 1).map (·.phase) = some .running ∧ (s.job? 1).map (·.target) = some tSch ∧ schSeg (0#64 :: b) = 0
      ∧ (s.ctx 0).segOpen = false ∧ (s.seg (schSeg b)).isOpen = false ∧ (s.ctx 0).segOpen = false
      ∧ (∀ k ∈ s.sch.jobs, k.origin ≠ .replay 1))
    ∧ schOp [0#64] = 0 ∧ schOp [0x701, 0x1000, 4] = 1 ∧ schOp [0x702] = 2 ∧ schOp [0x703] = 3
    ∧ (let s := (withJob (job tSch [0x702])).setCtx 0 { scheduling.ctx 0 with seg := 7, segOpen := true }
      (s.ctx 0).segOpen = true ∧ (s.ctx 0).seg = schSeg [0x702] ∧ (s.job? 1).isSome = true)
    ∧ (let s := (withJob (job tSch [0x702])).setCtx 0 { scheduling.ctx 0 with seg := 6, segOpen := true }
      (s.ctx 0).segOpen = true ∧ (s.ctx 0).seg ≠ schSeg [0x702])
    ∧ (let s := { withJob (job tSch [0x703]) with sch := { (withJob (job tSch [0x703])).sch with
        jobs := [job tSch [0x703], { job tMov [] with id := 2, origin := .replay 1 }] } }
      (s.job? 1).isSome = true ∧ ∃ k ∈ s.sch.jobs, k.origin = .replay 1) := by decide +kernel

/-! ### Witnesses: matrix engines, vector engines, port 5 -/

/-- One tile running in matrix engine 0: the INT8 product of a row and a column of four, in square 0. -/
def tiling (body : List DWord) : State := (withJob (job tMxe body)).setMxeEng 0 0 { MxeEng.reset with slots := [(0, 1)] }

theorem witness_TileRunsAndEnds :
    let s := tiling []
    s.alive = true ∧ (s.job? 1).map (fun j => (j.target, j.phase)) = some (tMxe, .running) ∧ (s.mxeEng 0 0).shape = 0
    ∧ (s.mxeEng 0 0).slots = [(0, 1)] ∧ (s.mxeEng 0 0).window = []
    ∧ ((s.atMostOneFault 0 false (fun s => s.tileRun 0 0 (Job.tile (job tMxe [])) 0)).2.2.job? 1).map (·.live) = some true
    ∧ (let w (l : List Nat) := (withJob (job tMxe [])).setMxeEng 0 0 { MxeEng.reset with window := l }
      ((w [1]).mxeEng 0 0).window.length = 1 ∧ 2 ≤ ((w [1, 2]).mxeEng 0 0).window.length ∧ ((w []).mxeEng 0 0).window = []) := by
  decide +kernel

/-- Two commands of a packed pass, the later reading nothing that the earlier writes, and one that does. -/
theorem witness_TileRunsAndEnds_packed :
    let s (body : List DWord) : State := { scheduling with sch := { scheduling.sch with
      jobs := [{ job tMxe [0x100, 0, 0, 0, 0] with id := 2 }, job tMxe body], nextJob := 3 } }
    let p (body : List DWord) : State := (s body).setMxeEng 0 0 { MxeEng.reset with shape := 1, slots := [(0, 2), (1, 1)] }
    let far : List DWord := [0x100, 0, 0x1000, 0x1000, 0x2000]
    ((p far).mxeEng 0 0).shape ≠ 0 ∧ (1, 1) ∈ ((p far).mxeEng 0 0).slots ∧ (p far).awaitsDrain 0 0 1 = false
    ∧ (p [0x100, 0, 0, 0, 0]).awaitsDrain 0 0 1 = true
    ∧ (∀ x ∈ ((p far).mxeEng 0 0).slots, ((p far).job? x.2).map (·.live) = some true) := by decide +kernel

/-- A vector program of some instruction words, as its command holds it, at instruction `pc` with its chain started or not. -/
def vecJob (ws : List DWord) (n : Nat) : Job := { job tVxe [BitVec.ofNat 64 (1 + n * 2 ^ 41), 0, 5] with prog := ws }

def vec (ws : List DWord) (n pc : Nat) (chain : Bool) : State :=
  (withJob (vecJob ws n)).setVxeEng 0 0 { VxeEng.reset with job := some 1, pc := pc, chain := if chain then some 0 else none }

theorem witness_VectorProgramsRun :
    (let s := withJob (vecJob [0, 0] 1);
      s.alive = true ∧ (s.job? 1).isSome = true ∧ s.vxeJob 0 0 = none)
    ∧ (let s := vec [0, 0] 1 0 false;
      (s.vxeJob 0 0).map (·.id) = some 1 ∧ (s.vxeEng 0 0).chain = none ∧ ((vecJob [0, 0] 1).vprog.ins 0).op ≠ 1
      ∧ (s.page (pgVxe 0 0)).st ≠ .draining)
    ∧ (∀ n ∈ [0, 2], let op := BitVec.ofNat 64 n; let p := (vecJob [op, 0, 0, 0] 2).vprog;
      (p.ins 0).op = n ∧ 0 + 1 < p.len ∧ ((vec [op, 0, 0, 0] 2 0 true).vxeJob 0 0).isSome = true)
    ∧ (∀ n ∈ [0, 2], let op := BitVec.ofNat 64 n; let p := (vecJob [op, 0] 1).vprog;
      (p.ins 0).op = n ∧ p.len ≤ 0 + 1 ∧ ((vec [op, 0] 1 0 true).vxeJob 0 0).isSome = true
      ∧ ((vec [op, 0] 1 0 true).vxeEng 0 0).openTaps = [] ∧ ((vec [op, 0] 1 0 true).vxeEng 0 0).loops = [])
    ∧ (let p := (vecJob [1, 0x300000001, 0, 0] 2).vprog;
      (p.ins 0).op = 1 ∧ (p.ins 0).count = 3 ∧ bitsOf (p.ins 0).imm 15 0 = 1 ∧ 0 + 1 < p.len)
    ∧ (let p := (vecJob [1, 1, 0, 0, 0, 0] 3).vprog;
      (p.ins 0).op = 1 ∧ (p.ins 0).count = 0 ∧ 0 + 1 + bitsOf (p.ins 0).imm 15 0 < p.len) := by decide +kernel

/-- ADD of an immediate 3 to itself, four times: to tap 0, and to descriptor 0, a row of FP32 at byte 256. -/
def addTap : List DWord := [0xF0FFFEFE00000010, 0x440400000, 0, 0]
def addRow : List DWord := [0x00FFFEFE00000010, 0x440400000, 0x100, 0, 0x800004, 0x800001, 1] ++ List.replicate 11 0

def addOp : VOp := elemOp addPre

theorem witness_VectorInstructionsRun_tap :
    let s := vec addTap 2 0 true
    let p := (vecJob addTap 2).vprog
    let e := s.vxeEng 0 0
    let x := p.ins e.pc
    let n := p.count e.openTaps x
    s.alive = true ∧ (s.vxeNow 0 0 0x10).map (fun y => (y.1, y.2.1, y.2.2)) = some (1, p, e) ∧ e.chain ≠ none ∧ isTapCode x.d = true
    ∧ ∃ a b c act, (s.atMostOneFault 0 false (fun s => s.vxeOperands 0 p e x n)).1 = .inr (a, b, c, act)
      ∧ ((s.atMostOneFault 0 false (fun s => s.vxeOperands 0 p e x n)).2.2.atMostOneFault 0 false
        (addOp ⟨x, n, a, b, c, act, e.seed, 0, e.scan⟩)).1.isSome = true := by
  refine ⟨by decide +kernel, by decide +kernel, by decide +kernel, by decide +kernel, List.replicate 4 (Val.fin false 0xC00000 (-22)),
    List.replicate 4 (Val.fin false 0xC00000 (-22)), [], [true, true, true, true], by decide +kernel, by decide +kernel⟩

theorem witness_VectorInstructionsRun_row :
    let s := vec addRow 1 0 true
    let p := (vecJob addRow 1).vprog
    let e := s.vxeEng 0 0
    let x := p.ins e.pc
    s.alive = true ∧ (s.vxeNow 0 0 0x10).map (fun y => (y.1, y.2.1, y.2.2)) = some (1, p, e) ∧ e.chain ≠ none ∧ x.d < 0x20
    ∧ (p.desc x.d).isSome = true ∧ x.trap = false ∧ e.trap = none ∧ e.loops = [] ∧ p.len = e.pc + 1 ∧ e.taps = emptyMap := by
  decide +kernel

/-- ADD of descriptor 0 to an immediate, and FUNC of an immediate by table 0, each to a tap. -/
def addLoad : List DWord := [0xF0FFFE0000000010, 0x440400000, 0, 0, 0x100, 0, 0x800004, 0x800001, 1] ++ List.replicate 11 0
def funcTap : List DWord := [0xF0FFFFFE00000040, 0x440400000, 0, 0]

theorem witness_VectorInstructionsRun_breaks :
    (let s := (vec addLoad 2 0 true).setSpadMark (scheduling.spadKey 0 264 / 8) 2
    let p := (vecJob addLoad 2).vprog
    let e := s.vxeEng 0 0
    let x := p.ins e.pc
    (match (s.atMostOneFault 0 false (fun s => s.vxeOperands 0 p e x (p.count e.openTaps x))).1 with
      | .inl _ => true
      | _ => false) = true)
    ∧ (let s := (List.range 8).foldl (fun s w => s.setSftMark 0 0 0 w 2) (vec funcTap 2 0 true)
    let p := (vecJob funcTap 2).vprog
    let e := s.vxeEng 0 0
    let x := p.ins e.pc
    x.op = 0x40 ∧ e.chain ≠ none
    ∧ (s.atMostOneFault 0 false (funcOp 0 0 funcPre ⟨x, 4, List.replicate 4 (Val.fin false 0xC00000 (-22)), [], [],
        [true, true, true, true], e.seed, 0, e.scan⟩)).1.isNone = true) := by decide +kernel

/-- The infinity less itself, with TRAP, four times, to descriptor 0 (R34, R217). -/
def subRow : List DWord := [0x00FFFEFE02000011, 0x47F800000, 0x100, 0, 0x800004, 0x800001, 1] ++ List.replicate 11 0

theorem test_vector_trap :
    (after (exec (.vSub 0 0) (vec subRow 1 0 true))).map (fun t => ((t.job? 1).map (·.phase), (t.vxeEng 0 0).job))
      = some (some (.ended cNumericTrap), none) := by decide +kernel

/-- 3 + 3 is 6 (R34, R40). -/
theorem test_vector_add :
    (after (exec (.vAdd 0 0) (vec addTap 2 0 true))).map (fun t => (t.vxeEng 0 0).taps.get (fun _ => none) 0xF0)
      = some (some (List.replicate 4 0x40C00000))
    ∧ (after (exec (.vAdd 0 0) (vec addRow 1 0 true))).map (fun t =>
        ((span 264 4).map (fun i => t.spadCell (t.spadKey 0 i)), t.spadCell (t.spadKey 0 272), (t.job? 1).map (·.phase)))
      = some ([.known 0, .known 0, .known 0xC0, .known 0x40], .known 0, some (.ended cDone)) := by decide +kernel

theorem witness_ConversionKeepsWhatAFormatHolds :
    ((0x7E : Nat) < 2 ^ Fmt.e4m3.width ∧ (Fmt.e4m3.decode 0x7E).isNaN = false ∧ (Fmt.e4m3.decode 0x7E).isInf = false)
    ∧ ((0xFC00 : Nat) < 2 ^ Fmt.fp16.width ∧ (Fmt.fp16.decode 0xFC00).isNaN = false ∧ (Fmt.fp16.decode 0xFC00).isInf = true)
    ∧ ((0xF : Nat) < 2 ^ Fmt.i4.width ∧ (Fmt.i4.decode 0xF).isNaN = false) := by decide +kernel

/-- A command of port 5, running, in square 0. -/
def segs (w0 : DWord) : State := withJob (job tSft [w0, 0])

theorem witness_SegmentTableCommands :
    (∀ n ∈ [0x2001, 2, 3, 4], let s := segs (BitVec.ofNat 64 n);
      s.alive = true ∧ (s.job? 1).map (fun j => (j.live, j.phase, j.target, j.square))
        = some (true, .running, tSft, 0) ∧ sftOp [BitVec.ofNat 64 n, 0] = n % 256 ∧ s.sftTarget 0 = 1 ∧ s.bankHeld 0 1 = 0)
    ∧ (let s := { segs 3 with sch := { (segs 3).sch with jobs := (segs 3).sch.jobs ++ [{ vecJob [0, 0] 1 with id := 2 }] } };
      (s.setVxeEng 0 0 { VxeEng.reset with job := some 2, chain := some 0, bank := some 1 }).bankHeld 0 1 = 1)
    ∧ ((segs 3).sch.jobs.find? (fun j => decide (j.target = tSft) && decide (j.square = 0) && j.isRunning)).map (·.id) = some 1 := by
  decide +kernel

theorem witness_SegmentTableCommands_load :
    let code (s : State) := (s.atMostOneFault 0 false (fun s => s.sftLoadSlot 0 1 (sftSrc [0x2001, 0]) (sftFirst [0x2001, 0]))).1
    (segs 0x2001).sftWritten 0 = 0 ∧ sftCount [0x2001, 0] = 1 ∧ sftCount [0x4001, 0] = 2 ∧ code (segs 0x2001) = cDone
    ∧ code ((segs 0x2001).setSpadMark 0 2) = cDataLost := by decide +kernel

theorem witness_SegmentTableCommands_sync :
    (segs 4).sft.mark = emptyMap
    ∧ ((segs 4).atMostOneFault 0 false (State.sftSyncSlots 0 0 1 (List.range 32))).1 = cDone := by decide +kernel

theorem witness_segment_marks : ∀ n w, (segs 4).sftMark 0 (1 - (segs 4).sftTarget 0) n w = 0 := fun _ _ => rfl

/-! ### Witnesses: movers, the update units, collectives -/

/-- The identity permutation in a mover descriptor. -/
def permBits : Nat := 1 * 2 ^ 27 + 2 * 2 ^ 30 + 3 * 2 ^ 33 + 4 * 2 ^ 36

/-- A mover descriptor of `n` FP32 elements from and to addresses of this device's memory map. -/
def movBody (op n src dst : Nat) : List DWord :=
  [op + permBits, 0, 0, 0x3F800000, n + 2 ^ 23, 1 + 2 ^ 23, 1 + n * 2 ^ 23, 0x8000 * 2 ^ 48 + spadBase + 512, 0x8000 * 2 ^ 48 + src, 0,
    1, 0, 0, 0, 0, 0, 0, 0, 0, 0x8000 * 2 ^ 48 + dst, 0, 1, 0, 0, 0, 0, 0, 0, 0, 0].map (BitVec.ofNat 64)

/-- A mover command running in channel 0 of square 0. -/
def moving (body : List DWord) : State := withJob (job tMov body)

/-- The same with square 0's way into its mesh open. -/
def movingOut (body : List DWord) : State := (moving body).setPage (pgMesh 0) runs

/-- How a part of a mover command went: 0 well, 1 it waits, else 2 more than the code of its failure. -/
def stepCode {α : Type} (r : MStep α) : Nat :=
  match r with
  | .ok _ => 0
  | .wait => 1
  | .fail c _ _ => 2 + c

/-- What the present window of a running mover command comes to. -/
def windowOf (s : State) (j : Job) : MStep (MOut × List Nat × Nat) × Bool × State :=
  s.atMostOneFault 0 false (fun s => s.movWindow j j.movCmd (s.movProgress j))

/-- Whether a command of one window makes and writes it in the one step. -/
def oneStep (s : State) (j : Job) : Bool :=
  match windowOf s j with
  | (.ok (out, seen, saved), _, s1) =>
    let rs := outRuns out.bytes
    let s2 := (s1.countMoved 0 (rs.map (fun r => r.2.length)).sum).bump (pgMov 0) R.MOV_COALESCED saved
    let s3 := (s2.dropTxs j).modMov j (fun ch => { ch with present := seen, writing := true, out := rs })
    (match State.putRuns j rs s3 with
      | (none, [], s4) => decide ((s1.movProgress j).window = 0) && decide ((s4.movProgress j).window = 0)
          && decide (stepCode ((s4.modMov j (fun ch => { ch with out := [] })).writesDone j.id) = 0)
      | _ => false)
  | _ => false

theorem witness_MoverCommandsRun :
    (∀ op ∈ [mCopy, mGather, mScatter, mFill],
      let j := job tMov (movBody op 1 spadBase (spadBase + 256))
      let s := moving j.body
      let c := j.movCmd
      let ch := s.movProgress j
      s.alive = true ∧ s.job? 1 = some j ∧ c.op = op ∧ ch.window = 0 ∧ ch.writing = false ∧ 0 < c.elems ∧ c.elems ≤ winSize
      ∧ c.trap = false ∧ s.atBoundary j = false ∧ oneStep s j = true)
    ∧ (let j := job tMov (movBody mFill 1 spadBase spadBase)
      let s := (moving j.body).setMovChan 0 0 { MovChan.reset with job := some 1, window := 1 }
      j.movCmd.elems ≤ (s.movProgress j).window * winSize)
    ∧ (let j := job tMov (movBody mFill 4097 spadBase spadBase)
      let s := ((moving j.body).setMovChan 0 0 { MovChan.reset with job := some 1, window := 1 }).setPage (pgMov 0)
        { runs with st := .draining, drain := false }
      (s.movProgress j).window * winSize < j.movCmd.elems ∧ s.atBoundary j = true ∧ s.movAborts 0 = true) := by decide +kernel

/-- A COPY from memory that a stack does not serve, or whose word is lost; a GATHER whose index lies past LIMIT; a FILL of an
infinity to INT8 that traps. -/
theorem witness_MoverCommandsRun_stops :
    let j := job tMov (movBody mCopy 1 0 spadBase)
    let g := job tMov (movBody mGather 1 spadBase (spadBase + 256))
    let f := job tMov (((movBody mFill 1 spadBase spadBase).set 0 (BitVec.ofNat 64 (mFill + permBits + 2 ^ 17 + 10 * 2 ^ 49))).set 3
      0x7F800000)
    let s := (moving g.body).setSpadCell (scheduling.spadKey 0 512) (.known 1)
    stepCode (windowOf ((movingOut j.body).setPage (pgMem 0) Page.reset) j).1 = 1
    ∧ stepCode (windowOf ((movingOut j.body).setMemMark 0 3) j).1 = 2 + cDataLost
    ∧ (cDataLost ≠ cIndexRange ∧ cDataLost ≠ cAliasWrite)
    ∧ stepCode (windowOf s g).1 = 2 + cIndexRange
    ∧ f.movCmd.trap = true ∧ (match (windowOf (moving f.body) f).1 with
      | .ok (out, _, _) => decide (out.trap = some 0)
      | _ => false) = true := by decide +kernel

/-- Writes under way: to memory that serves, that does not, that fails; and on another device, answered, unanswered, failed. -/
theorem witness_MoverCommandsRun_writing :
    let j := job tMov (movBody mFill 1 spadBase 0)
    let s (out : List (Nat × List Byte)) : State := (movingOut j.body).setMovChan 0 0
      { MovChan.reset with job := some 1, writing := true, out := out }
    let tx (got : Option (List Byte)) (fail : Option Nat) (t : State) : State :=
      { t with fab := { t.fab with txs := [⟨9, 0, .job 1, true, 2, 0, 4, 0, got, fail⟩] } }
    let one : List (Nat × List Byte) := [(hereDev * 2 ^ 48, [1, 2])]
    (∀ t ∈ [s [], s one], (t.movProgress j).writing = true ∧ (t.movProgress j).window * winSize < j.movCmd.elems
      ∧ t.atBoundary j = false)
    ∧ ((State.putRuns j [] (s [])).1 = none ∧ (State.putRuns j [] (s [])).2.1 = [] ∧ stepCode ((s []).writesDone 1) = 0)
    ∧ (let t := (s one).setPage (pgMem 0) Page.reset; (State.putRuns j one t).1 = none ∧ (State.putRuns j one t).2.1 = one
      ∧ stepCode (t.writesDone 1) = 0)
    ∧ (let t := (s one).setMemMark 0 3; (State.putRuns j one t).1 = some cDataLost)
    ∧ stepCode ((tx none none (s [])).writesDone 1) = 1 ∧ stepCode ((tx (some []) none (s [])).writesDone 1) = 0
    ∧ stepCode ((tx none (some cLinkDown) (s [])).writesDone 1) = 2 + cLinkDown := by decide +kernel

/-- DECRYPT of one chunk of 1,024 bytes with key slot 0, from and to square 0's scratchpad. -/
def decryptBody : List DWord := (movBody mDecrypt 1024 spadBase (spadBase + 4096)).set 6 (BitVec.ofNat 64 (1 + 2 ^ 46))
  |>.set 9 (BitVec.ofNat 64 (0x8000 * 2 ^ 48 + spadBase + 8192))

def keyed : State := { moving decryptBody with pt := { (moving decryptBody).pt with
  keys := (moving decryptBody).pt.keys.set (fun _ => none) 0 (some ⟨0, List.replicate 32 0⟩) } }

theorem witness_MoverCommandsRun_decrypt :
    let j := job tMov decryptBody
    let c := j.movCmd
    let got (s : State) := s.atMostOneFault 0 false (fun s => (s.modMov j (fun ch => { ch with key := some (List.replicate 32 0) })).fetch j
      (c.chunkRuns 0) sideSrc)
    let out : List (Nat × List Byte) := [(hereDev * 2 ^ 48 + localOf c.dst.addr, List.replicate 1024 0)]
    c.op = mDecrypt ∧ (keyed.movProgress j).window = 0 ∧ c.chunks = 1 ∧ (moving decryptBody).chunkKey j c = none
    ∧ keyed.chunkKey j c = some (List.replicate 32 0) ∧ keyed.job? 1 = some j ∧ keyed.atBoundary j = false
    ∧ stepCode (got keyed).1 = 0 ∧ stepCode (got (keyed.setSpadMark 0 2)).1 = 2 + cDataLost
    ∧ out.all ((got keyed).2.2.runReady j) = true
    ∧ (State.putRuns j out ((got keyed).2.2.dropTxs j)).1 = none
    ∧ c.chunks ≤ ((keyed.setMovChan 0 0 { MovChan.reset with job := some 1, window := 1 }).movProgress j).window := by decide +kernel

/-- PLAN of a one-dimensional tensor of four FP32 elements on one device, its specification in square 0's scratchpad at `at_`. -/
def planned (ws : List DWord) : State :=
  let s := moving (movBody mPlan 1 spadBase (spadBase + 4096))
  (ws.flatMap (fun w => leBytes 8 w.toNat)).zipIdx.foldl (fun s x => s.setSpadCell (s.spadKey 0 x.2) (.known x.1)) s

def planSpecWords : List DWord := [0x240, 4 + 0x800000, 1 + 0x800000, 1, 1] ++ List.replicate 11 0 ++ [0]

/-- What PLAN reads first: its specification, and then its device list. -/
def planSpec (s : State) : Option (ShardSpec × State) :=
  let c := (job tMov (movBody mPlan 1 spadBase (spadBase + 4096))).movCmd
  match s.atMostOneFault 0 false (fun s => s.fetch (job tMov (movBody mPlan 1 spadBase (spadBase + 4096))) [(c.src.addr, 128)] sideSrc) with
  | (.ok f, _, s1) =>
    let base := s1.canonAddr c.src.addr
    some (ShardSpec.parse ((List.range 16).map (fun i => BitVec.ofNat 64 (f.code ((base + 8 * i) * 8) 64))), s1)
  | _ => none

theorem witness_MoverCommandsRun_plan :
    (job tMov (movBody mPlan 1 spadBase (spadBase + 4096))).movCmd.op = mPlan
    ∧ (planSpec (planned [])).map (fun x => x.1.accepted) = some false
    ∧ (planSpec (planned planSpecWords)).map (fun x => (x.1.accepted, x.1.devices, x.2.localAllowed 0 (spadBase + 4096) 128))
      = some (true, 1, true)
    ∧ (after (exec (.plan 1) (planned planSpecWords))).map (fun t => (t.job? 1).map (·.phase)) = some (some (.ended cDone)) := by
  decide +kernel

/-- An update running: without blocks, or of HOST_RULE. -/
def updating (host : Bool) : State := withJob { job tUpd [0, 0, 0, 0] with prog := [if host then 8 else 0] }

/-- The same at a stage of its work, of a layer with some words. -/
def updAt (layer : List DWord) (stage : UpdStage) (left : List Nat) : State :=
  (withJob { job tUpd [0, 0, 0, 0] with prog := layer }).setUpd { UpdEng.reset with job := some 1, stage := stage, left := left }

/-- One block of one FP32 element, with a bitmap at 64 or without. -/
def oneBlock (bitmap phi : Nat) : List DWord := [phi, 1, 0, 4096, 8192, 0, bitmap, 0, 0, 0].map (BitVec.ofNat 64)

/-- Which way a block's work or the bitmap went: 0 made, else 1 more than the code. -/
def sumCode {α : Type} (r : Sum Nat α) : Nat :=
  match r with
  | .inl c => c + 1
  | .inr _ => 0

theorem witness_UpdateCommandsRun :
    (let s := updating false;
      s.alive = true ∧ (s.job? 1).map (fun j => (j.target, j.phase, j.layer.host)) = some (tUpd, .running, false)
      ∧ s.updServed (Layer.parse [0]) = true ∧ s.updAborts 0 = false ∧ (s.updProgress 1).stage = .bitmap
      ∧ (s.setPage (pgMem 0) Page.reset).updServed (Layer.parse [0]) = false
      ∧ s.sch.jobs.any (fun j => decide (j.origin = .unit 1) && j.isRunning) = false)
    ∧ (let s := { updating true with sch := { (updating true).sch with
          jobs := [{ job tUpd [0, 0, 0, 0] with prog := [8], phase := .queued }] } };
      (s.nextFor 512 (fun j => j.layer.host && (s.hostJob j.layer.group).isNone)).map (·.id) = some 1 ∧ s.updCoord = some 0)
    ∧ (let s := { updating false with sch := { (updating false).sch with
          jobs := [{ job tUpd [0, 0, 0, 0] with prog := [0], phase := .queued }] } }.setPage (pgUpd 0) runs;
      let s := (List.range 8).foldl (fun s k => s.setPage (pgUpd k) runs) s
      (s.nextFor 512 (fun j => j.layer.host && (s.hostJob j.layer.group).isNone)).isNone = true ∧ s.updJob = none
      ∧ s.updReady = true ∧ (s.nextFor 512 (fun j => !j.layer.host)).map (·.id) = some 1)
    ∧ (updating true).present (pgUpd 0) = true ∧ (updating true).mayWrite host (pgUpd 0) R.UPD_HOST_DONE false = true
    ∧ ((updating true).hostJob (wbits 0 7 0)).map (·.id) = some 1 ∧ ((updating true).hostJob (wbits 1 7 0)).isNone = true := by
  decide +kernel

theorem witness_UpdateCommandsRun_stages :
    (∀ st ∈ [UpdStage.bitmap, .pass1, .combine, .start, .product, .pass2], ∀ l ∈ [[], [0]],
      ((updAt (oneBlock 0 0) st l).updProgress 1).stage = st ∧ ((updAt (oneBlock 0 0) st l).updProgress 1).left = l)
    ∧ (let l := Layer.parse (oneBlock 64 0)
      sumCode ((updAt (oneBlock 64 0) .bitmap []).updPresent 0 l).1 = 0
      ∧ sumCode (((updAt (oneBlock 64 0) .bitmap []).setMemMark 1 3).updPresent 0 l).1 = 1 + cDataLost)
    ∧ (let l := Layer.parse (oneBlock 0 0)
      l.twoPass = false ∧ (Layer.parse (oneBlock 0 2)).twoPass = true
      ∧ sumCode ((updAt (oneBlock 0 0) .pass1 [0]).updBlock1 0 [0, 0, 0, 0] l (updK [0, 0, 0, 0] l) 0).1 = 0
      ∧ sumCode (((updAt (oneBlock 0 0) .pass1 [0]).setMemMark 64 3).updBlock1 0 [0, 0, 0, 0] l (updK [0, 0, 0, 0] l) 0).1 = 1 + cDataLost)
    ∧ (let l := Layer.parse (oneBlock 0 2)
      ((updAt (oneBlock 0 2) .pass2 [0]).updBlock2 0 [0, 0, 0, 0] l (updK [0, 0, 0, 0] l) 0 0 .zero).1 = none
      ∧ (((updAt (oneBlock 0 2) .pass2 [0]).setMemMark 64 3).updBlock2 0 [0, 0, 0, 0] l (updK [0, 0, 0, 0] l) 0 0 .zero).1 = some cDataLost)
    ∧ (let s := (updating false).setPart 0 { ready.part 0 with st := .teardown }; s.updAborts 0 = true)
    ∧ (let s := updating false
      let t : State := { s with sch := { s.sch with jobs := s.sch.jobs ++ [{ job tMxe [] with id := 2, origin := .unit 1 }] } }
      t.sch.jobs.any (fun j => decide (j.origin = .unit 1) && j.isRunning) = true) := by decide +kernel

/-- A collective command of group 0: its opcode, and nothing to move. -/
def colJob (op : Nat) : Job := job tCol ([op, 0, 0, 0, 0, 0, 0].map (BitVec.ofNat 64))

/-- The collective of that command on a group of devices 0 (rank 0) and 2. -/
def coll (phase : ColPhase) (moving : Bool) : Coll :=
  { job := 1, part := 0, grp := 0, seq := 0, startAt := 0, phase := phase, joined := [], sentUp := false, complete := false, g := 0,
    bound := 0, beats := 0, d := none, busy := none, busyMem := none, busyLink := none, budget := 1000, offers := [], nodes := [],
    early := [], moving := moving, owed := 0, record := [], lost := false }

def collective (op : Nat) (phase : ColPhase) (moving : Bool) : State :=
  ({ withJob (colJob op) with col := { (withJob (colJob op)).col with colls := [coll phase moving] } }).setGrp 0
    { Grp.reset with size := 2, valid := true, seq := 1, ids := [(0, 0), (2, 0)] }

theorem witness_CollectivesMoveTheirData :
    (∀ op ∈ [cAllGather, cReduceScatter, cAllReduce, cBroadcast, cReduce, cAllToAll, cAllToAllv, cBarrier],
      ∀ m ∈ [true, false], let s := collective op .accepted m
      s.alive = true ∧ s.coll? 1 = some (coll .accepted m) ∧ s.job? 1 = some (colJob op) ∧ (colJob op).phase = .running
      ∧ s.colServes = true ∧ (ColCmd.parse (colJob op).body).op = op ∧ (coll .accepted m).moving = m
      ∧ (ColCmd.parse (colJob op).body).bytes ((ColCmd.parse (colJob op).body).srcElems (s.grp 0)) = 0)
    ∧ (∀ op ∈ [cAllGather, cBarrier],
      (match (collective op .accepted false).colWriteCounts (coll .accepted false) (ColCmd.parse (colJob op).body) with
        | (.ok (), _) => true
        | _ => false) = true)
    ∧ (coll .accepted false).early = [] ∧ (coll .joining false).phase = .joining ∧ (coll .joining false).complete = false := by
  decide +kernel

/-- A collective that reads a source: 32 FP32 elements at byte 0 of device memory; served, not served, and lost. -/
theorem witness_CollectivesMoveTheirData_source :
    let read (s : State) := (s.localRead 0 none 0 0 128).1
    (match read (collective cAllGather .accepted false) with
      | .ok _ => true
      | _ => false) = true
    ∧ read ((collective cAllGather .accepted false).setPage (pgMem 0) Page.reset) = .wait
    ∧ read ((collective cAllGather .accepted false).setMemMark 0 3) = .fail cDataLost := by decide +kernel

/-- STOP of a context whose collective joins. -/
theorem witness_ContextOperations_joining :
    let s := collective cAllGather .joining false
    (s.ctx 0).st = .active
    ∧ (s.colls.filter (fun co => decide (co.phase ≠ .accepted) && (s.job? co.job).any (fun j => j.ctx = 0))).map (·.job) = [1] := by
  decide +kernel

/-- A collective packet of a kind, for SEQ `seq` of group 0. -/
def colPkt (kind seq : Nat) (src : BitVec 16) : Packet :=
  { pkt ptCollective (BitVec.ofNat 32 (seq * 2 ^ 10)) (colPrefix kind 0 0 0 ++ [0]) with src := src }

theorem witness_CollectivePacketsAreTaken :
    ∀ x ∈ [(kJoin, 0), (kOffer, 0), (kUp, 0), (kDown, 0), (kPeer, 0), (kAbort, 0)],
      let s := (collective cAllGather .joining false).setReg pgDev R.DEV_ID 0x80000000
      let p := colPkt x.1 0 0
      let mine (s : State) (p : Packet) := s.colls.find? (fun c => c.part = p.part && c.grp = colGroup p && c.seq = colSeq p)
      s.alive = true ∧ p.type = ptCollective ∧ (s.verdict p).1 = .ok ∧ colKind p = x.1 ∧ s.colServes = true
      ∧ (mine s p).isSome = true ∧ (s.grp 0).rankOf p.src = some 0 ∧ colLevel p ≠ joinedLevel
      ∧ (mine s (colPkt x.1 1 0)).isNone = true ∧ s.colFuture (colPkt x.1 1 0) = true
      ∧ (mine s (colPkt x.1 (2 ^ 22 - 1) 0)).isNone = true ∧ s.colFuture (colPkt x.1 (2 ^ 22 - 1) 0) = false
      ∧ (s.verdict (colPkt x.1 (2 ^ 22 - 1) 0)).1 = .ok
      ∧ (let t := s.setPart 0 { s.part 0 with peers := [(5, 5)] }
        (t.verdict (colPkt x.1 0 5)).1 = .ok ∧ (mine t (colPkt x.1 0 5)).isSome = true ∧ (t.grp 0).rankOf 5 = none)
      ∧ ready.colServes = false := by decide +kernel

/-! ### Witnesses: memory controllers, spares, power and the safe state -/

/-- `scheduling` with scratchpad word 0 of square 0 marked with a single-bit error. -/
def marked : State := scheduling.setSpadMark 0 1

theorem witness_MemoryControllersWork_scrub :
    (scheduling.alive = true ∧ scheduling.nameAt 0 = some 0 ∧ scheduling.nameAt 71 = none
      ∧ (scheduling.reg (pgSpd 0) R.SPD_SCRUB).getLsbD 0 = true ∧ scheduling.squares.spadMark = emptyMap
      ∧ ((scheduling.setReg (pgSpd 0) R.SPD_SCRUB 0).reg (pgSpd 0) R.SPD_SCRUB).getLsbD 0 = false)
    ∧ (let ws := span ((0 * spadSize + 0 % 768 * 32768 + 0 / 768 * 512) / 8) 64
      0 ∈ ws ∧ marked.spadMark 0 = 1 ∧ ∀ v ∈ ws, v ≠ 0 → marked.spadMark v ≠ 1)
    ∧ (scheduling.stackFitted 0 = true ∧ scheduling.pstate (pgMem 0) ≠ .off ∧ (scheduling.reg (pgMem 0) R.MEM_SCRUB).getLsbD 16 = true
      ∧ scheduling.mem.cutOff = [] ∧ (scheduling.chan 0 0).st = .serving
      ∧ ((scheduling.setChan 0 0 ⟨.copySource, 0⟩).chan 0 0).st ≠ .serving
      ∧ scheduling.scrubHits 0 0 0 = [] ∧ (scheduling.setMemMark 0 1).scrubHits 0 0 0 = [0])
    ∧ ready.pstate (pgMem 0) = .off ∧ (95 < 96 ∧ ¬ 95 < 95)
    ∧ wbits (scheduling.reg (pgMem 0) R.MEM_REFRESH) 31 24 ≤ 95 := by decide +kernel

theorem witness_MemoryControllersWork_access :
    let s := putWords scheduling 0 [0x1122334455667788]
    (ready.alive = true ∧ (ready.setPart 1 (ready.part 1)).memAllowed 1 0 8 = false)
    ∧ ready.memAllowed 0 0 8 = true ∧ ready.memReady 0 0 8 = false ∧ (ready.setPart 1 (ready.part 1)).memSlots 1 = 0
    ∧ s.memAllowed 0 0 8 = true ∧ s.memReady 0 0 8 = true
    ∧ (match s.memReadRaw 0 8 with
      | (.ok bs, _) => decide (bs = [0x88, 0x77, 0x66, 0x55, 0x44, 0x33, 0x22, 0x11])
      | _ => false) = true
    ∧ (match s.memWriteRaw 0 ([1, 2].map Cell.known) with
      | (.ok (), _) => true
      | _ => false) = true
    ∧ (match (s.setMemMark 0 3).memReadRaw 0 8, (s.setMemMark 0 3).memWriteRaw 0 ([1, 2].map Cell.known) with
      | (.fail _, _), (.fail _, _) => true
      | _, _ => false) = true := by decide +kernel

theorem witness_MemoryControllersWork_spares :
    let s := scheduling.setSpare 0 7 ⟨1, 5, 5, 0⟩
    (scheduling.spare 0 7).phase ≠ 1 ∧ (s.spare 0 7).phase = 1 ∧ (s.spare 0 7).source ≠ 128 + 7 ∧ s.pstate (pgMem 0) ≠ .off
    ∧ (∀ k ∈ s.sys.variant.stacks, s.pstate (pgMem k) ≠ .off) ∧ (∃ k ∈ ready.sys.variant.stacks, ready.pstate (pgMem k) = .off)
    ∧ (let t := { scheduling with mem := { scheduling.mem with cutOff := [(3, 1)] } }
      t.mem.cutOff = [(3, 1)] ∧ (3 : Nat) ≠ (0 : Fin 512).val ∧ (3 : Nat) = (3 : Fin 512).val) := by decide +kernel

/-- `ready` with its eight spares free, or none, and a self-test under way or none. -/
def sparing (free : Word) (test : Option SelfTest) : State :=
  let s := ready.setReg pgDev R.DEV_SPARES free
  { s with arb := { s.arb with test := test } }

theorem witness_SparesAndSelfTests :
    (∀ f ∈ [0, 255], let s := { sparing (BitVec.ofNat 32 f) none with squares := { ready.squares with promotions := [5] } }
      s.alive = true ∧ s.squares.promotions = [5] ∧ s.arbiterRuns = true ∧ s.sys.devState = .ready ∧ s.arb.test = none
      ∧ s.arb.tests = [] ∧ (s.page (pgSq 5 0)).st ≠ .retired ∧ s.lowSpare = (if f = 0 then none else some 0))
    ∧ (let s := { sparing 255 none with arb := { ready.arb with retries := [(5, 0)] } }
      s.arb.retries.find? (fun r => r.1 = 5) = some (5, 0)
      ∧ (({ s with arb := { s.arb with retries := s.arb.retries.erase (5, 0) } }).reach 0).arbiterRuns = true)
    ∧ ready.arb.period = 0
    ∧ (∀ ph ∈ [TestPhase.copyOut, .testing, .copyBack], let s := sparing 254 (some ⟨5, 5, 64, ph, 0, false⟩)
      s.arb.test = some ⟨5, 5, 64, ph, 0, false⟩ ∧ s.arb.tests = [] ∧ s.squareIdle 5 = true ∧ s.spareAt 64 = some 0
      ∧ s.squares.retiredPhys.get (fun _ => false) 5 = false)
    ∧ (∀ k ∈ List.finRange 4, (sparing 254 none).pawnOpen ((sparing 254 none).phys 5) k = false)
    ∧ ({ sparing 254 (some ⟨0, 0, 64, .copyOut, 0, false⟩) with sch := scheduling.sch } |>.setJobs [job tMxe []]).squareIdle 0 = false
    ∧ ¬ 64 < 64 ∧ 64 < 65 := by
  decide +kernel

/-- Two squares wait for a test, the first of them RETIRED, and a third asks: with a spare free, with none, and with a test under way. -/
theorem witness_SparesAndSelfTests_queue :
    let s (free : Word) (x : Option SelfTest) : State :=
      { (sparing free x).setPage (pgSq 4 0) { Page.reset with st := .retired } with arb := { (sparing free x).arb with tests := [4, 5] } }
    let able (q : Fin 64) : Bool := decide (((s 255 none).page (pgSq q.val 0)).st ≠ .retired)
    (s 255 none).arb.tests ++ [6] = [4] ++ 5 :: [6] ∧ [4].any able = false ∧ able 5 = true
    ∧ (s 255 none).lowSpare = some 0 ∧ (s 0 none).lowSpare = none
    ∧ (s 255 (some ⟨7, 7, 65, .copyOut, 0, false⟩)).arb.test = some ⟨7, 7, 65, .copyOut, 0, false⟩
    ∧ { ready.arb with period := 5 }.period ≠ 0 := by decide +kernel

/-- A rail at its floor and just above it, a rate just below the guard, and one at a step above what is wanted. -/
theorem witness_PowerPolicyAndScoresheet_beats :
    (running [pgSq 5 0]).alive = true ∧ 0 < 1498 ∧ 1498 < 1499 ∧ ready.maxRail 5 = 850 ∧ ready.rail 5 ≤ 850
    ∧ (ready.setRail 5 850).maxRail 5 < (ready.setRail 5 850).rail 5 + 5 ∧ 555 ≤ (ready.setRail 5 555).rail 5
    ∧ ¬ 555 ≤ (ready.setRail 5 554).rail 5 ∧ max 1520 ready.effTarget + 30 ≤ 2300 ∧ 2300 < 2301
    ∧ (allSquares.find? (fun q => ready.phys q = 71)).isNone = true := by decide +kernel

/-- Start-up at a step. -/
def booting (n : Nat) : State := { State.reset with sys := { State.reset.sys with bootStep := n } }

/-- The findings of a start-up step. -/
def findings (ok central : Bool) (bases : List (Fin 8)) : StepResult := ⟨ok, central, [], [], bases, []⟩

theorem witness_PowerAndStartUp_input :
    (3599 < 3600 ∧ 3600 ≤ 3600 ∧ 3900 ≤ 3900 ∧ 6200 ≤ 6200 ∧ 6200 < 6201 ∧ 8000 ≤ 8000) ∧ ready.sys.powered = true ∧ ready.alive = true
    ∧ ready.sys.devState ≠ .safe ∧ { ready.sys with powered := false }.powered = false ∧ dead.sys.rstN = false ∧ dead.sys.vbus ≤ 6000
    ∧ (let s := { dead with sys := { dead.sys with vbus := 6001 } }; s.sys.rstN = false ∧ 6000 < s.sys.vbus ∧ s.sys.powered = true) := by
  decide +kernel

theorem witness_PowerAndStartUp_steps :
    (∀ n ∈ List.range 10, (booting n).alive = true ∧ (booting n).sys.devState ≠ .safe ∧ (booting n).sys.bootStep = n
      ∧ (booting n).sys.refclk = true ∧ (booting n).sys.auxOn = true ∧ (booting n).sys.warm = false ∧ (booting n).mem.held = []
      ∧ (booting n).fab.heldIn = [] ∧ (booting n).squares.retiredPhys = emptyMap)
    ∧ ready.sys.bootStep = 10 ∧ (booting 5).stackFitted 0 = true ∧ stackOk (findings true true [0]) 0 = false
    ∧ stackOk (findings true true []) 0 = true ∧ (booting 7).linksSettled = false
    ∧ (let s := (List.range 64).foldl (fun s n => s.setLink n { Link.reset with waived := true }) (booting 7);
      s.linksSettled = true) ∧ 2 ≤ (booting 2).sys.bootStep ∧ (booting 1).sys.bootStep < 2
    ∧ (∀ l ∈ [1, 2], { ready.rot with lifecycle := l }.lifecycle = l) ∧ ¬ ((booting 2).rot.lifecycle = 3) := by
  decide +kernel

/-- A unit under test, and one whose enable waits for it; a count that no image reaches. -/
theorem witness_PowerAndStartUp_tests :
    (let s := booting 5
    pgSq 3 0 < 4096 ∧ testedBlock s.sys.warm (blockAt (pgSq 3 0)) = true ∧ s.present (pgSq 3 0) = true
    ∧ (s.page (pgSq 3 0)).st ≠ .retired
    ∧ ((s.setPage (pgSq 3 0) { Page.reset with st := .testing, pendingEn := true }).page (pgSq 3 0)).st = .testing)
    ∧ (booting 1).rot.rollback = 0 ∧ ∀ n : Nat, n % 65 < 65 := by
  refine ⟨by decide +kernel, by decide +kernel, fun n => Nat.mod_lt n (by decide)⟩

theorem witness_ProtectionsLeadToTheSafeState :
    ready.alive = true ∧ (booting 3).alive = true ∧ (booting 3).sys.bootStep = 3
    ∧ (let s := { booting 3 with sys := { (booting 3).sys with auxOn := false, auxRetry := true } }
      s.alive = true ∧ s.sys.auxOn = false ∧ 1 ≤ s.sys.bootStep ∧ s.sys.bootStep < 4 ∧ s.sys.auxRetry = true)
    ∧ ready.sys.localSense = false ∧ { ready.sys with localSense := true }.localSense = true
    ∧ ready.nameAt 5 = some 5 ∧ (ready.page (pgSq 5 0)).st ≠ .retired ∧ ready.nameAt 71 = none ∧ ready.spareAt 71 = some 7 := by
  decide +kernel

theorem witness_PowerPolicyAndScoresheet_cap :
    ready.alive = true ∧ ready.mayWrite host pgPwr R.PWR_CAP_REQ false = true ∧ ready.arbiterRuns = true
    ∧ 640 * wbits 1 11 0 < ready.reserved64 ∧ ready.reserved64 ≤ 640 * wbits 4095 11 0 ∧ ready.sys.variant.maxWatt < wbits 4095 11 0
    ∧ ready.cap = 2600 ∧ ready.reserved64 ≤ 640 * 2600 ∧ 2600 ≤ ready.sys.variant.maxWatt ∧ ready.reserved64 ≤ 640 * 2599 ∧ ready.cap ≠ 2599
    ∧ ready.mayWrite host pgPwr R.PWR_POLICY false = true ∧ wbits 1519 11 0 < 1520 ∧ 2300 < wbits 2301 11 0 ∧ wbits 1520 11 0 = 1520
    ∧ wbits 2300 11 0 = 2300 ∧ 10 * ready.cap < 26001 ∧ 1520 < ready.effTarget
    ∧ (ready.setReg pgPwr R.PWR_TARGET_EFF 1520).effTarget ≤ 1520 ∧ 26000 ≤ 10 * ready.cap ∧ 980 * ready.cap ≤ 25480 * 100
    ∧ 25479 * 100 < 980 * ready.cap := by decide +kernel

theorem witness_PowerPolicyAndScoresheet_arbiter :
    (allSquares.find? (fun q => (running [pgSq 5 0]).phys q = 5) = some 5 ∧ (running [pgSq 5 0]).pstate (pgSq 5 0) = .running)
    ∧ ready.readings.all (fun r => decide (r.2 < tripAt r.1)) = true ∧ ready.readings.all (fun r => decide (r.2 ≤ warnAt r.1 - 5)) = true
    ∧ (let s := ready.sampleDiode 0 (some 110); s.readings.all (fun r => decide (r.2 ≤ warnAt r.1 - 5)) = false)
    ∧ ready.mayWrite host pgScr R.SCR_CLEAR true = true
    ∧ (let s := { ready with score := { ready.score with buffer := [⟨1, 2, 0, 5, 0⟩], clears := [(1, 0)] } };
      (∀ c ∈ s.score.clears, c.1 ≠ 3) ∧ (∀ e ∈ s.score.buffer, e.part ≠ 3) ∧ (3 : Fin 16) ≠ 0
      ∧ (∃ c ∈ s.score.clears, c.1 = (1 : Fin 16)) ∧ ∀ e ∈ s.score.buffer, e.part ≠ 1) := by decide +kernel

/-! ### Witnesses: the Arbiter's interfaces, links, packets and the host bridge -/

/-- `ready` with the update in a phase. -/
def updPhaseAt (n : Nat) : State := ready.setPhase n 0

/-- The active bridge with its port up and two virtual functions. -/
def bridging : State :=
  let s := running [pgHbr, pgRte]
  { s with sys := { s.sys with bridgeEn := true }, fab := { s.fab with active := true, pcieUp := true, numVfs := 2 } }

theorem witness_ArbiterMessagesAndUpdate :
    ready.alive = true ∧ ready.arbiterRuns = true ∧ ready.mctpReaches tpI3c 0 = false ∧ ready.mctpReaches tpSmbus 0 = true
    ∧ ready.fab.active = false ∧ bridging.fab.active = true ∧ bridging.mctpReaches tpMgmt 0 = true ∧ bridging.mctpReaches tpPcie 0 = true
    ∧ bridging.mctpReaches tpPcie 1 = false
    ∧ (7 : Byte).toNat ≠ wbits (bridging.reg pgArb R.ARB_MCTP) 7 0
    ∧ ready.mayWrite host pgArb R.ARB_MBOX_CTRL false = true
    ∧ (ready.reg pgArb R.ARB_MBOX_CTRL).getLsbD 30 = false
    ∧ ((ready.setReg pgArb R.ARB_MBOX_CTRL 0x40000001).reg pgArb R.ARB_MBOX_CTRL).getLsbD 30 = true
    ∧ wbits 0x80000800 11 0 = 2048 ∧ wbits 0x80000801 11 0 = 2049 ∧ wbits 0x80000000 11 0 = 0
    ∧ (0x80000800 : Word).getLsbD 31 = true ∧ (1 : Word).getLsbD 31 = false
    ∧ ready.mayWrite host pgArb R.ARB_UPD_STAGE false = true ∧ ready.updPhase = 0 ∧ wbits 0 8 0 < ready.regions
    ∧ ready.regionHeldBy 0 0 = true ∧ ¬ wbits 511 8 0 < (ready.regions - 1 : Nat)
    ∧ (∀ n ∈ [1, 2, 3, 4, 6], (updPhaseAt n).updPhase = n ∧ (updPhaseAt n).alive = true ∧ (updPhaseAt n).arbiterRuns = true
      ∧ (updPhaseAt n).sys.auxOn = true)
    ∧ ((ready.setReg pgArb R.ARB_UPD_STAGE 0x80000003).reg pgArb R.ARB_UPD_STAGE).getLsbD 31 = true := by decide +kernel

/-- The recovery ROM at work, its update in a phase (R525). -/
def recovering (n : Nat) : State :=
  { updPhaseAt n with sys := { (updPhaseAt n).sys with devState := .safe, safeCause := BitVec.ofNat 8 scVerify, bootStep := 1 } }

theorem witness_ArbiterMessagesAndUpdate_recovery :
    (∀ n ∈ [0, 1, 3, 6], (recovering n).alive = true ∧ (recovering n).recovers = true ∧ (recovering n).updPhase = n
      ∧ (recovering n).sys.auxOn = true ∧ (recovering n).arbiterRuns = false)
    ∧ tpMgmt ≠ tpPcie ∧ (5 : Byte) ≠ 0 ∧ (7 : Byte) ≠ 0 ∧ (7 : Byte) ≠ 1 ∧ (7 : Byte) ≠ 5 ∧ (7 : Byte) ≠ 6 := by decide +kernel

/-- A device that has its ID, 0. -/
def named (s : State) : State := s.setReg pgDev R.DEV_ID 0x80000000

/-- Link 0 up, on `named ready`, with one flit waiting to be acknowledged, resent `tries` times, and some lanes out. -/
def linked (tries : Nat) (out : List Nat) : State :=
  let s := (named (running [pgLnk 0, pgRte])).setLink 0
    { Link.reset with st := .up, keyed := true, laneOk := 15, peerDev := 2, replay := [⟨1, 0, [0], tries, pkt 4 0 []⟩] }
  { s with fab := { s.fab with lanesOut := out.foldl (fun f k => f.set (fun _ => false) k true) s.fab.lanesOut } }

theorem witness_LinksTrainAndCarryFlits_training :
    let s := pageIn (pgLnk 0) .starting
    s.alive = true ∧ s.linkFitted 0 = true ∧ (s.page (pgLnk 0)).st = .starting
    ∧ popCount 4 (s.lanesOf 0 1).toNat < 2 ∧ 2 ≤ popCount 4 (s.lanesOf 0 3).toNat ∧ s.devIdValid = false
    ∧ popCount 4 (s.lanesOf 0 3 &&& 1).toNat < 2 ∧ 2 ≤ popCount 4 (s.lanesOf 0 3 &&& 3).toNat
    ∧ popCount 4 (s.lanesOf 0 3 &&& 3 &&& 2).toNat < 2 ∧ 2 ≤ popCount 4 (s.lanesOf 0 3 &&& 3 &&& 3).toNat
    ∧ (named s).devIdValid = true ∧ (named s).rot.lifecycle ≠ 3 ∧ (s.link 0).st ≠ .up ∧ (named s).peerPasses sound = true
    ∧ ready.peerPasses { sound with chain := false } = false ∧ ready.peerPasses { sound with opened := true } = false
    ∧ { ready.rot with lifecycle := 3 }.lifecycle = 3
    ∧ (ready.page (pgLnk 0)).st ≠ .starting := by decide +kernel

theorem witness_LinksTrainAndCarryFlits_retrain :
    (∀ out ∈ [[0, 1, 2], [0, 1]], let s := linked 0 out
      s.alive = true ∧ s.linkFitted 0 = true ∧ (s.link 0).st = .up
      ∧ (∃ k < 4, (s.link 0).laneOk.getLsbD k = true ∧ s.laneRetired 0 k = true))
    ∧ popCount 4 ((linked 0 [0, 1, 2]).lanesOf 0 (((linked 0 [0, 1, 2]).link 0).laneOk &&& 15)).toNat < 2
    ∧ 2 ≤ popCount 4 ((linked 0 [0, 1]).lanesOf 0 (((linked 0 [0, 1]).link 0).laneOk &&& 15)).toNat
    ∧ (¬ ∃ k < 4, ((linked 8 []).link 0).laneOk.getLsbD k = true ∧ (linked 8 []).laneRetired 0 k = true)
    ∧ (∃ f ∈ ((linked 8 []).link 0).replay, 8 ≤ f.tries) ∧ (∀ f ∈ ((linked 7 []).link 0).replay, f.tries < 8)
    ∧ ((linked 7 []).page (pgLnk 0)).st ≠ .starting := by decide +kernel

theorem witness_LinksTrainAndCarryFlits_flits :
    let l := (linked 0 []).link 0
    (linked 0 []).alive = true ∧ l.st = .up ∧ ready.alive = true ∧ (ready.link 0).st ≠ .up
    ∧ ((l.lastAcc + 1) % 4096 = 0 ∧ flit.decoded = true ∧ flit.tagOk = true ∧ flit.seq = 0 ∧ flit.key = l.rxPhase ∧ flit.ftype ≠ 1)
    ∧ { flit with seq := 1 }.seq ≠ (l.lastAcc + 1) % 4096 ∧ { flit with ftype := 1 }.ftype = 1 := by decide +kernel

/-- `named ready` with a route to device 2 over link 0, and device 2 a peer of partition 0. -/
def routed : State :=
  let s := (linked 0 []).setReg pgRte (R.RTE_INTRA + 8 * 2) 0x40 |>.setReg pgRte (R.RTE_INTRA + 8 * 2 + 4) 0x1E000000
  s.setPart 0 { s.part 0 with peers := [(2, 2)] }

theorem witness_PacketsReachTheirEnds_routing :
    let p := { pkt 1 0 [0] with dst := 2 }
    routed.alive = true ∧ (pkt 0 0 []).type.toNat = 0 ∧ 0x0B ≤ (pkt 0x0B 0 []).type.toNat
    ∧ (∀ t ∈ List.range 10, (pkt (BitVec.ofNat 8 t) 0 []).dst = routed.devId)
    ∧ (0 < p.type.toNat ∧ p.type.toNat < 0x0B ∧ p.dst ≠ routed.devId ∧ (named ready).running pgRte = false ∧ p.dst ≠ (named ready).devId)
    ∧ (routed.running pgRte = true ∧ p.hops ≠ 15 ∧ routed.chooseLink p (routed.routeEntry p.dst) = some 0)
    ∧ (let p := { p with dst := 3 }; routed.chooseLink p (routed.routeEntry p.dst) = none)
    ∧ { p with hops := 15 }.hops = 15 ∧ isAnswer p = false ∧ isAnswer (pkt 4 0 []) = true ∧ p.src ≠ routed.devId
    ∧ { p with src := routed.devId }.src = routed.devId := by decide +kernel

/-- A WRITE and a READ of square 0's scratchpad, and of the DEV page's interrupt enable, from device 2. -/
def write0 : Packet := { pkt ptWrite 0 [1, 2] with addr := BitVec.ofNat 48 spadBase }
def read0 : Packet := { pkt ptRead 0 [] with len := 2, addr := BitVec.ofNat 48 spadBase }
def writeDrs : Packet := { pkt ptWrite 0 [1, 0, 0, 0] with addr := BitVec.ofNat 48 (drsBase + 4096 * pgUpd 0 + hIntEnable) }
def readDrs : Packet := { pkt ptRead 0 [] with len := 4, addr := BitVec.ofNat 48 (drsBase + 4096 * pgUpd 0 + hIntEnable) }

/-- `routed` with square 0's mesh running, as any access to its scratchpad needs. -/
def served : State := routed.setPage (pgMesh 0) runs

/-- The answer of a local access. -/
def gotCode {α : Type} (g : Got α) : Nat :=
  match g with
  | .ok _ => 0
  | .fail _ => 1
  | .wait => 2

theorem witness_PacketsReachTheirEnds_requests :
    (∀ p ∈ [write0, read0, writeDrs, readDrs], served.alive = true ∧ p.dst = served.devId ∧ served.staleEpoch p = false
      ∧ served.newerEpoch p = false ∧ served.peerOk p.part p.src.toNat = true)
    ∧ write0.type = ptWrite ∧ read0.type = ptRead ∧ (pkt ptCommand 0 []).type = ptCommand
    ∧ (served.setReg pgRte R.RTE_EPOCH 1).staleEpoch write0 = true ∧ served.newerEpoch { write0 with epoch := 1 } = true
    ∧ (served.peerOk 0 3 = false ∧ (3 : BitVec 16) ≠ served.devId ∧ served.packetDrs { write0 with src := 3 } = none)
    ∧ served.packetDrs write0 = none ∧ served.packetDrs read0 = none
    ∧ gotCode (served.localRead 0 none 2 read0.addr.toNat 2).1 = 0 ∧ gotCode (served.localWrite 0 none 2 write0.addr.toNat [1, 2]).1 = 0
    ∧ gotCode (routed.localRead 0 none 2 read0.addr.toNat 2).1 = 2 ∧ gotCode (routed.localWrite 0 none 2 write0.addr.toNat [1, 2]).1 = 2
    ∧ gotCode (served.localRead 1 none 2 read0.addr.toNat 2).1 = 1 ∧ gotCode (served.localWrite 1 none 2 write0.addr.toNat [1, 2]).1 = 1
    ∧ served.packetDrs writeDrs = some (4096 * pgUpd 0 + hIntEnable) ∧ served.packetDrs readDrs = some (4096 * pgUpd 0 + hIntEnable)
    ∧ goodAccess (served.linkReq readDrs) (4096 * pgUpd 0 + hIntEnable) 4 = true
    ∧ goodAccess (served.linkReq readDrs) (4096 * pgUpd 0 + hIntEnable) 2 = false
    ∧ (4096 * pgUpd 0 + hIntEnable) % 4 = 0 := by decide +kernel

/-- A transaction under tag 9 of an owner. -/
def owed (o : TxOwner) (wr : Bool) : State :=
  { routed with fab := { routed.fab with txs := [⟨9, 0, o, wr, 2, 0, 4, 0, none, none⟩] } }

theorem witness_PacketsReachTheirEnds_answers :
    (∀ wr ∈ [true, false], (owed (.pawn 0 0) wr).openTx 9 = some ⟨9, 0, .pawn 0 0, wr, 2, 0, 4, 0, none, none⟩
      ∧ (owed (.pawn 0 0) wr).alive = true)
    ∧ TxOwner.pawn 0 0 ≠ .island ∧ ({ pkt ptData 0 [1] with tag := 9 }).tag.toNat = 9 ∧ (pkt ptAck 0 []).addr ≠ intAddr
    ∧ (let s := { owed (.job 1) false with sch := (withJob (job tMxe [])).sch };
      (s.openTx 9).map (·.owner) = some (.job 1) ∧ ((s.failTx 9 cLinkDown).job? 1).map (fun j => (j.live, j.target)) = some (true, tMxe))
    ∧ (let p := { pkt ptAck 0 [] with addr := intAddr }; p.addr = intAddr ∧ p.arg.toNat = routed.fab.intSent.get (fun _ => 0) 0 % 2 ^ 32)
    ∧ (pkt ptInterrupt 1 []).type = ptInterrupt ∧ routed.fab.active = false ∧ bridging.fab.active = true
    ∧ ((named bridging).answer ptAck (pkt ptInterrupt 1 []) 0 []).fab.intSeen.get (fun _ => 0) 2 ≠ (pkt ptInterrupt 1 []).arg.toNat
    ∧ ((named bridging).answer ptAck (pkt ptInterrupt 0 []) 0 []).fab.intSeen.get (fun _ => 0) 2 = (pkt ptInterrupt 0 []).arg.toNat
    ∧ (let s := { ready with fab := { ready.fab with intWait := [3] } }; (3 : Fin 16) ∈ s.fab.intWait ∧ (4 : Fin 16) ∉ s.fab.intWait)
    ∧ (routed.openTx 9).isNone = true
    ∧ (let s := { ready with fab := { ready.fab with epochHeld := [⟨write0, 0⟩] } }; s.fab.epochHeld[0]? = some ⟨write0, 0⟩) := by
  decide +kernel

theorem witness_PacketsReachTheirEnds_signals :
    let s := served.setPage pgStx runs
    let t := served.setPage pgStx Page.reset
    t.running pgStx = false ∧ s.running pgStx = true ∧ (pkt ptSignal 0 []).dst = s.devId ∧ (pkt ptSignal 0 []).src ≠ s.devId
    ∧ (s.setPage pgSch runs).alive = true ∧ (s.signalArrives (pkt ptSignal 0 [])).1 = .ok
    ∧ (s.setReg pgRte R.RTE_EPOCH 1).staleEpoch (pkt ptSignal 0 []) = true ∧ s.staleEpoch (pkt ptSignal 0 []) = false
    ∧ s.newerEpoch { pkt ptSignal 0 [] with epoch := 1 } = true ∧ s.newerEpoch (pkt ptSignal 0 []) = false
    ∧ s.peerOk 0 3 = false ∧ s.peerOk 0 2 = true ∧ s.holdsTally 0 0 = true
    ∧ (let u := s.setPart 1 { s.part 1 with st := .active, tally := ⟨0, 8⟩ }; u.holdsTally 0 0 = false ∧ u.peerOk 0 2 = true) := by
  decide +kernel

/-- The answers of an island's transaction and of a mover's; a request of another device's host to the DRS; 8 bytes of the DRS. -/
theorem witness_PacketsReachTheirEnds_owners :
    (∀ wr ∈ [true, false], ((owed .island wr).openTx 9).map (·.owner) = some .island)
    ∧ (let s := { owed (.job 1) true with sch := (withJob (job tMov [])).sch }
      ((s.failTx 9 cLinkDown).job? 1).map (fun j => (j.live, j.target)) = some (true, tMov))
    ∧ (let p := { writeDrs with len := 8, payload := List.replicate 8 0 }
      served.packetDrs p = some (4096 * pgUpd 0 + hIntEnable) ∧ goodAccess (served.linkReq p) (4096 * pgRte + R.RTE_INTRA) 8 = true)
    ∧ isHostReq (served.linkReq writeDrs) = false ∧ ready.fab.epochHeld[0]? = none
    ∧ (∀ id, TxOwner.island ≠ .job id) := by
  refine ⟨by decide +kernel, by decide +kernel, by decide +kernel, by decide +kernel, by decide +kernel, fun _ h => TxOwner.noConfusion h⟩

theorem witness_RoutingAndTheHostBridge :
    (ready.alive = true ∧ isPairWritable routeOff.toNat = true ∧ ready.mayWrite host pgRte (routeOff.toNat % 4096) true = true
      ∧ routeCandidates (0x40 + 0x200000000000000) = [0] ∧ ready.linkFitted 0 = true ∧ 0 < routeMaxHops (0x40 + 0x200000000000000)
      ∧ routeMaxHops 0x40 = 0 ∧ routeCandidates 0x40 ≠ [])
    ∧ (ready.mayWrite host pgRte (R.RTE_EPOCH + 4 * 255) true = true ∧ (ready.epochOf 255).toNat ≤ (0 : Word).toNat
      ∧ (0 : Word).toNat < ((ready.setReg pgRte (R.RTE_EPOCH + 4 * 255) 1).epochOf 255).toNat)
    ∧ (ready.mayWrite host pgHbr (R.HBR_WIN + 4 * 15) false = true ∧ wbits 0xFFFF 15 0 = 0xFFFF ∧ wbits 0xFFFE 15 0 ≠ 0xFFFF)
    ∧ (ready.mayWrite host pgHbr R.HBR_ROLE true = true ∧ (8 : Word).getLsbD 3 = true ∧ (0 : Word).getLsbD 3 = false
      ∧ { ready.sys with bridgeStandby := true }.bridgeEn = false ∧ ready.fab.active = false ∧ ready.fab.pcieUp = false
      ∧ { ready.fab with pcieUp := true }.pcieUp = true ∧ ready.sys.bridgeEn = false ∧ ready.sys.bridgeStandby = false
      ∧ bridging.sys.bridgeEn = true)
    ∧ (bridging.fab.pcieUp = true ∧ bridging.fab.numVfs < (3 : Fin 16).val ∧ ¬ bridging.fab.numVfs < (2 : Fin 16).val
      ∧ bridging.fab.active = true ∧ (bridging.regB 2 pgHbr R.HBR_WIN_EN).getLsbD 0 = false
      ∧ ((bridging.setRegB 2 pgHbr R.HBR_WIN_EN 0x8000).regB 2 pgHbr R.HBR_WIN_EN).getLsbD 15 = true
      ∧ (let m := ({ bridging.msixAt 2 127 with pend := true }).write 3 0; m.pend = true ∧ m.masked = false)
      ∧ ((bridging.msixAt 2 127).write 3 0).pend = false) := by decide +kernel

/-! ### Witnesses: the root of trust and recovery -/

/-- A request for partition 0's or a tenant's bank. -/
def rotReq (bank : Option (Fin 16)) (op : Nat) (p : Fin 16) (started : Bool) : RotReq := ⟨bank, op, p, 0, [], [], started⟩

/-- Whether a request is served at once. -/
def atOnce (s : State) (q : RotReq) : Bool :=
  match s.rotBegin q with
  | (some _, _) => true
  | (none, _) => false

/-- Partition 1 in a state, with square 63 and a mesh slot where it is being configured. -/
def partIn (st : PartState) : State :=
  let s := ready.setPart 1 { ready.part 1 with st := st, mesh := 1 }
  { s with squares := { s.squares with owner := s.squares.owner.set (fun _ => 0) 63 1 } }

theorem witness_RootOfTrustServesRequests :
    rotRequest (.ptCreate host 1) = some (host, none, 1, 1) ∧ ready.alive = true ∧ ready.mayWrite host pgRot R.ROT_REQ_OP false = true
    ∧ (ready.regB 0 pgRot R.ROT_REQ_STATUS).getLsbD 31 = false
    ∧ ((ready.setRegB 0 pgRot R.ROT_REQ_STATUS 0x80000000).regB 0 pgRot R.ROT_REQ_STATUS).getLsbD 31 = true
    ∧ (let s := { ready with rot := { ready.rot with queue := [rotReq none 7 1 true] } };
      s.rot.queue = [rotReq none 7 1 true] ∧ (rotReq none 7 1 true).started = true)
    ∧ ready.rot.queue = [] ∧ atOnce ready (rotReq none 1 1 false) = true ∧ atOnce (partIn .active) (rotReq none 7 1 false) = false
    ∧ (ready.part 1).st = .free ∧ ready.rot.lifecycle ≠ 0 ∧ ready.rot.debugOpen = false
    ∧ { ready.rot with debugOpen := true }.debugOpen = true ∧ ((partIn .configuring).part 1).st = .configuring
    ∧ (partIn .configuring).squaresOf 1 ≠ [] ∧ (partIn .configuring).meshSlots 1 ≠ 0
    ∧ ((partIn .active).part 1).st = .active ∧ ((partIn .active).part 1).st ≠ .configuring
    ∧ rotRequest (.ephCreate tenant 0) = some (tenant, some 0, 1, 0)
    ∧ (partIn .active).mayWrite tenant pgRotT R.ROT_T_OP false = true ∧ (partIn .active).holdsKey 1 0 = false
    ∧ ((partIn .teardown).part 1).st = .teardown ∧ (partIn .teardown).mayWrite tenant pgRotT R.ROT_T_OP false = true := by decide +kernel

theorem witness_RootOfTrustServesRequests_states :
    ready.hasIdentity = true ∧ ({ ready with rot := { ready.rot with lifecycle := 0 } }).hasIdentity = false
    ∧ (let s := (partIn .active).setPart 1 { (partIn .active).part 1 with key := ⟨0, 1⟩ }
      s.holdsKey 1 0 = true ∧ (s.part 1).st ≠ .teardown ∧ (s.eph? 1 0).isNone = true)
    ∧ ({ partIn .configuring with squares := ready.squares }).squaresOf 1 = []
    ∧ ((partIn .configuring).setPart 1 { (partIn .configuring).part 1 with mesh := 0 }).meshSlots 1 = 0 := by decide +kernel

theorem witness_RootOfTrustServesRequests_done :
    let s := { ready with rot := { ready.rot with queue := [rotReq none 4 1 true] } }
    let t := { s with mem := { s.mem with cutOff := [(0, 1)] } }
    s.alive = true ∧ s.rot.queue = [rotReq none 4 1 true] ∧ (rotReq none 4 1 true).started = true
    ∧ (s.rotFinish (rotReq none 4 1 true)).isSome = true ∧ (t.rotFinish (rotReq none 4 1 true)).isSome = false
    ∧ ready.rot.queue = [] := by decide +kernel

theorem witness_SpdmRequestsAreAnswered : ready.alive = true ∧ spdmRequest (.getVersion [0x10]) = some (0x84, [0x10])
    ∧ spdmRequest (.endSession []) = some (0xEC, []) ∧ ready.rot.akeyReady = false
    ∧ { ready.rot with akeyReady := true }.akeyReady = true := by decide +kernel

/-- A group of devices 0 (this one) and 2, with partition 0 adjourning: STEP tally 1, GO tally 2, one range of a page. -/
def adjPlan : AdjPlan := ⟨0, 1, 2, 0, 0x40000000, 0, 1, [(0, 4096)]⟩
def plan0 : Plan :=
  { captain := 0, deputy := 2, hbUs := 1000, replaceOnShort := false, windowDays := 1, rowSize := 1, takeStage := 0x10000000,
    members := [⟨0, 0, 0⟩, ⟨2, 1, 1⟩], standbys := [⟨3, 0, 0⟩], adjs := [adjPlan], digest := [] }

/-- This device in that group, in a role, its group in a state. -/
def inGroup (role : Role) (g : GState) : State :=
  let s := named scheduling
  { s with rcv := { s.rcv with plan := some plan0, role := role, captain := if role = .captain then 0 else 2
                               deputy := 2, live := 3, gstate := g } }

/-- A management packet from device `src`. -/
def mg (kind : Nat) (src : BitVec 16) (bs : List Byte) : Packet := { pkt ptMgmt (BitVec.ofNat 32 kind) bs with src := src }

/-- What `State.isMgmt` asks, as a test. -/
def mgmtFor (s : State) (q : Packet) (kind : Nat) (rep : Option Nat) : Bool :=
  decide (q.type = ptMgmt) && decide (q.dst = s.devId) && decide (q.arg.toNat % 256 = kind)
  && (match rep with
    | some n => decide (payNum q 0 1 = n)
    | none => true)

theorem mgmtFor_spec (s : State) (q : Packet) (kind : Nat) (rep : Option Nat) (h : mgmtFor s q kind rep = true) :
    s.isMgmt q kind rep := by
  simp only [mgmtFor, Bool.and_eq_true, decide_eq_true_eq] at h
  refine ⟨h.1.1.1, h.1.1.2, h.1.2, fun n e => ?_⟩
  subst e
  simpa using h.2

/-- The words of a plan of devices 0 and 2, without adjourning partitions. -/
def planImage : List DWord :=
  ([2 * 2 ^ 16 + 1000 * 2 ^ 32 + 2 * 2 ^ 49, 2 ^ 24 + 2 ^ 32, 0, 0, 0, 2] ++ List.replicate 222 0).map (BitVec.ofNat 64)

/-- The device with that image at address 0. -/
def planBytes : List Byte := planImage.flatMap (fun w => leBytes 8 w.toNat)
def planLoaded : State := { named scheduling with mem := { scheduling.mem with
  cells := ⟨(planBytes.zipIdx 0).map (fun x => (x.2, Cell.known x.1))⟩ } }

theorem cellsFind_zipIdx (bs : List Byte) (o i : Nat) (h : i < bs.length) :
    cellsFind ((bs.zipIdx o).map (fun x => (x.2, Cell.known x.1))) (o + i) = some (.known bs[i]) := by
  induction bs generalizing o i with
  | nil => simp at h
  | cons b t ih =>
    cases i with
    | zero => simp [cellsFind]
    | succ i =>
      have e : o + (i + 1) = o + 1 + i := by omega
      have hn : o ≠ o + 1 + i := by omega
      simpa [cellsFind, e, hn] using ih (o + 1) i (by simpa using h)

theorem memByte_planLoaded (i : Nat) (h : i < planBytes.length) : planLoaded.memByte i = planBytes[i] := by
  have e := cellsFind_zipIdx planBytes 0 i h
  rw [Nat.zero_add] at e
  simp only [State.memByte, planLoaded, FMap.get, e, Option.getD_some]

theorem planBytes_length : planBytes.length = 8 * planWords := by
  have h : ∀ l : List DWord, (l.flatMap (fun w => leBytes 8 w.toNat)).length = 8 * l.length := by
    intro l
    induction l with
    | nil => rfl
    | cons w l ih =>
      rw [List.flatMap_cons, List.length_append, ih, List.length_cons]
      simp only [leBytes, List.length_cons, List.length_nil]
      omega
  rw [planBytes, h]
  rfl

theorem bump64_keeps (t : State) (pn off n : Nat) : (t.bump64 pn off n).mem = t.mem ∧ (t.bump64 pn off n).sys = t.sys := by
  unfold State.bump64
  constructor <;> simp only [State.setReg_mem, State.setReg_sys]

/-- Reading memory without marks finds every granule, and leaves memory and the straps alone. -/
theorem read_unmarked (l : List Nat) (t : State) (h : ∀ g, t.memMark g = 0) :
    ∃ t', l.foldl (fun (x : Bool × State) g =>
      let (k, s1) := x.2.memFind g
      (x.1 && k, s1.bump64 (pgMem (x.2.granStack g)) R.MEM_RD_LO 1)) (true, t) = (true, t') ∧ t'.mem = t.mem ∧ t'.sys = t.sys := by
  induction l generalizing t with
  | nil => exact ⟨t, rfl, rfl, rfl⟩
  | cons g l ih =>
    have hf : t.memFind g = (true, t) := by simp [State.memFind, h g]
    obtain ⟨t', h1, h2, h3⟩ := ih (t.bump64 (pgMem (t.granStack g)) R.MEM_RD_LO 1) (fun g' => by
      rw [State.memMark, (bump64_keeps ..).1]
      exact h g')
    refine ⟨t', ?_, h2.trans (bump64_keeps ..).1, h3.trans (bump64_keeps ..).2⟩
    rw [List.foldl_cons]
    simpa only [hf, Bool.true_and] using h1

theorem planLoaded_bytes : (span 0 (8 * planWords)).map planLoaded.memByte = planBytes := by
  apply List.ext_getElem
  · rw [planBytes_length]
    simp [span]
  · intro i h1 h2
    simp only [span, List.map_map, List.getElem_map, List.getElem_range, Function.comp, Nat.zero_add]
    exact memByte_planLoaded i h2

theorem planLoaded_read : ∃ t, planLoaded.memRead 0 planLoaded.devId.toNat 0 (8 * planWords) = (.ok planBytes, t)
    ∧ t.mem = planLoaded.mem ∧ t.sys = planLoaded.sys := by
  have hm : planLoaded.mem.mark = emptyMap := by decide +kernel
  obtain ⟨t, h1, h2, h3⟩ := read_unmarked (granules 0 (8 * planWords)) planLoaded (fun g => by rw [State.memMark, hm]; rfl)
  refine ⟨t, ?_, h2, h3⟩
  rw [State.memRead, if_neg (by decide +kernel), if_neg (by decide +kernel), State.memReadRaw, planLoaded_bytes]
  simp only [h1, if_true]

theorem memAllowed_keeps {s t : State} (hm : t.mem = s.mem) (hs : t.sys = s.sys) (p : Fin 16) (a n : Nat) :
    t.memAllowed p a n = s.memAllowed p a n := by
  have hr : t.regionHeldBy p = s.regionHeldBy p := by
    funext x
    simp only [State.regionHeldBy, hm]
  rw [State.memAllowed, State.memAllowed, State.memSize, State.memSize, State.nStacks, State.nStacks, hr, hs]

theorem plan_words : (chunks 8 planBytes).map leNat = planImage.map (·.toNat) := by decide +kernel

theorem plan_reserved : planReservedOk (planImage.map (·.toNat)) = true := by decide +kernel

/-- A plan's checks and roles do not look at its digest. -/
theorem plan_digest (pl : Plan) (l : List Byte) (d : BitVec 16) : Plan.fieldsOk { pl with digest := l } = pl.fieldsOk
    ∧ Plan.roleOf { pl with digest := l } d = pl.roleOf d := ⟨rfl, rfl⟩

theorem plan_fields : (planOf (planImage.map (·.toNat)) []).fieldsOk = true
    ∧ (planOf (planImage.map (·.toNat)) []).roleOf planLoaded.devId = .captain
    ∧ (planOf (planImage.map (·.toNat)) []).adjs.length = 0 ∧ (planOf (planImage.map (·.toNat)) []).takeStage = 0 := by decide +kernel

theorem witness_plan_loads : planLoaded.loadPlan.1.isSome = true := by
  have ha : wbits planLoaded.rcv.planHi 15 0 * 2 ^ 32 + planLoaded.rcv.planLo.toNat = 0 := by decide +kernel
  obtain ⟨t, h1, h2, h3⟩ := planLoaded_read
  have hs : t.memAllowed 0 0 (16 * 2 ^ 20) = true := by
    rw [memAllowed_keeps h2 h3]
    decide +kernel
  obtain ⟨f1, f2, f3, f4⟩ := plan_fields
  have hp : planOf (planImage.map (·.toNat)) ((Config.sha512 planBytes).take 8)
    = { planOf (planImage.map (·.toNat)) [] with digest := (Config.sha512 planBytes).take 8 } := rfl
  generalize planOf (planImage.map (·.toNat)) [] = pl at f1 f2 f3 f4 hp
  have f5 := List.length_eq_zero_iff.mp f3
  delta State.loadPlan
  simp only [ha, h1, plan_words, plan_reserved, hp, (plan_digest _ _ planLoaded.devId).1, (plan_digest _ _ planLoaded.devId).2, f1, f2]
  simp only [f5, f4, State.fillAdjs, State.placesOk, List.foldl_nil]
  have hs2 : t.memAllowed 0 0 16777216 = true := hs
  simp [hs2]

theorem witness_PlansAndAdjournments_plan :
    ready.alive = true ∧ ready.arbiterRuns = true ∧ ready.rcv.mail = [] ∧ (2 : Word) ≠ 1 ∧ (inGroup .captain .filling).rcv.gstate ≠ .steady
    ∧ ready.rcv.gstate = .steady ∧ ready.saving = false ∧ ready.loadPlan.1.isSome = false
    ∧ planLoaded.saving = false ∧ planLoaded.rcv.gstate = .steady := by
  decide +kernel

/-- A group whose adjournment 1 of partition 0 stands in a state, to be saved at a step or not. -/
def adjourning (role : Role) (st : AdjState) (goal : Option Nat) (g : GState) : State :=
  (inGroup role g).setAdj 0 { Adj.reset with seq := 1, step := 2, st := st, goAt := goal }

/-- A REPORT of a kind on adjournment 1 of partition 0, from device 2. -/
def reportOf (kind : Nat) : Packet := mg mkReport 2 (leBytes 8 kind ++ leBytes 8 1 ++ leBytes 8 0 ++ List.replicate 64 0)

theorem witness_PlansAndAdjournments_captain :
    let s := inGroup .captain .steady
    let t := adjourning .captain .saving none .steady
    s.rcv.plan = some plan0 ∧ plan0.adj? 0 = some adjPlan ∧ s.rcv.role = .captain ∧ s.rcv.gstate = .steady ∧ s.savingOf 0 = false
    ∧ (s.reach ((s.adjOf 0).savedAt + (s.adjOf 0).interval * 1000000000)).rcv.gstate = .steady
    ∧ t.savingOf 0 = true ∧ (t.adjOf 0).st = .saving ∧ t.rcv.role = .captain ∧ s.rcv.mail = [] ∧ t.alive = true ∧ t.arbiterRuns = true
    ∧ (∀ k ∈ [rpDigest, rpLate, rpConfirm, rpRestored], mgmtFor t (reportOf k) mkReport (some k) = true
      ∧ Fin.ofNat 16 (payNum (reportOf k) 1 1) = 0 ∧ payNum (reportOf k) 8 8 = (t.adjOf 0).seq ∧ plan0.memberAt (reportOf k).src = some 1)
    ∧ (s.adjOf 0).seq % 2 ^ 24 = wbits 0 23 0 ∧ (s.adjOf 0).seq = 0 ∧ (t.adjOf 0).seq % 2 ^ 24 = wbits 1 23 0 ∧ (t.adjOf 0).seq ≠ 0
    ∧ (t.adjOf 0).seq % 2 ^ 24 ≠ wbits 2 23 0 ∧ ((adjourning .captain .exposed none .steady).adjOf 0).st = .exposed
    ∧ t.liveMembers = [0, 1] ∧ (adjourning .captain .saving none .restoring).rcv.gstate = .restoring
    ∧ (adjourning .captain .saving none .filling).rcv.gstate = .filling := by decide +kernel

theorem witness_PlansAndAdjournments_member :
    let s := inGroup .member .steady
    let call := mg mkAdjourn 2 (leBytes 4 0 ++ leBytes 4 2 ++ leBytes 8 1)
    let held := adjourning .member .saving (some 0) .steady
    let own := held.setAdj 0 { held.adjOf 0 with own := [some ⟨1, 2, ⟨[], [], [], [], []⟩, [], []⟩, none] }
    let seal' := mg mkSealMsg 2 (leBytes 8 0 ++ leBytes 8 1 ++ List.replicate 64 0)
    s.rcv.role ≠ .standby ∧ s.rcv.role ≠ .none ∧ mgmtFor s call mkAdjourn none = true ∧ Fin.ofNat 16 (payNum call 0 1) = 0
    ∧ call.src = s.rcv.captain ∧ tallyReached (s.tally 1) (word (payNum call 4 4)) = false
    ∧ tallyReached ((s.putTally 1 2).tally 1) (word (payNum call 4 4)) = true
    ∧ (s.adjOf 0).goAt = none ∧ (held.adjOf 0).saveFrom = none ∧ held.copying 0 = false
    ∧ (let h := held.setAdj 0 { held.adjOf 0 with saveFrom := some 5 }
      (h.adjOf 0).goAt = some 0 ∧ (h.adjOf 0).saveFrom = some 5 ∧ h.copying 0 = false
      ∧ ({ h with rcv := { h.rcv with copies := [⟨0, 0, none, 0, 0, false⟩] } }).copying 0 = true)
    ∧ (held.adjOf 0).goAt = some 0 ∧ tallyReached (held.tally 1) (word 0) = true ∧ held.rcv.captain ≠ held.devId
    ∧ (held.adjOf 0).own.length = 2
    ∧ ((adjourning .member .saving (some 2) .steady).adjOf 0).goAt = some 2
    ∧ tallyReached ((adjourning .member .saving (some 2) .steady).tally 1) (word 2) = false
    ∧ mgmtFor own seal' mkSealMsg none = true ∧ Fin.ofNat 16 (payNum seal' 0 1) = 0 ∧ seal'.src = own.rcv.captain
    ∧ (nth none (own.adjOf 0).own 0).any (fun c => c.seq = payNum seal' 8 8) = true
    ∧ (inGroup .standby .steady).rcv.role = .standby := by decide +kernel

theorem witness_GroupMembershipChanges_heartbeats :
    let s := inGroup .captain .steady
    let beat := mg mkHeartbeat 2 (List.replicate 88 0)
    let claim := mg mkHeartbeat 2 ([0, 0, 0, 0, 2] ++ List.replicate 83 0)
    let silent (n : Nat) : State := { s with rcv := { s.rcv with misses := s.rcv.misses.set (fun _ => 0) 2 n } }
    s.alive = true ∧ s.arbiterRuns = true ∧ s.rcv.mail = [] ∧ s.rcv.plan = some plan0 ∧ s.rcv.owes = [] ∧ s.rcv.taken = none
    ∧ mgmtFor s beat mkHeartbeat none = true ∧ mgmtFor s claim mkHeartbeat none = true ∧ payNum beat 4 1 ≠ 2 ∧ payNum claim 4 1 = 2
    ∧ (s.epochOf (devGroup s.devId)).toNat ≤ payNum claim 0 4 ∧ (inGroup .member .steady).rcv.role = .member
    ∧ (inGroup .deputy .steady).rcv.role = .deputy ∧ plan0.memberAt 2 = some 1 ∧ liveBit s.rcv.live 1 = true
    ∧ (1 : BitVec 6).toNat < plan0.members.length ∧ plan0.dev 1 ≠ s.devId ∧ plan0.dev 0 = s.devId
    ∧ (silent 2).rcv.misses.get (fun _ => 0) 2 < 3 ∧ 3 ≤ (silent 3).rcv.misses.get (fun _ => 0) 2 ∧ (2 : Nat) ∉ s.rcv.bad
    ∧ (let t := { silent 3 with rcv := { (silent 3).rcv with used := [3] } }; t.freeStandby plan0 = none) ∧ 0 < plan0.rowSize
    ∧ s.fab.epochHeld = [] ∧ s.claimAt plan0 = none ∧ s.rcv.copies = []
    ∧ (let t := { s with rcv := { s.rcv with live := 1 } }; ∀ m, plan0.memberAt 2 = some m → liveBit t.rcv.live m = false)
    ∧ (let d := inGroup .deputy .steady
      (d.claimAt plan0).isSome = true
      ∧ (∃ n ∈ List.range 64, d.claimAt plan0 = some n ∧ d.rcv.misses.get (fun _ => 0) d.rcv.captain.toNat < n)) := by
  decide +kernel

theorem witness_GroupMembershipChanges_orders :
    let s := inGroup .member .steady
    let other := mg mkEpoch 2 (leBytes 4 1 ++ leBytes 2 64 ++ leBytes 2 65 ++ leBytes 8 3)
    let mine := mg mkEpoch 2 (leBytes 4 1 ++ leBytes 2 2 ++ leBytes 2 0 ++ leBytes 8 3)
    let st := inGroup .standby .steady
    let take := mg mkTake 2 (leBytes 2 2 ++ leBytes 2 5)
    let cap := inGroup .captain .filling
    let filling (b : Bool) : State := { cap with rcv := { cap.rcv with fills := [⟨1, 2, none, b, false⟩] } }
    mgmtFor s other mkEpoch none = true ∧ devGroup (BitVec.ofNat 16 (payNum other 4 2)) ≠ devGroup s.devId
    ∧ (s.epochOf (devGroup (BitVec.ofNat 16 (payNum other 4 2)))).toNat < payNum other 0 4
    ∧ mgmtFor s mine mkEpoch none = true ∧ devGroup (BitVec.ofNat 16 (payNum mine 4 2)) = devGroup s.devId
    ∧ (s.epochOf (devGroup s.devId)).toNat < payNum mine 0 4 ∧ s.fab.epochHeld = [] ∧ s.rcv.role = .member
    ∧ mgmtFor st take mkTake none = true ∧ st.rcv.role = .standby ∧ st.rcv.taken = none
    ∧ plan0.memberAt (BitVec.ofNat 16 (payNum take 0 2)) = some 1 ∧ BitVec.ofNat 16 (payNum take 2 2) ≠ st.devId ∧ s.rcv.role ≠ .standby
    ∧ (filling false).rcv.fills.find? (fun f => f.standby = (reportOf rpTakeOk).src.toNat && !f.accepted) = some ⟨1, 2, none, false, false⟩
    ∧ mgmtFor (filling false) (reportOf rpTakeOk) mkReport (some rpTakeOk) = true
    ∧ mgmtFor (filling false) (reportOf rpTakeRefused) mkReport (some rpTakeRefused) = true
    ∧ mgmtFor (filling true) (reportOf rpFilled) mkReport (some rpFilled) = true ∧ (filling true).rcv.gstate = .filling
    ∧ (∃ f ∈ (filling true).rcv.fills, f.member = 1 ∧ f.accepted = true) := by decide +kernel
end Sys2Proof.Tests
end

section
/-!
SUPPORT. Laws of page events (R65, R145), of the spare places and names (R141, R142, R534), and what a command on a live
device answers.
-/

namespace Sys2Proof.Machine

open Sys2Proof

/-! ### What a command answers -/

/-- `t` is what a live device answers to a command with effect `e`: `e` with the interrupts sent, and some queue. -/
structure Answers (e t : State) : Prop where
  raised : ∃ l, Raised { e with pending := l } t

/-- On a live device a command whose arm ends in `done` answers its effect, whatever is asked of the answer. -/
theorem completesIn_of_done {c : Instr} {s e : State} {P : State → Prop} (h : s.alive = true) (hc : exec c s = done s e)
    (hP : ∀ t, Answers e t → P t) : CompletesIn c s P := by
  obtain ⟨t, ht, hr⟩ := done_raised h e
  exact ⟨t, hc.trans ht, hP t ⟨_, hr⟩⟩

namespace Answers

variable {e t : State}

theorem arb (h : Answers e t) : t.arb = e.arb := by obtain ⟨l, h⟩ := h; rw [h.same]
theorem rcv (h : Answers e t) : t.rcv = e.rcv := by obtain ⟨l, h⟩ := h; rw [h.same]
theorem sch (h : Answers e t) : t.sch = e.sch := by obtain ⟨l, h⟩ := h; rw [h.same]
theorem squares (h : Answers e t) : t.squares = e.squares := by obtain ⟨l, h⟩ := h; rw [h.same]
theorem pages (h : Answers e t) : t.drs.pages = e.drs.pages := by obtain ⟨l, h⟩ := h; rw [h.same]

theorem reg (h : Answers e t) {pn off : Nat} (hk : interruptReg (4096 * pn + off) = false) : t.reg pn off = e.reg pn off := by
  obtain ⟨l, h⟩ := h
  exact h.regs _ hk

theorem phys (h : Answers e t) (q : Nat) : t.phys q = e.phys q := by
  unfold State.phys; rw [h.squares]

theorem sparePos (h : Answers e t) (j : Nat) : t.sparePos j = e.sparePos j := by
  unfold State.sparePos; rw [h.arb]

theorem page (h : Answers e t) (pn : Nat) : t.page pn = e.page pn := by
  unfold State.page; rw [h.pages]

theorem freeSpares (h : Answers e t) : t.freeSpares = e.freeSpares := by
  unfold State.freeSpares
  rw [h.reg (by decide)]

end Answers

/-! ### Bits of a number and of a word -/

theorem testBit_putBits_one (n j i : Nat) (b : Bool) :
    (putBits n j j (b01 b)).testBit i = if i = j then b else n.testBit i := by
  have hw : j + 1 - j = 1 := by omega
  have hb : b01 b % 2 ^ 1 = b.toNat := by cases b <;> rfl
  unfold putBits
  dsimp only
  rw [hw, hb, Nat.testBit_or, Nat.testBit_or, Nat.testBit_shiftLeft, Nat.testBit_shiftRight, Nat.testBit_shiftLeft,
    Nat.testBit_mod_two_pow]
  rcases Nat.lt_trichotomy i j with h | rfl | h
  · simp [h, Nat.ne_of_lt h, Nat.not_le.2 h, show ¬ j + 1 ≤ i by omega]
  · cases b <;> simp [show ¬ i + 1 ≤ i by omega]
  · have hb : b.toNat.testBit (i - j) = false := by
      obtain ⟨d, hd⟩ : ∃ d, i - j = d + 1 := ⟨i - j - 1, by omega⟩
      rw [hd]
      cases b <;> simp [Nat.testBit_succ]
    simp [hb, Nat.ne_of_gt h, show j + 1 ≤ i by omega, show ¬ i < j by omega, show j + 1 + (i - (j + 1)) = i by omega]

/-! ### Events of pages -/

/-- `t` is `s` after events of pages: the pages and what tells of gating have changed, and status bits have risen. -/
structure PageEvents (s t : State) : Prop where
  same : t = { s with
    drs := { s.drs with regs := t.drs.regs, pages := t.drs.pages }
    squares := { s.squares with selfGated := t.squares.selfGated } }
  regs : ∀ k, k % 4096 ≠ hIntStatus → t.drs.regs.get regDefault k = s.drs.regs.get regDefault k
  bits : ∀ k b, (s.drs.regs.get regDefault k).getLsbD b = true → (t.drs.regs.get regDefault k).getLsbD b = true

namespace PageEvents

theorem refl (s : State) : PageEvents s s := ⟨rfl, fun _ _ => rfl, fun _ _ h => h⟩

theorem trans {a b c : State} (h : PageEvents a b) (h' : PageEvents b c) : PageEvents a c := by
  refine ⟨?_, fun k hk => (h'.regs k hk).trans (h.regs k hk), fun k i hi => h'.bits k i (h.bits k i hi)⟩
  have e := h.same
  have e' := h'.same
  rw [e] at e'
  exact e'

theorem foldl {β : Type} (f : State → β → State) (h : ∀ s x, PageEvents s (f s x)) (l : List β) (s : State) :
    PageEvents s (l.foldl f s) := by
  induction l generalizing s with
  | nil => exact refl s
  | cons a t ih => exact (h s a).trans (ih _)

theorem setPage (s : State) (pn : Nat) (x : Page) : PageEvents s (s.setPage pn x) := ⟨rfl, fun _ _ => rfl, fun _ _ h => h⟩

theorem statusOne (s : State) (p : Fin 16) (pn bit : Nat) : PageEvents s (s.statusOne p pn bit) := by
  refine ⟨rfl, fun k hk => FMap.get_set_other _ _ _ (fun e => hk (by rw [e]; unfold hIntStatus; omega)), fun k b hb => ?_⟩
  show ((s.drs.regs.set regDefault _ _).get regDefault k).getLsbD b = true
  rw [FMap.get_set]
  split
  · next e => rw [BitVec.getLsbD_or, State.regB, ← e, hb, Bool.true_or]
  · exact hb

theorem statusAll (s : State) (pn bit : Nat) : PageEvents s (s.statusAll pn bit) := by
  unfold State.statusAll
  split
  · exact foldl _ (fun s p => statusOne s p pn bit) _ _
  · exact statusOne s 0 pn bit

theorem signal (s : State) (pn bit : Nat) : PageEvents s (s.signal pn bit) := foldl _ (fun s x => statusAll s x bit) _ _

theorem ungate (s : State) (pn : Nat) : PageEvents s (s.ungate pn) := by
  unfold State.ungate
  split
  · exact ⟨rfl, fun _ _ => rfl, fun _ _ h => h⟩
  · exact refl s

theorem toPage (s : State) (pn : Nat) (x : Page) : PageEvents s (s.toPage pn x) := by
  have h2 : PageEvents s (if (s.page pn).st = x.st then s.setPage pn x else ((s.setPage pn x).ungate pn).signal pn 0) := by
    split
    · exact setPage s pn x
    · exact ((setPage s pn x).trans (ungate _ pn)).trans (signal _ pn 0)
  unfold State.toPage
  dsimp only
  split
  · exact h2.trans (signal _ pn 1)
  · exact h2

end PageEvents

/-! A status bit concerns no page's header. -/

theorem State.pages_statusOne (s : State) (p : Fin 16) (pn bit : Nat) : (s.statusOne p pn bit).drs.pages = s.drs.pages := rfl

theorem State.pages_statusAll (s : State) (pn bit : Nat) : (s.statusAll pn bit).drs.pages = s.drs.pages := by
  unfold State.statusAll
  split
  · generalize allParts = l
    induction l generalizing s with
    | nil => rfl
    | cons p t ih => exact (ih (s.statusOne p pn bit)).trans (State.pages_statusOne s p pn bit)
  · rfl

theorem State.pages_signal (s : State) (pn bit : Nat) : (s.signal pn bit).drs.pages = s.drs.pages := by
  unfold State.signal
  generalize shownBy pn = l
  induction l generalizing s with
  | nil => rfl
  | cons x t ih => exact (ih (s.statusAll x bit)).trans (State.pages_statusAll s x bit)

theorem State.pages_ungate (s : State) (pn : Nat) : (s.ungate pn).drs.pages = s.drs.pages := by
  unfold State.ungate
  split <;> rfl

/-- A page that takes a state changes in the page table as `setPage` says, whatever it signals. -/
theorem State.pages_toPage (s : State) (pn : Nat) (x : Page) : (s.toPage pn x).drs.pages = (s.setPage pn x).drs.pages := by
  unfold State.toPage
  dsimp only
  split <;> split <;> simp only [State.pages_signal, State.pages_ungate]

theorem State.page_toPage (s : State) (pn : Nat) (x : Page) (j : Nat) :
    (s.toPage pn x).page j = if j = pn then x else s.page j := by
  unfold State.page
  rw [State.pages_toPage]
  exact FMap.get_set _ _ _ _ _

/-! ### Spare places and names -/

theorem State.bitOf_freeSpares_setSpareFree (s : State) {j : Nat} (hj : j < 8) (b : Bool) (i : Nat) :
    bitOf (s.setSpareFree j b).freeSpares i = if i = j then b else bitOf s.freeSpares i := by
  have hf (w : Word) (i : Nat) : bitOf (wbits w 7 0) i = (decide (i < 8) && w.toNat.testBit i) := by
    unfold bitOf wbits bitsOf
    rw [Nat.testBit_mod_two_pow, Nat.shiftRight_zero]
  show bitOf (wbits ((s.setReg pgDev R.DEV_SPARES _).reg pgDev R.DEV_SPARES) 7 0) i = _
  rw [State.reg_setReg, hf]
  unfold word
  rw [BitVec.toNat_ofNat, Nat.testBit_mod_two_pow, testBit_putBits_one]
  unfold State.freeSpares
  by_cases hi : i < 8
  · simp [hi, show i < 32 by omega, bitOf]
  · have h0 := hf (s.reg pgDev R.DEV_SPARES) i
    simp [hi] at h0
    simp [hi, h0, show i ≠ j by omega]

theorem State.freeSpares_eq_of_reg {s t : State} (h : t.reg pgDev R.DEV_SPARES = s.reg pgDev R.DEV_SPARES) :
    t.freeSpares = s.freeSpares := by
  unfold State.freeSpares
  rw [h]

theorem State.lowSpare_lt {s : State} {j : Nat} (h : s.lowSpare = some j) : j < 8 :=
  List.mem_range.1 (List.mem_of_find?_eq_some h)

theorem State.spareAt_lt {s : State} {p j : Nat} (h : s.spareAt p = some j) : j < 8 :=
  List.mem_range.1 (List.mem_of_find?_eq_some h)

/-- A name moves to a position; REMAPPED rises on the square's SQ page (R142, R145). -/
theorem State.phys_remapTo (s : State) (q p : Nat) : (s.remapTo q p).phys q = p := by
  unfold State.remapTo State.phys
  rw [congrArg State.squares (PageEvents.statusAll _ _ _).same]
  exact FMap.get_set_same _ _ _ _

end Sys2Proof.Machine
end

section
/-!
SUPPORT and PROOF. Promotion (R534 to R536) and the field self-test (R577 to R582): what each of their operations does to the
names, the spare places, the pages and the tests that wait.
-/

namespace Sys2Proof.Machine

open Sys2Proof

/-! ### Clearing a position -/

/-- What every step of a fold keeps, the fold keeps. -/
theorem foldl_keeps {α β γ : Type} (g : α → γ) (f : α → β → α) (h : ∀ s x, g (f s x) = g s) (l : List β) (s : α) :
    g (l.foldl f s) = g s := by
  induction l generalizing s with
  | nil => rfl
  | cons x t ih => exact (ih (f s x)).trans (h s x)

/-- What neither an engine's reset, nor a mover channel's, nor a write of a swizzle window's register changes, the clearing of a
square's engines does not change. -/
theorem State.clearEngines_keeps {γ : Type} (g : State → γ) (q : Nat)
    (he : ∀ s u, g ((s.setMxeEng q u MxeEng.reset).setVxeEng q u VxeEng.reset) = g s)
    (hm : ∀ s c, g (s.setMovChan q c MovChan.reset) = g s)
    (hr : ∀ s n v, g (s.setReg (pgSpd q) (R.SPD_SWZ_CFG + 8 * n) v) = g s) (s : State) : g (s.clearEngines q) = g s := by
  unfold State.clearEngines
  refine (foldl_keeps g _ (fun s n => hr s n _) _ _).trans ((foldl_keeps g _ hm _ _).trans (foldl_keeps g _ he _ _))

/-- A square's engines are cleared: of the registers of the device's own page none changes. -/
theorem State.clearEngines_frame (s : State) (q : Nat) : (s.clearEngines q).squares = s.squares
    ∧ (s.clearEngines q).drs.pages = s.drs.pages
    ∧ ∀ k < 4096, (s.clearEngines q).drs.regs.get regDefault k = s.drs.regs.get regDefault k := by
  refine ⟨State.clearEngines_keeps State.squares q (fun _ _ => rfl) (fun _ _ => rfl) (fun _ _ _ => rfl) s,
    State.clearEngines_keeps (fun s => s.drs.pages) q (fun _ _ => rfl) (fun _ _ => rfl) (fun _ _ _ => rfl) s, fun k hk => ?_⟩
  refine State.clearEngines_keeps (fun s => s.drs.regs.get regDefault k) q (fun _ _ => rfl) (fun _ _ => rfl) (fun s n v => ?_) s
  refine FMap.get_set_other _ _ _ ?_
  unfold pgSpd pgSq
  omega

/-! ### The pages of a promoted square (R534 step 4) -/

/-- What a promoted square's page is. -/
def Page.promoted (x : Page) (pn : Nat) : Page :=
  { x with
    st := if x.enable && decide (blockAt pn = .sq) then .starting else .off
    pendingEn := x.enable && !decide (blockAt pn = .sq)
    zeroing := false
    ctl := 0 }

/-- `t` is `s` after pages outside the island have been promoted: beside them only registers and counts of those pages and what
tells of gating have changed, and no status bit has fallen. -/
structure PagesPromoted (s t : State) : Prop where
  same : t = { s with
    drs := { s.drs with regs := t.drs.regs, pages := t.drs.pages, errs := t.drs.errs }
    squares := { s.squares with selfGated := t.squares.selfGated } }
  device : ∀ k < 4096, k ≠ hIntStatus → t.drs.regs.get regDefault k = s.drs.regs.get regDefault k
  bits : ∀ k b, k % 4096 = hIntStatus → (s.drs.regs.get regDefault k).getLsbD b = true →
    (t.drs.regs.get regDefault k).getLsbD b = true

namespace PagesPromoted

theorem refl (s : State) : PagesPromoted s s := ⟨rfl, fun _ _ _ => rfl, fun _ _ _ h => h⟩

theorem trans {a b c : State} (h : PagesPromoted a b) (h' : PagesPromoted b c) : PagesPromoted a c := by
  refine ⟨?_, fun k hk hi => (h'.device k hk hi).trans (h.device k hk hi), fun k i hk hi => h'.bits k i hk (h.bits k i hk hi)⟩
  have e := h.same
  have e' := h'.same
  rw [e] at e'
  exact e'

theorem ofEvents {s t : State} (h : PageEvents s t) : PagesPromoted s t := by
  refine ⟨?_, fun k hk hi => h.regs k (by rwa [Nat.mod_eq_of_lt hk]), fun k b _ hb => h.bits k b hb⟩
  have e := h.same
  rw [e]

theorem promotePage (s : State) {pn : Nat} (h : 1 ≤ pn) : PagesPromoted s (s.promotePage pn) := by
  unfold State.promotePage
  dsimp only
  refine trans ?_ (ofEvents (PageEvents.toPage _ _ _))
  refine ⟨rfl, fun k hk _ => ?_, fun k b hk hb => ?_⟩
  · refine (FMap.get_keep _ _ _ _).trans (if_pos ?_)
    simp only [Bool.or_eq_true, decide_eq_true_eq]
    left
    omega
  · have hkeep : (decide (k / 4096 ≠ pn) || decide (k % 4096 < 0x80)) = true := by
      rw [hk]
      exact Bool.or_eq_true_iff.2 (Or.inr (by decide))
    rw [FMap.get_keep, if_pos hkeep]
    exact hb

theorem promotePages {l : List Nat} (h : ∀ pn ∈ l, 1 ≤ pn) (s : State) : PagesPromoted s (l.foldl State.promotePage s) := by
  induction l generalizing s with
  | nil => exact refl s
  | cons pn t ih =>
    exact (promotePage s (h pn (List.mem_cons_self ..))).trans (ih (fun x hx => h x (List.mem_cons_of_mem _ hx)) _)

end PagesPromoted

theorem State.page_promotePage (s : State) (pn j : Nat) :
    (s.promotePage pn).page j = if j = pn then (s.page pn).promoted pn else s.page j := State.page_toPage _ _ _ _

/-- Distinct pages are promoted each on its own. -/
theorem State.page_promotePages {l : List Nat} (hl : l.Nodup) (s : State) (j : Nat) :
    (l.foldl State.promotePage s).page j = if j ∈ l then (s.page j).promoted j else s.page j := by
  induction l generalizing s with
  | nil => rfl
  | cons pn t ih =>
    obtain ⟨hpn, ht⟩ := List.nodup_cons.1 hl
    rw [List.foldl_cons, ih ht, State.page_promotePage]
    by_cases hj : j = pn
    · subst hj
      simp [hpn]
    · simp [hj]

theorem sqPages_nodup (q : Nat) : (sqPages q).Nodup :=
  List.Pairwise.map (pgSq q) (fun a b (h : a ≠ b) (e : pgSq q a = pgSq q b) => h (by unfold pgSq at e; omega)) List.nodup_range

theorem one_le_of_mem_sqPages {q pn : Nat} (h : pn ∈ sqPages q) : 1 ≤ pn := by
  obtain ⟨i, -, rfl⟩ := List.mem_map.1 h
  unfold pgSq
  omega

/-! ### The promotion itself -/

/-- The SQ page keeps its `INT_STATUS` in bank 0 alone, and no interrupt that is sent changes it. -/
theorem sqStatus_key (q : Fin 64) : bankedInt (blockAt (pgSq q.val 0)) = false
    ∧ interruptReg (4096 * pgSq q.val 0 + hIntStatus) = false := by
  revert q; decide

theorem State.remapped_remapTo (s : State) (q : Fin 64) (p : Nat) :
    ((s.remapTo q.val p).reg (pgSq q.val 0) hIntStatus).getLsbD 4 = true := by
  unfold State.remapTo State.statusAll State.statusOne intBank
  rw [(sqStatus_key q).1, State.reg_eq_regB]
  simp only [Bool.false_eq_true, if_false, State.regB_setRegB, BitVec.getLsbD_or]
  rw [show (word (2 ^ 4)).getLsbD 4 = true by decide, Bool.or_true]

/-- R534 steps 2 to 4: the position bears the name, REMAPPED is set, the pages start from their ENABLE, and the spare places and the
queue of promotions are as before. -/
theorem State.promoteTo_effect (s : State) (q : Fin 64) (p us : Nat) :
    (s.promoteTo q.val p us).phys q.val = p
    ∧ (s.promoteTo q.val p us).squares.promotions = s.squares.promotions
    ∧ (s.promoteTo q.val p us).freeSpares = s.freeSpares
    ∧ ((s.promoteTo q.val p us).reg (pgSq q.val 0) hIntStatus).getLsbD 4 = true
    ∧ ∀ pn ∈ sqPages q.val, (s.promoteTo q.val p us).page pn = (s.page pn).promoted pn := by
  unfold State.promoteTo
  dsimp only
  generalize hc : (s.zeroPhys p).clearEngines q.val = c
  obtain ⟨hsq, hpg, hrg⟩ := State.clearEngines_frame (s.zeroPhys p) q.val
  rw [hc] at hsq hpg hrg
  have hr := PageEvents.statusAll { c with squares := { c.squares with
      remap := c.squares.remap.set (fun q => q) q.val p
      remapGen := c.squares.remapGen + 1 } } (pgSq q.val 0) 4
  have hphys := State.phys_remapTo c q.val p
  have hbit := State.remapped_remapTo c q p
  have hpages : (c.remapTo q.val p).drs.pages = c.drs.pages := State.pages_statusAll _ _ _
  change PageEvents _ (c.remapTo q.val p) at hr
  generalize c.remapTo q.val p = r at hr hphys hbit hpages ⊢
  generalize hst : { r with squares := { r.squares with standin := r.squares.standin.set (fun _ => false) q.val false } } = r2
  have hp := PagesPromoted.promotePages (fun _ h => one_le_of_mem_sqPages h) r2 (l := sqPages q.val)
  have hpage := State.page_promotePages (sqPages_nodup q.val) r2
  generalize (sqPages q.val).foldl State.promotePage r2 = u at hp hpage ⊢
  refine ⟨?_, ?_, ?_, ?_, fun pn h => ?_⟩
  · show u.phys q.val = p
    rw [← hphys, State.phys, hp.same, ← hst]
    rfl
  · show u.squares.promotions = s.squares.promotions
    rw [hp.same, ← hst]
    show r.squares.promotions = _
    rw [hr.same]
    show c.squares.promotions = _
    rw [hsq]
    rfl
  · apply State.freeSpares_eq_of_reg
    show u.drs.regs.get regDefault _ = s.drs.regs.get regDefault _
    rw [hp.device _ (by decide) (by decide), ← hst]
    exact (hr.regs _ (by decide)).trans (hrg _ (by decide))
  · refine hp.bits _ 4 ?_ (by rw [← hst]; exact hbit)
    unfold hIntStatus
    omega
  · show u.page pn = _
    rw [hpage, if_pos h, ← hst]
    show (r.drs.pages.get _ pn).promoted pn = _
    rw [hpages, hpg]
    rfl

/-! ### Starting the tests that wait (R577, R578, R23) -/

/-- `t` is `s` after the tests that wait have been looked at: names, pages and the queue of promotions are as before, and of the
registers the free spares alone have changed, none of which has become free. -/
structure TestsLookedAt (s t : State) : Prop where
  remap : t.squares.remap = s.squares.remap
  promotions : t.squares.promotions = s.squares.promotions
  pages : t.drs.pages = s.drs.pages
  regs : ∀ k, k ≠ R.DEV_SPARES → t.drs.regs.get regDefault k = s.drs.regs.get regDefault k
  free : ∀ j, bitOf s.freeSpares j = false → bitOf t.freeSpares j = false

theorem TestsLookedAt.startTests (l : List (Fin 64)) (s : State) : TestsLookedAt s (State.startTests l s) := by
  induction l generalizing s with
  | nil => exact ⟨rfl, rfl, rfl, fun _ _ => rfl, fun _ h => h⟩
  | cons q rest ih =>
    unfold State.startTests
    dsimp only
    split
    · obtain ⟨h1, h2, h3, h4, h5⟩ := ih { s with arb := { s.arb with tests := rest } }
      exact ⟨h1, h2, h3, h4, h5⟩
    · split
      · obtain ⟨h1, h2, h3, h4, h5⟩ := ih (State.deferTest { s with arb := { s.arb with tests := rest } } q 0)
        exact ⟨h1, h2, h3, h4, h5⟩
      · next j hj =>
        refine ⟨rfl, rfl, rfl, fun k hk => FMap.get_set_other _ _ _ (by simpa [pgDev] using hk), fun i hi => ?_⟩
        refine (State.bitOf_freeSpares_setSpareFree _ (State.lowSpare_lt hj) false i).trans ?_
        split
        · rfl
        · exact hi

theorem TestsLookedAt.nextTest (s : State) : TestsLookedAt s s.nextTest := by
  unfold State.nextTest
  split
  · exact ⟨rfl, rfl, rfl, fun _ _ => rfl, fun _ h => h⟩
  · exact startTests _ s

/-- A square that may be tested: its SQ page is not RETIRED. -/
def State.testable (s : State) (q : Fin 64) : Bool := decide ((s.page (pgSq q.val 0)).st ≠ .retired)

/-- With a spare free, the first square that may be tested starts on the lowest one; the others wait (R577, R578 steps 1 and 2). -/
theorem State.startTests_first {q : Fin 64} {rest : List (Fin 64)} {j : Nat} (out : List (Fin 64)) (s : State)
    (hr : s.sys.devState = .ready) (hj : s.lowSpare = some j) (hout : out.any s.testable = false) (hq : s.testable q = true) :
    bitOf (State.startTests (out ++ q :: rest) s).freeSpares j = false
    ∧ (State.startTests (out ++ q :: rest) s).arb.tests = rest
    ∧ (State.startTests (out ++ q :: rest) s).arb.test = some ⟨q, s.phys q.val, s.sparePos j, .copyOut, s.now, false⟩ := by
  induction out generalizing s with
  | nil =>
    have hst : ¬ (s.sys.devState ≠ .ready ∨ (s.page (pgSq q.val 0)).st = .retired) := by
      simpa [hr, State.testable] using hq
    have hj' : State.lowSpare { s with arb := { s.arb with tests := rest } } = some j := hj
    simp only [List.nil_append, State.startTests, if_neg hst, hj']
    exact ⟨(State.bitOf_freeSpares_setSpareFree _ (State.lowSpare_lt hj) false j).trans (if_pos rfl), rfl, rfl⟩
  | cons x out ih =>
    obtain ⟨hx, ho⟩ := (Bool.or_eq_false_iff).1 ((List.any_cons).symm.trans hout)
    have hst : s.sys.devState ≠ .ready ∨ (s.page (pgSq x.val 0)).st = .retired := by
      simpa [hr, State.testable] using hx
    simp only [List.cons_append, State.startTests, if_pos hst]
    exact ih { s with arb := { s.arb with tests := out ++ q :: rest } } hr hj ho hq

/-- While no spare is free, every square that may be tested is put off by a minute (R23). -/
theorem State.startTests_noSpare (l : List (Fin 64)) (s : State) (hr : s.sys.devState = .ready) (hj : s.lowSpare = none)
    (hl : s.arb.tests = l) :
    (State.startTests l s).arb.test = s.arb.test ∧ (State.startTests l s).arb.tests = []
    ∧ (State.startTests l s).arb.retries = s.arb.retries ++ (l.filter s.testable).map (fun q => (q, s.now + 60000000000)) := by
  induction l generalizing s with
  | nil => exact ⟨rfl, hl, by simp [State.startTests]⟩
  | cons q rest ih =>
    have hj' : State.lowSpare { s with arb := { s.arb with tests := rest } } = none := hj
    by_cases hq : s.testable q = true
    · have hst : ¬ (s.sys.devState ≠ .ready ∨ (s.page (pgSq q.val 0)).st = .retired) := by
        simpa [hr, State.testable] using hq
      simp only [State.startTests, if_neg hst, hj', List.filter_cons_of_pos hq]
      obtain ⟨h1, h2, h3⟩ := ih (State.deferTest { s with arb := { s.arb with tests := rest } } q 0) hr hj rfl
      refine ⟨h1, h2, h3.trans ?_⟩
      show (s.arb.retries ++ [(q, s.now + 60000000000)]) ++ _ = _
      rw [List.append_assoc]
      rfl
    · have hst : s.sys.devState ≠ .ready ∨ (s.page (pgSq q.val 0)).st = .retired := by
        simpa [hr, State.testable] using hq
      simp only [State.startTests, if_pos hst, List.filter_cons_of_neg hq]
      exact ih { s with arb := { s.arb with tests := rest } } hr hj rfl

theorem State.askTests_ready {s : State} (qs : List (Fin 64)) (ha : s.arbiterRuns = true) (hr : s.sys.devState = .ready) :
    s.askTests qs = State.nextTest { s with arb := { s.arb with tests := s.arb.tests ++ qs } } := if_pos ⟨ha, hr⟩

theorem State.nextTest_free {s : State} (h : s.arb.test = none) : s.nextTest = State.startTests s.arb.tests s := by
  simp [State.nextTest, h]

end Sys2Proof.Machine
end

section
/-!
PROOF. The field self-test from its copy-out to the spare's return (R578 to R582), and O49.
-/

namespace Sys2Proof.Machine

open Sys2Proof

/-! ### Hand-over and the spare's return -/

/-- A name that passes to another position concerns neither the Arbiter's own state nor the device's. -/
theorem State.handOver_frame (s : State) (q p : Nat) : (s.handOver q p).arb = s.arb ∧ (s.handOver q p).sys = s.sys := by
  unfold State.handOver State.remapTo
  rw [(PageEvents.statusAll _ _ _).same]
  exact ⟨rfl, rfl⟩

theorem State.phys_handOver (s : State) (q p : Nat) : (s.handOver q p).phys q = p := State.phys_remapTo _ q p

theorem State.spareAt_congr {s t : State} (h : t.arb.sparePos = s.arb.sparePos) (p : Nat) : t.spareAt p = s.spareAt p := by
  unfold State.spareAt State.sparePos
  rw [h]

theorem State.freeSpares_returnSpare (s : State) {j : Nat} (hj : j < 8) : bitOf (s.returnSpare j).freeSpares j = true :=
  (State.bitOf_freeSpares_setSpareFree _ hj true j).trans (if_pos rfl)

/-- The tested square has its name back, when a stand-in has borne it. -/
def State.nameBack (s : State) (x : SelfTest) : State :=
  match x.phase with
  | .copyOut => s
  | _ => s.handOver x.square.val x.phys

/-- No test is under way any more, and the stand-in is free. -/
def State.testOver (s : State) (x : SelfTest) : State :=
  let s2 := { s with
    squares := { s.squares with standin := s.squares.standin.set (fun _ => false) x.square.val false }
    arb := { s.arb with test := none } }
  match s2.spareAt x.standin with
  | some j => s2.returnSpare j
  | none => s2

theorem State.endTest_eq (s : State) (x : SelfTest) : s.endTest x = (s.nameBack x).testOver x := rfl

/-- A test that ends before or after it (R536, R578 step 7): none is under way, the spare is free, the square has its own position
where a stand-in bore its name, and the tests that wait or are put off stay. -/
theorem State.endTest_effect (s : State) (x : SelfTest) {j : Nat} (hj : s.spareAt x.standin = some j) :
    (s.endTest x).arb = { s.arb with test := none } ∧ (s.endTest x).sys = s.sys
    ∧ (s.endTest x).squares.standin.get (fun _ => false) x.square.val = false
    ∧ bitOf (s.endTest x).freeSpares j = true
    ∧ (x.phase ≠ .copyOut → (s.endTest x).phys x.square.val = x.phys) := by
  have h1 : (s.nameBack x).arb = s.arb ∧ (s.nameBack x).sys = s.sys
      ∧ (x.phase ≠ .copyOut → (s.nameBack x).phys x.square.val = x.phys) := by
    unfold State.nameBack
    split
    · next h => exact ⟨rfl, rfl, fun hn => absurd h hn⟩
    · exact ⟨(State.handOver_frame _ _ _).1, (State.handOver_frame _ _ _).2, fun _ => State.phys_handOver _ _ _⟩
  rw [State.endTest_eq]
  generalize s.nameBack x = s1 at h1 ⊢
  obtain ⟨ha, hy, hp⟩ := h1
  have hat : State.spareAt { s1 with
      squares := { s1.squares with standin := s1.squares.standin.set (fun _ => false) x.square.val false }
      arb := { s1.arb with test := none } } x.standin = some j := by
    rw [← hj]
    exact State.spareAt_congr (by rw [← ha]) _
  unfold State.testOver
  simp only [hat]
  refine ⟨?_, hy, FMap.get_set_same _ _ _ _, State.freeSpares_returnSpare _ (State.spareAt_lt hj), hp⟩
  rw [← ha]
  rfl

/-! ### The three events of a test -/

/-- No command is at work on the square and its pawns stand between instructions (R578 steps 3 and 4). -/
def State.standsStill (s : State) (q : Nat) : Prop := s.squareIdle q = true ∧ ∀ k < 4, s.pawnOpen (s.phys q) k = false

theorem State.standsStill_iff (s : State) (q : Nat) :
    s.standsStill q ↔ (!s.squareIdle q || (List.range 4).any (s.pawnOpen (s.phys q))) = false := by
  simp [State.standsStill]

/-- COPY_OUT_COMPLETE on a square that is not settled, or under test, does nothing. -/
theorem State.copied_waits {s : State} {x : SelfTest} (hx : s.arb.test = some x)
    (h : ¬ s.standsStill x.square.val ∨ x.phase = .testing) : s.copied = s := by
  unfold State.copied
  simp only [hx]
  split
  · rfl
  · next hb =>
    rcases h with h | h
    · exact absurd ((State.standsStill_iff s _).2 (by simpa using hb)) h
    · rw [h]

/-- A copy-out hands the name over, and the test of the physical square begins (R578 step 4). -/
theorem State.copied_copyOut {s : State} {x : SelfTest} (hx : s.arb.test = some x) (h : s.standsStill x.square.val)
    (hp : x.phase = .copyOut) :
    s.copied.phys x.square.val = x.standin ∧ s.copied.squares.standin.get (fun _ => false) x.square.val = true
    ∧ s.copied.arb.test = some { x with phase := .testing, since := s.now } := by
  unfold State.copied
  simp only [hx, (State.standsStill_iff s _).1 h, Bool.false_eq_true, if_false, hp]
  refine ⟨State.phys_handOver s _ _, FMap.get_set_same _ _ _ _, ?_⟩
  unfold State.now
  rw [(State.handOver_frame s _ _).2]

/-- A copy-back ends the test (R578 steps 6 and 7). -/
theorem State.copied_copyBack {s : State} {x : SelfTest} (hx : s.arb.test = some x) (h : s.standsStill x.square.val)
    (hp : x.phase = .copyBack) : s.copied = (s.endTest x).nextTest := by
  unfold State.copied
  simp only [hx, (State.standsStill_iff s _).1 h, Bool.false_eq_true, if_false, hp]

/-- The tested position is sound: no regulator of it has failed meanwhile (R567). -/
def State.soundPhys (s : State) (p : Nat) : Prop := s.squares.retiredPhys.get (fun _ => false) p = false

theorem State.tested_idle {s : State} {x : SelfTest} (hx : s.arb.test = some x) (h : x.phase ≠ .testing) (pass : Bool) :
    s.tested pass = s := by
  unfold State.tested
  simp only [hx]
  exact if_pos h

/-- A pass leads to the copy-back (R578 step 6). -/
theorem State.tested_pass {s : State} {x : SelfTest} (hx : s.arb.test = some x) (ht : x.phase = .testing) (hs : x.solo = false)
    (hk : s.soundPhys x.phys) :
    s.tested true = { s with arb := { s.arb with test := some { x with phase := .copyBack, since := s.now } } } := by
  unfold State.tested State.soundPhys at *
  simp [hx, ht, hs, hk]

/-- A test whose stand-in keeps the name for good frees the spare place, which now names the tested position (R582). -/
theorem State.tested_solo {s : State} {x : SelfTest} {j : Nat} (hx : s.arb.test = some x) (hq : s.arb.tests = [])
    (ht : x.phase = .testing) (hs : x.solo = true) (hk : s.soundPhys x.phys) (hj : s.spareAt x.standin = some j) :
    (s.tested true).sparePos j = x.phys ∧ (s.tested true).arb.test = none
    ∧ (s.tested true).squares.standin.get (fun _ => false) x.square.val = false ∧ bitOf (s.tested true).freeSpares j = true := by
  have hat : State.spareAt { s with
      squares := { s.squares with standin := s.squares.standin.set (fun _ => false) x.square.val false }
      arb := { s.arb with test := none } } x.standin = some j := hj
  unfold State.soundPhys at hk
  unfold State.tested
  simp only [hx, ht, hs, hk, hat, Bool.not_false, Bool.and_true, ne_eq, not_true_eq_false, if_false, and_false, if_true]
  rw [State.nextTest_none (by exact hq)]
  exact ⟨FMap.get_set_same _ _ _ _, rfl, FMap.get_set_same _ _ _ _, State.freeSpares_returnSpare _ (State.spareAt_lt hj)⟩

/-- A test that fails, or whose position's regulator has failed meanwhile, retires the position (R581, R567). -/
theorem State.tested_fail {s : State} {x : SelfTest} {pass : Bool} (hx : s.arb.test = some x) (hq : s.arb.tests = [])
    (ht : x.phase = .testing) (h : pass = false ∨ ¬ s.soundPhys x.phys) :
    (s.tested pass).arb.test = none ∧ (s.tested pass).squares.retiredPhys.get (fun _ => false) x.phys = true
    ∧ (s.tested pass).squares.remap = s.squares.remap := by
  have hp : (pass && !s.squares.retiredPhys.get (fun _ => false) x.phys) = false := by
    rcases h with h | h
    · simp [h]
    · simp [show s.squares.retiredPhys.get (fun _ => false) x.phys = true from eq_true_of_ne_false h]
  unfold State.tested
  simp only [hx, ht, hp, ne_eq, not_true_eq_false, if_false, Bool.false_eq_true, false_and]
  rw [State.nextTest_none (by exact hq)]
  exact ⟨rfl, FMap.get_set_same _ _ _ _, rfl⟩

/-- A test given up in its copy-out is tried again in a minute (R580). -/
theorem State.abandonTest_copyOut {s : State} {x : SelfTest} {j : Nat} (hx : s.arb.test = some x) (hq : s.arb.tests = [])
    (h : x.phase = .copyOut) (hj : s.spareAt x.standin = some j) :
    s.abandonTest.arb = { s.arb with test := none, retries := s.arb.retries ++ [(x.square, s.now + 60000000000)] }
    ∧ s.abandonTest.squares.standin.get (fun _ => false) x.square.val = false ∧ bitOf s.abandonTest.freeSpares j = true := by
  obtain ⟨ha, hy, hst, hf, -⟩ := s.endTest_effect x hj
  have harb : ((s.endTest x).deferTest x.square (s.now - x.since)).arb = { s.arb with
      test := none, retries := s.arb.retries ++ [(x.square, s.now + 60000000000)] } := by
    unfold State.deferTest State.now
    dsimp only
    rw [State.record_arb, State.record_sys, ha, hy]
  unfold State.abandonTest
  simp only [hx, h, ne_eq, not_true_eq_false, if_false]
  rw [State.nextTest_none (by rw [harb]; exact hq)]
  exact ⟨harb, hst, hf⟩

theorem State.abandonTest_later {s : State} {x : SelfTest} (hx : s.arb.test = some x) (h : x.phase ≠ .copyOut) :
    s.abandonTest = s := by
  unfold State.abandonTest
  simp only [hx]
  exact if_pos h

/-! ### O49 -/

theorem execSquarePromotion_head {q : Fin 64} {rest : List (Fin 64)} {s : State} (us : Nat) (hp : s.squares.promotions = q :: rest)
    (ha : s.arbiterRuns = true) (hd : s.sys.devState ≠ .safe) (ht : s.arb.test = none) :
    exec (.squarePromotion q us) s = done s
      (({ s with squares := { s.squares with promotions := rest } } : State).promoteSpare q.val us).nextTest := by
  show execSquarePromotion q us s = _
  unfold execSquarePromotion
  simp only [hp, ha, hd, ne_eq, not_false_eq_true, and_self, if_true]
  unfold State.promote
  simp only [ht]

/-- R534: the square that has waited longest takes the lowest free spare. -/
theorem squarePromotion_completesIn {q : Fin 64} {us j : Nat} {rest : List (Fin 64)} {s : State} (halive : s.alive = true)
    (hp : s.squares.promotions = q :: rest) (ha : s.arbiterRuns = true) (hd : s.sys.devState ≠ .safe) (ht : s.arb.test = none)
    (hj : s.lowSpare = some j) :
    CompletesIn (.squarePromotion q us) s (fun t => t.phys q.val = s.sparePos j
      ∧ bitOf t.freeSpares j = false ∧ t.squares.promotions = rest
      ∧ (∀ p, (t.regB (intBank p (pgSq q.val 0)) (pgSq q.val 0) hIntStatus).getLsbD 4 = true)
      ∧ ∀ pn ∈ sqPages q.val, t.page pn = (s.page pn).promoted pn) := by
  refine completesIn_of_done halive (execSquarePromotion_head us hp ha hd ht) fun t hr => ?_
  have hj' : State.lowSpare { s with squares := { s.squares with promotions := rest } } = some j := hj
  unfold State.promoteSpare at hr
  rw [hj'] at hr
  change Answers (State.nextTest (State.promoteTo (State.setSpareFree _ j false) q.val (s.sparePos j) us)) t at hr
  generalize hs1 : State.setSpareFree { s with squares := { s.squares with promotions := rest } } j false = s1 at hr
  obtain ⟨hphys, hprom, hfree, hbit, hpage⟩ := s1.promoteTo_effect q (s.sparePos j) us
  generalize s1.promoteTo q.val (s.sparePos j) us = u at hr hphys hprom hfree hbit hpage
  have hl := TestsLookedAt.nextTest u
  have hfree0 : bitOf s1.freeSpares j = false := by
    rw [← hs1]
    exact (State.bitOf_freeSpares_setSpareFree _ (State.lowSpare_lt hj) false j).trans (if_pos rfl)
  refine ⟨?_, ?_, ?_, fun p => ?_, fun pn hpn => ?_⟩
  · rw [hr.phys, ← hphys]
    unfold State.phys
    rw [← hl.remap]
  · rw [hr.freeSpares]
    exact hl.free j (by rw [hfree]; exact hfree0)
  · rw [hr.squares]
    refine hl.promotions.trans (hprom.trans ?_)
    rw [← hs1]
    rfl
  · have hb : intBank p (pgSq q.val 0) = 0 := by
      unfold intBank
      rw [(sqStatus_key q).1]
      rfl
    rw [hb, ← State.reg_eq_regB, hr.reg (sqStatus_key q).2]
    refine (congrArg (fun w : Word => w.getLsbD 4) (hl.regs _ ?_)).trans hbit
    unfold pgSq R.DEV_SPARES
    omega
  · rw [hr.page]
    show u.nextTest.drs.pages.get _ pn = _
    rw [hl.pages]
    refine (hpage pn hpn).trans ?_
    rw [← hs1]
    rfl

/-- SELFTEST of one square, and SELFTEST_RETRY, ask for its test. -/
theorem selftest_asks {c : Instr} {q : Fin 64} {s s1 : State}
    (hc : (c = .selftest q.val ∧ s1 = s) ∨ (c = .selftestRetry q ∧ ∃ r, s.arb.retries.find? (fun r => r.1 = q) = some r
      ∧ s1 = ({ s with arb := { s.arb with retries := s.arb.retries.erase r } }).reach r.2)) :
    exec c s = done s (s1.askTests [q]) := by
  rcases hc with ⟨rfl, rfl⟩ | ⟨rfl, r, hr, rfl⟩
  · show execSelftest q.val s1 = _
    unfold execSelftest
    rw [if_neg (Nat.ne_of_lt q.isLt), dif_pos q.isLt]
  · show execSelftestRetry q s = _
    unfold execSelftestRetry
    rw [hr]

/-- Settles O49: each event of a promotion or a self-test completes with the effect that the lemmas above give, and what the
interrupts at its end add concerns none of it. -/
theorem sparesAndSelfTests : Obligations.SparesAndSelfTests := by
  unfold Obligations.SparesAndSelfTests
  refine ⟨?promotion, ?asked, ?effecters, ?underWay⟩
  case promotion =>
    intro q us rest s halive hp ha hd ht
    refine ⟨fun j hj => ?_, fun hj => completes_of_done halive ?_⟩
    · obtain ⟨t, hx, hphys, hfree, hprom, hbit, hpage⟩ := squarePromotion_completesIn (us := us) halive hp ha hd ht hj
      refine ⟨t, hx, hphys, hfree, hprom, hbit, fun pn hpn => ?_⟩
      rw [hpage pn hpn]
      simp [Page.promoted]
    · rw [execSquarePromotion_head us hp ha hd ht]
      unfold State.promoteSpare
      rw [show State.lowSpare { s with squares := { s.squares with promotions := rest } } = none from hj]
  case asked =>
    intro c q s s1 halive hc ha hr
    have he := (selftest_asks hc).trans (congrArg (done s) (State.askTests_ready [q] ha hr))
    refine ⟨fun x hx => completes_of_done halive (he.trans ?_), fun ht hj => ?_, fun ht j hj out q' rest hq hout hable => ?_⟩
    · rw [State.nextTest_busy (t := x) (by exact hx)]
    · refine completesIn_of_done halive he fun t hrs => ?_
      rw [hrs.arb, State.nextTest_free (by exact ht)]
      obtain ⟨h1, h2, h3⟩ := State.startTests_noSpare (s1.arb.tests ++ [q])
        { s1 with arb := { s1.arb with tests := s1.arb.tests ++ [q] } } hr hj rfl
      exact ⟨h1.trans ht, h2, h3⟩
    · refine completesIn_of_done halive he fun t hrs => ?_
      rw [hrs.arb, hrs.freeSpares, State.nextTest_free (by exact ht)]
      show bitOf (State.startTests (s1.arb.tests ++ [q]) _).freeSpares j = false ∧ (State.startTests (s1.arb.tests ++ [q]) _).arb.tests = rest
        ∧ (State.startTests (s1.arb.tests ++ [q]) _).arb.test = _
      rw [hq]
      exact State.startTests_first out _ hr hj hout hable
  case effecters =>
    intro s halive ha
    refine ⟨fun h => completes_of_done halive (congrArg (done s) (if_pos ha)), fun n hn => completes_of_done halive ?_,
      fun h0 => completes_of_done halive ?_, fun c hc hr => completes_of_done halive ?_⟩
    · show execSelftest n s = _
      unfold execSelftest
      rw [if_neg (by omega), dif_neg (by omega)]
    · show execSelftestCycle s = _
      unfold execSelftestCycle
      rw [if_neg (by simpa using h0)]
    · rw [← State.askTests_ready (List.finRange 64) ha hr]
      rcases hc with rfl | ⟨rfl, hp⟩
      · rfl
      · exact congrArg (done s) (if_pos hp)
  case underWay =>
    intro x s halive hx hq
    refine ⟨fun h => completes_of_done halive (congrArg (done s) (State.copied_waits hx h)), fun hi hph => ?_, fun j hj => ⟨?_, ?_, ?_⟩,
      fun ht hs hk => completes_of_done halive (congrArg (done s) (State.tested_pass hx ht hs hk)), fun ht pass h => ?_,
      fun h pass => completes_of_done halive (congrArg (done s) (State.tested_idle hx h pass)),
      fun h => completes_of_done halive (congrArg (done s) (State.abandonTest_later hx h))⟩
    · refine completesIn_of_done halive (e := s.copied) rfl fun t hr => ?_
      rw [hr.phys, hr.squares, hr.arb]
      exact State.copied_copyOut hx hi hph
    · intro hi hph
      obtain ⟨harb, -, hst, hf, hphys⟩ := s.endTest_effect x hj
      have he : s.copied = s.endTest x := by
        rw [State.copied_copyBack hx hi hph]
        exact State.nextTest_none (by rw [harb]; exact hq)
      refine completesIn_of_done halive (congrArg (done s) he) fun t hr => ?_
      simp only [hr.phys, hr.squares, hr.arb, hr.freeSpares]
      exact ⟨hphys (by rw [hph]; decide), congrArg Arb.test harb, hst, hf⟩
    · intro ht hs hk
      refine completesIn_of_done halive (e := s.tested true) rfl fun t hr => ?_
      simp only [hr.sparePos, hr.squares, hr.arb, hr.freeSpares]
      exact State.tested_solo hx hq ht hs hk hj
    · intro hph
      refine completesIn_of_done halive (e := s.abandonTest) rfl fun t hr => ?_
      obtain ⟨harb, hst, hf⟩ := State.abandonTest_copyOut hx hq hph hj
      simp only [hr.squares, hr.arb, hr.freeSpares]
      exact ⟨⟨congrArg Arb.test harb, hst, hf⟩, congrArg Arb.retries harb⟩
    · refine completesIn_of_done halive (e := s.tested pass) rfl fun t hr => ?_
      obtain ⟨h1, h2, h3⟩ := State.tested_fail hx hq ht h
      rw [hr.squares, hr.arb]
      refine ⟨h1, h2, fun i => ?_⟩
      unfold State.phys
      rw [hr.squares]
      exact congrArg (fun m => m.get (fun q => q) i) h3

end Sys2Proof.Machine
end

section
/-!
SUPPORT. What counting a fault and reaching device memory leave alone, tallies, and the Arbiter's recovery state: one law per
operation, and how a MGMT message reaches the operation it asks for (R544).
-/

namespace Sys2Proof.Machine

open Sys2Proof

/-! ### Counting a fault, and device memory -/

/-- `t` is `s` after an access to device memory, with the faults that it has counted: the device, the partitions, the root of trust,
the Arbiter and the recovery of its group are as before. -/
structure FaultCounted (s t : State) : Prop where
  sys : t.sys = s.sys
  pt : t.pt = s.pt
  rot : t.rot = s.rot
  arb : t.arb = s.arb
  rcv : t.rcv = s.rcv

namespace FaultCounted

theorem refl (s : State) : FaultCounted s s := ⟨rfl, rfl, rfl, rfl, rfl⟩

theorem trans {a b c : State} (h : FaultCounted a b) (h' : FaultCounted b c) : FaultCounted a c :=
  ⟨h'.sys.trans h.sys, h'.pt.trans h.pt, h'.rot.trans h.rot, h'.arb.trans h.arb, h'.rcv.trans h.rcv⟩

theorem foldl {β : Type} (f : State → β → State) (h : ∀ s x, FaultCounted s (f s x)) (l : List β) (s : State) :
    FaultCounted s (l.foldl f s) := by
  induction l generalizing s with
  | nil => exact refl s
  | cons a t ih => exact (h s a).trans (ih _)

theorem ofEvents {s t : State} (h : PageEvents s t) : FaultCounted s t := by
  rw [h.same]
  exact ⟨rfl, rfl, rfl, rfl, rfl⟩

section

variable {s t : State} (h : FaultCounted s t)
include h

theorem setReg (pn off : Nat) (v : Word) : FaultCounted s (t.setReg pn off v) := h.trans ⟨rfl, rfl, rfl, rfl, rfl⟩
theorem setErr (b : Nat) (e : ErrSet) : FaultCounted s (t.setErr b e) := h.trans ⟨rfl, rfl, rfl, rfl, rfl⟩
theorem setChan (k ch : Nat) (c : Chan) : FaultCounted s (t.setChan k ch c) := h.trans ⟨rfl, rfl, rfl, rfl, rfl⟩
theorem setSpare (k j : Nat) (x : Spare) : FaultCounted s (t.setSpare k j x) := h.trans ⟨rfl, rfl, rfl, rfl, rfl⟩
theorem setMemMark (g m : Nat) : FaultCounted s (t.setMemMark g m) := h.trans ⟨rfl, rfl, rfl, rfl, rfl⟩
theorem setMemCell (a : Nat) (c : Cell) : FaultCounted s (t.setMemCell a c) := h.trans ⟨rfl, rfl, rfl, rfl, rfl⟩
theorem record (kind : Nat) (p : Fin 16) (x v : Nat) : FaultCounted s (t.record kind p x v) := h.trans ⟨rfl, rfl, rfl, rfl, rfl⟩

theorem bump (pn off n : Nat) : FaultCounted s (t.bump pn off n) := h.setReg _ _ _

theorem bump64 (pn off n : Nat) : FaultCounted s (t.bump64 pn off n) := (h.setReg _ _ _).setReg _ _ _

theorem statusAll (pn bit : Nat) : FaultCounted s (t.statusAll pn bit) := h.trans (ofEvents (PageEvents.statusAll t pn bit))

theorem retirePage (pn : Nat) : FaultCounted s (t.retirePage pn) := h.trans (ofEvents (PageEvents.toPage t pn _))

theorem statusUnless (c : Prop) [Decidable c] (pn bit : Nat) : FaultCounted s (if c then t else t.statusAll pn bit) := by
  split
  · exact h
  · exact h.statusAll pn bit

/-- What the end of a command leaves on its engine's page. -/
theorem noteEnd (j : Job) (code : Nat) : FaultCounted s (t.noteEnd j code) := by
  unfold State.noteEnd
  dsimp only
  split
  · exact h
  split
  · split
    · exact h
    · exact h.setReg _ _ _
  split
  · exact (h.setReg _ _ _).statusUnless _ _ _
  split
  · exact (((h.setReg _ _ _).setReg _ _ _).setReg _ _ _).statusUnless _ _ _
  split
  · exact h.setReg _ _ _
  split
  · split
    · exact (h.setReg _ _ _).statusUnless _ _ _
    · exact h
  · exact h

theorem endNoted (p : Job → Bool) (code : Nat) : FaultCounted s (t.endNoted p code) :=
  (h.trans (foldl _ (fun u j => noteEnd (refl u) j code) (t.sch.jobs.filter (fun j => p j && j.live)) t)).trans
    ⟨rfl, rfl, rfl, rfl, rfl⟩

theorem retireSquare (q : Nat) : FaultCounted s (t.retireSquare q) := by
  unfold State.retireSquare
  split
  · exact h
  · have h2 := (h.trans (foldl _ (fun u pn => retirePage (refl u) pn) (sqPages q) t)).endNoted (Job.onSquare q) cUnitFault
    dsimp only
    generalize ((sqPages q).foldl State.retirePage t).endNoted (Job.onSquare q) cUnitFault = s2 at h2 ⊢
    exact h2.trans ⟨rfl, rfl, rfl, rfl, rfl⟩

theorem copyToSpare (k ch : Nat) : FaultCounted s (t.copyToSpare k ch) := by
  unfold State.copyToSpare
  dsimp only
  split
  · exact (h.setChan _ _ _).statusAll _ _
  · exact ((h.setChan _ _ _).setChan _ _ _).setSpare _ _ _

theorem startSpareCopy (k ch : Nat) : FaultCounted s (t.startSpareCopy k ch) := by
  unfold State.startSpareCopy
  split
  · exact h.copyToSpare _ _
  · exact ((h.setChan _ _ _).setSpare _ _ _).copyToSpare _ _
  · exact h

theorem declareLasting (base : Nat) : FaultCounted s (t.declareLasting base) := by
  have h3 := ((h.setErr base { t.err base with lasting := true }).statusAll (base / 4096) 2).record 0x100 0
    (bitsOf base 23 12 * 256 + errUnit base) 1
  unfold State.declareLasting
  dsimp only
  generalize ((t.setErr base { t.err base with lasting := true }).statusAll (base / 4096) 2).record 0x100 0
    (bitsOf base 23 12 * 256 + errUnit base) 1 = s3 at h3 ⊢
  split
  iterate 4 exact h3.retireSquare _
  · exact h3.startSpareCopy _ _
  iterate 2 exact h3.retirePage _
  · exact h3.trans ⟨rfl, rfl, rfl, rfl, rfl⟩
  · exact h3

theorem countFault (base n : Nat) : FaultCounted s (t.countFault base n) := by
  unfold State.countFault State.checkLasting
  dsimp only
  split
  · exact (h.setErr _ _).declareLasting _
  · exact h.setErr _ _

theorem chanEvent (g m : Nat) (u : Bool) : FaultCounted s (t.chanEvent g m u) := by
  unfold State.chanEvent
  dsimp only
  refine FaultCounted.countFault ?_ _ _
  split
  · exact ((((h.setReg _ _ _).setReg _ _ _).statusAll _ _).statusAll _ _).bump _ _ _
  · exact (((h.setReg _ _ _).setReg _ _ _).statusAll _ _).statusAll _ _

theorem memFind (g : Nat) : FaultCounted s (t.memFind g).2 := by
  unfold State.memFind
  dsimp only
  split
  · exact h
  · split
    · exact (h.setMemMark _ _).chanEvent _ _ _
    · exact h.chanEvent _ _ _

/-- Cells put into a granule, and the count of the write. -/
theorem putCells (pn : Nat) (part : List (Nat × Cell)) :
    FaultCounted s (part.foldl (fun s (x : Nat × Cell) => s.setMemCell x.1 x.2) (t.bump64 pn R.MEM_WR_LO 1)) :=
  (h.bump64 pn R.MEM_WR_LO 1).trans (foldl _ (fun u x => setMemCell (refl u) x.1 x.2) part _)

theorem writeGranule (g : Nat) (part : List (Nat × Cell)) : FaultCounted s (t.writeGranule g part).2 := by
  unfold State.writeGranule
  dsimp only
  split
  · exact (h.setMemMark g 0).putCells _ part
  · dsimp only
    split
    · exact (h.memFind g).putCells _ part
    · exact h.memFind g

/-- A write to device memory, allowed or not, waiting or not. -/
theorem memWriteCells (p : Fin 16) (src a : Nat) (cs : List Cell) : FaultCounted s (t.memWriteCells p src a cs).2 := by
  unfold State.memWriteCells
  split
  · exact h.record _ _ _ _
  split
  · exact h
  unfold State.memWriteRaw
  dsimp only
  generalize cs.zipIdx.map (fun x => (a + x.2, x.1)) = tagged
  have key : ∀ (l : List Nat) (y : Bool × State), FaultCounted s y.2 → FaultCounted s (l.foldl (fun (y : Bool × State) g =>
      ((y.1 && (y.2.writeGranule g (tagged.filter (fun x => x.1 / 64 = g))).1 : Bool),
        (y.2.writeGranule g (tagged.filter (fun x => x.1 / 64 = g))).2)) y).2 := by
    intro l
    induction l with
    | nil => exact fun _ hy => hy
    | cons g u ih => exact fun y hy => ih _ (hy.writeGranule g _)
  exact key _ (true, t) h

end

end FaultCounted

/-! ### Tallies -/

/-- A tally's new value, with the waits it releases, concerns the scheduler alone. -/
theorem State.releaseWaits_keeps {γ : Type} (g : State → γ) (hg : ∀ s w, g { s with sch := { s.sch with waits := w } } = g s)
    (hc : ∀ s n c, g (State.setCtx s n c) = g s) (s : State) (n : Nat) : g (s.releaseWaits n) = g s := by
  unfold State.releaseWaits
  refine (foldl_keeps g _ (fun s c => ?_) _ _).trans (hg s _)
  split
  · exact hc _ _ _
  · rfl

@[simp] theorem State.putTally_rcv (s : State) (n : Nat) (v : Word) : (s.putTally n v).rcv = s.rcv :=
  State.releaseWaits_keeps State.rcv (fun _ _ => rfl) (fun _ _ _ => rfl) _ n

@[simp] theorem State.putTally_drs (s : State) (n : Nat) (v : Word) : (s.putTally n v).drs = s.drs :=
  State.releaseWaits_keeps State.drs (fun _ _ => rfl) (fun _ _ _ => rfl) _ n

@[simp] theorem State.tally_putTally (s : State) (n : Nat) (v : Word) : (s.putTally n v).tally n = v :=
  (State.releaseWaits_keeps (fun s => s.tally n) (fun _ _ => rfl) (fun _ _ _ => rfl) _ n).trans (FMap.get_set_same _ _ _ _)

@[simp] theorem State.holdGo_rcv (s : State) (n : Nat) (v : Word) : (s.holdGo n v).rcv = s.rcv := by
  unfold State.holdGo
  split
  · rfl
  · refine foldl_keeps State.rcv _ (fun s a => ?_) _ s
    split
    · exact State.putTally_rcv _ _ _
    · rfl

/-! ### The recovery state -/

@[simp] theorem State.adjOf_setAdj (s : State) (p : Fin 16) (a : Adj) : (s.setAdj p a).adjOf p = a := FMap.get_set_same _ _ _ _

theorem State.adjOf_congr {s t : State} (h : t.rcv = s.rcv) (p : Fin 16) : t.adjOf p = s.adjOf p := by
  unfold State.adjOf
  rw [h]

theorem Answers.adjOf {e t : State} (h : Answers e t) (p : Fin 16) : t.adjOf p = e.adjOf p := State.adjOf_congr h.rcv p

theorem Answers.tally {e t : State} (h : Answers e t) (n : Nat) : t.tally n = e.tally n := by
  unfold State.tally
  rw [h.sch]

@[simp] theorem State.reach_rcv (s : State) (t : Nat) : (s.reach t).rcv = s.rcv := by
  unfold State.reach
  split <;> rfl

theorem State.withPlan_some {s : State} {pl : Plan} (h : s.rcv.plan = some pl) (f : Plan → State → State) :
    s.withPlan f = f pl s := by
  simp [State.withPlan, h]

theorem State.withAdj_some {s : State} {p : Fin 16} {pl : Plan} {a : AdjPlan} (h : s.rcv.plan = some pl) (ha : pl.adj? p = some a)
    (f : Plan → AdjPlan → State → State) : s.withAdj p f = f pl a s := by
  simp [State.withAdj, State.withPlan_some h, ha]

/-- A message to another device leaves by the fabric: neither the recovery state nor the scheduler knows of it. -/
theorem State.mgmt_other {s : State} {dst : BitVec 16} (h : dst ≠ s.devId) (kind : Nat) (bs : List Byte) :
    (s.mgmt dst kind bs).rcv = s.rcv ∧ (s.mgmt dst kind bs).sch = s.sch := by
  unfold State.mgmt
  simp only [if_neg h]
  rw [(Raised.forward s _).same]
  exact ⟨rfl, rfl⟩

/-- Who is in a list of numbered findings. -/
theorem any_fst_eq_contains {α : Type} (ds : List (Nat × α)) (m : Nat) :
    ds.any (fun d => decide (d.1 = m)) = (ds.map (·.1)).contains m := by
  rw [Bool.eq_iff_iff]
  simp [List.any_eq_true]

/-! ### Messages that arrive (R544) -/

theorem State.arbiterActs_runs {s : State} (h : s.arbiterRuns = true) (f : State → State) :
    s.arbiterActs f = State.readMail 4096 (f s) := if_pos h

/-- With no mail left, reading it does nothing. -/
theorem State.arbiterActs_noMail {s t : State} {f : State → State} (h : s.arbiterRuns = true) (hf : f s = t) (hm : t.rcv.mail = []) :
    s.arbiterActs f = t := by
  rw [State.arbiterActs_quiet h (by rw [hf]; exact hm), hf]

/-- A MGMT packet of its kind is taken, and the mail it causes is read. -/
theorem State.mgmtAs_taken {s : State} {q : Packet} {kind : Nat} {rep : Option Nat} (h : s.isMgmt q kind rep) :
    s.mgmtAs kind rep q = s.arbiterActs (fun s => s.mgmtIn q) := by
  obtain ⟨htype, hdst, hkind, hrep⟩ := h
  refine if_pos ⟨htype, hdst, hkind, ?_⟩
  cases rep with
  | none => rfl
  | some n => simp [hrep n rfl]

theorem State.mgmtIn_adjourn {s : State} {q : Packet} {rep : Option Nat} (h : s.isMgmt q mkAdjourn rep) (t : State) :
    t.mgmtIn q = t.takeAdjourn q := by
  obtain ⟨-, -, hkind, -⟩ := h
  unfold State.mgmtIn
  simp only [hkind]
  rfl

theorem State.mgmtIn_seal {s : State} {q : Packet} {rep : Option Nat} (h : s.isMgmt q mkSealMsg rep) (t : State) :
    t.mgmtIn q = t.takeSeal q := by
  obtain ⟨-, -, hkind, -⟩ := h
  unfold State.mgmtIn
  simp only [hkind]
  rfl

theorem State.mgmtIn_report {s : State} {q : Packet} {rep : Option Nat} (h : s.isMgmt q mkReport rep) (t : State) :
    t.mgmtIn q = t.takeReport q := by
  obtain ⟨-, -, hkind, -⟩ := h
  unfold State.mgmtIn
  simp only [hkind]
  rfl

/-- A REPORT goes by its kind. -/
theorem State.isMgmt_kind {s : State} {q : Packet} {kind k : Nat} (h : s.isMgmt q kind (some k)) : payNum q 0 1 = k := by
  obtain ⟨-, -, -, hrep⟩ := h
  exact hrep k rfl

theorem State.mgmtIn_digest {s : State} {q : Packet} (h : s.isMgmt q mkReport (some rpDigest)) (t : State) :
    t.mgmtIn q = t.takeDigest q (Fin.ofNat 16 (payNum q 1 1)) (payNum q 8 8) := by
  rw [State.mgmtIn_report h]
  unfold State.takeReport
  simp only [State.isMgmt_kind h]
  rfl

theorem State.mgmtIn_late {s : State} {q : Packet} (h : s.isMgmt q mkReport (some rpLate)) (t : State) :
    t.mgmtIn q = t.takeLate (Fin.ofNat 16 (payNum q 1 1)) (payNum q 8 8) := by
  rw [State.mgmtIn_report h]
  unfold State.takeReport
  simp only [State.isMgmt_kind h]
  rfl

theorem State.mgmtIn_confirm {s : State} {q : Packet} (h : s.isMgmt q mkReport (some rpConfirm)) (t : State) :
    t.mgmtIn q = t.takeConfirm q (Fin.ofNat 16 (payNum q 1 1)) (payNum q 8 8) := by
  rw [State.mgmtIn_report h]
  unfold State.takeReport
  simp only [State.isMgmt_kind h]
  rfl

theorem State.mgmtIn_restored {s : State} {q : Packet} (h : s.isMgmt q mkReport (some rpRestored)) (t : State) :
    t.mgmtIn q = t.takeRestored q (Fin.ofNat 16 (payNum q 1 1)) := by
  rw [State.mgmtIn_report h]
  unfold State.takeReport
  simp only [State.isMgmt_kind h]
  rfl

end Sys2Proof.Machine
end

section
/-!
PROOF. Recovery plans, adjournments with their saves, and restores (R541 to R561): each operation in each of its cases, and O59.
-/

namespace Sys2Proof.Machine

open Sys2Proof

/-! ### Committing a plan (R543) -/

theorem State.byArbiter_runs {s : State} (h : s.arbiterRuns = true) (f : State → State) : s.byArbiter f = f s := if_pos h

theorem State.commitPlan_busy {s : State} (h : s.rcv.gstate ≠ .steady ∨ s.saving = true) : s.commitPlan = s.planResult 2 := if_pos h

section

variable {s s1 : State} (hg : s.rcv.gstate = .steady) (hs : s.saving = false)
include hg hs

theorem State.commitPlan_bad (hl : s.loadPlan = (none, s1)) : s.commitPlan = s1.planResult 1 := by
  simp [State.commitPlan, hg, hs, hl]

theorem State.commitPlan_takes {pl : Plan} (hl : s.loadPlan = (some pl, s1)) : s.commitPlan = s1.takePlan pl := by
  simp [State.commitPlan, hg, hs, hl]

end

/-- The recovery state of a device whose plan takes effect, but for the adjournments. -/
def State.planned (s : State) (pl : Plan) : Recovery :=
  { s.rcv with
    plan := some pl, result := 0, role := pl.roleOf s.devId, captain := pl.captain, deputy := pl.deputy, commitAt := s.now
    live := BitVec.ofNat 64 (2 ^ pl.members.length - 1), misses := emptyMap, bad := [], steps := emptyMap, gstate := .steady
    restoring := [], useOld := false, failures := [], waiting := [], fills := [], used := [], extra := [], taken := none
    filledSent := false, buddies := assignBuddies pl.members (BitVec.ofNat 64 (2 ^ pl.members.length - 1)) [], owes := []
    adj := emptyMap }

theorem State.takePlan_rcv (s : State) (pl : Plan) : { (s.takePlan pl).rcv with adj := emptyMap } = s.planned pl := by
  refine foldl_keeps (fun t : State => { t.rcv with adj := emptyMap }) _ (fun t a => ?_) pl.adjs _
  rw [State.holdGo_rcv]
  rfl

/-! ### An adjournment begins (R555, R556 step 1) -/

theorem State.sendAdjourn_eq {s : State} {p : Fin 16} {pl : Plan} {a : AdjPlan} (hpl : s.rcv.plan = some pl) (ha : pl.adj? p = some a) :
    s.sendAdjourn p = s.liveMembers.foldl (fun t m => t.mgmt (pl.dev m) mkAdjourn
        (leBytes 4 p.val ++ leBytes 4 ((s.topStep a + 2) % 2 ^ 32) ++ leBytes 8 ((s.adjOf p).seq + 1)))
      (s.setAdj p { s.adjOf p with
        seq := (s.adjOf p).seq + 1, step := (s.topStep a + 2) % 2 ^ 32, st := .saving, digests := [], times := [], confirmed := [] }) :=
  State.withAdj_some hpl ha _

theorem State.startAdjourn_begins {s : State} {p : Fin 16} (hc : s.rcv.role = .captain) (hg : s.rcv.gstate = .steady)
    (hs : s.savingOf p = false) : s.startAdjourn p = s.sendAdjourn p := by
  simp [State.startAdjourn, State.isCaptain, hc, hg, hs]

theorem State.startAdjourn_stays {s : State} {p : Fin 16} (h : s.savingOf p = true ∨ s.rcv.role ≠ .captain ∨ s.rcv.gstate ≠ .steady) :
    s.startAdjourn p = s := by
  unfold State.startAdjourn State.isCaptain
  rcases h with h | h | h <;> simp [h]

theorem State.intervalPassed_captain {s : State} {p : Fin 16} {pl : Plan} (hc : s.rcv.role = .captain) (hpl : s.rcv.plan = some pl) :
    s.intervalPassed p = (s.reach ((s.adjOf p).savedAt + (s.adjOf p).interval * 1000000000)).startAdjourn p := by
  simp [State.intervalPassed, State.isCaptain, hc, hpl]

theorem State.takeLate_repeats {s : State} {p : Fin 16} {seq : Nat} (hc : s.rcv.role = .captain) (hst : (s.adjOf p).st = .saving)
    (hseq : seq = (s.adjOf p).seq) : s.takeLate p seq = s.sendAdjourn p := by
  simp [State.takeLate, State.isCaptain, hc, hst, hseq]

/-! ### A member holds its GO tally (R556 step 2) -/

/-- The device has a part in the group's adjournments. -/
def State.servesGroup (s : State) : Prop := s.rcv.role ≠ .standby ∧ s.rcv.role ≠ .none

theorem State.servesGroup_from {s : State} {q : Packet} (hsrc : q.src = s.rcv.captain) (hr : s.servesGroup) :
    ¬ (q.src ≠ s.rcv.captain ∨ s.rcv.role = .standby ∨ s.rcv.role = .none) := by
  simp [hsrc, hr.1, hr.2]

section

variable {s : State} {q : Packet} {pl : Plan} {a : AdjPlan} (hpl : s.rcv.plan = some pl)
  (ha : pl.adj? (Fin.ofNat 16 (payNum q 0 1)) = some a) (hsrc : q.src = s.rcv.captain) (hr : s.servesGroup)
include hpl ha hsrc hr

theorem State.takeAdjourn_late (h : tallyReached (s.tally a.stepTally) (word (payNum q 4 4)) = true) :
    s.takeAdjourn q = s.report rpLate (Fin.ofNat 16 (payNum q 0 1)) (payNum q 8 8) 0 [] := by
  unfold State.takeAdjourn
  dsimp only
  rw [if_neg (State.servesGroup_from hsrc hr), State.withAdj_some hpl ha]
  exact if_pos h

theorem State.takeAdjourn_holds (h : tallyReached (s.tally a.stepTally) (word (payNum q 4 4)) = false) :
    s.takeAdjourn q = ((s.dropCopies (Fin.ofNat 16 (payNum q 0 1))).setAdj (Fin.ofNat 16 (payNum q 0 1))
      { s.adjOf (Fin.ofNat 16 (payNum q 0 1)) with
        seq := payNum q 8 8, step := payNum q 4 4, st := .saving, goAt := some (payNum q 4 4), saveFrom := none }).putTally
        a.goTally (word (payNum q 4 4)) := by
  unfold State.takeAdjourn
  dsimp only
  rw [if_neg (State.servesGroup_from hsrc hr), State.withAdj_some hpl ha]
  exact if_neg (by rw [h]; exact Bool.false_ne_true)

/-- A SEAL is kept with the slot of its adjournment (R556 step 6). -/
theorem State.takeSeal_kept {i : Nat} {x : CopySlot}
    (hi : i = if (nth none (s.adjOf (Fin.ofNat 16 (payNum q 0 1))).own 0).any (fun c => c.seq = payNum q 8 8) then 0 else 1)
    (hx : nth none (s.adjOf (Fin.ofNat 16 (payNum q 0 1))).own i = some x) (hseq : x.seq = payNum q 8 8) :
    let ad1 := { s.adjOf (Fin.ofNat 16 (payNum q 0 1)) with
      own := setNth (s.adjOf (Fin.ofNat 16 (payNum q 0 1))).own i (some { x with sealed := (q.payload.drop 16).take 64 }) }
    let ad2 := if s.isCaptain then ad1 else if s.allBuddied then ad1.secure else { ad1 with st := .exposed }
    s.takeSeal q = ((s.setAdj (Fin.ofNat 16 (payNum q 0 1)) ad2).sendSlot pl a i).modRcv (fun r =>
      { r with owes := r.owes ++ s.wards.map (fun m => (Fin.ofNat 16 (payNum q 0 1), m)) }) := by
  unfold State.takeSeal
  dsimp only
  rw [if_neg (State.servesGroup_from hsrc hr), State.withAdj_some hpl ha]
  subst hi
  simp only [hx, hseq, Option.filter_some, decide_true, if_true]

end

/-! ### Saving (R556 steps 3 and 4) -/

/-- The configuration block is laid down, the own slot is entered, and the copies are asked for. -/
theorem State.beginSave_eq (s : State) (p : Fin 16) (a : AdjPlan) (goal : Nat) : s.beginSave p a goal =
    ((s.fresh.2.memWriteCells p s.devId.toNat (a.slotAt (s.adjOf p).saveSlot) (openCells s.fresh.1 configSize)).2.setAdj p
      { s.adjOf p with
        saveFrom := some s.now
        own := setNth (s.adjOf p).own (s.adjOf p).saveSlot (some ⟨(s.adjOf p).seq, goal, s.snapshot p, [], []⟩) }).askCopies
      ((shardRuns a (a.slotAt (s.adjOf p).saveSlot + configSize)).map (fun r => ⟨p, r.1, none, r.2.1, r.2.2, false⟩)) := by
  unfold State.beginSave
  rfl

@[simp] theorem State.adjOf_askCopies (s : State) (xs : List ArbCopy) (p : Fin 16) : (s.askCopies xs).adjOf p = s.adjOf p := rfl

@[simp] theorem State.copies_askCopies (s : State) (xs : List ArbCopy) : (s.askCopies xs).rcv.copies = s.rcv.copies ++ xs := rfl

@[simp] theorem State.copies_setAdj (s : State) (p : Fin 16) (a : Adj) : (s.setAdj p a).rcv.copies = s.rcv.copies := rfl

theorem State.adjOf_beginSave (s : State) (p : Fin 16) (a : AdjPlan) (goal : Nat) : (s.beginSave p a goal).adjOf p = { s.adjOf p with
    saveFrom := some s.now
    own := setNth (s.adjOf p).own (s.adjOf p).saveSlot (some ⟨(s.adjOf p).seq, goal, s.snapshot p, [], []⟩) } := by
  rw [State.beginSave_eq, State.adjOf_askCopies, State.adjOf_setAdj]

theorem State.copies_beginSave (s : State) (p : Fin 16) (a : AdjPlan) (goal : Nat) : (s.beginSave p a goal).rcv.copies = s.rcv.copies
    ++ (shardRuns a (a.slotAt (s.adjOf p).saveSlot + configSize)).map (fun r => ⟨p, r.1, none, r.2.1, r.2.2, false⟩) := by
  have hfresh : FaultCounted s s.fresh.2 := ⟨rfl, rfl, rfl, rfl, rfl⟩
  have h := (hfresh.memWriteCells p s.devId.toNat (a.slotAt (s.adjOf p).saveSlot) (openCells s.fresh.1 configSize)).rcv
  rw [State.beginSave_eq, State.copies_askCopies, State.copies_setAdj, h]

section

variable {s : State} {p : Fin 16} {pl : Plan} {a : AdjPlan} (hpl : s.rcv.plan = some pl) (ha : pl.adj? p = some a)
include hpl ha

theorem State.saveNow_noGoal (h : (s.adjOf p).goAt = none) : s.saveNow p = s := by
  unfold State.saveNow
  rw [State.withAdj_some hpl ha]
  simp only [h]

theorem State.saveNow_before {goal : Nat} (h : (s.adjOf p).goAt = some goal)
    (ht : tallyReached (s.tally a.stepTally) (word goal) = false) : s.saveNow p = s := by
  unfold State.saveNow
  rw [State.withAdj_some hpl ha]
  simp [h, ht]

theorem State.saveNow_begins {goal : Nat} (h : (s.adjOf p).goAt = some goal)
    (ht : tallyReached (s.tally a.stepTally) (word goal) = true) (hf : (s.adjOf p).saveFrom = none) :
    s.saveNow p = (s.beginSave p a goal).pace := by
  unfold State.saveNow
  rw [State.withAdj_some hpl ha]
  simp [h, ht, hf]

theorem State.saveNow_goesOn {goal since : Nat} (h : (s.adjOf p).goAt = some goal)
    (ht : tallyReached (s.tally a.stepTally) (word goal) = true) (hf : (s.adjOf p).saveFrom = some since) :
    s.saveNow p = if s.copying p then s.pace else s.endSave p a goal since := by
  unfold State.saveNow
  rw [State.withAdj_some hpl ha]
  simp [h, ht, hf]

end

/-- A save ends, and another device is captain: the GO tally goes on, no save is due, and the mail is as before. -/
theorem State.endSave_member {s : State} (p : Fin 16) (a : AdjPlan) (goal since : Nat) (hc : s.rcv.captain ≠ s.devId) :
    (s.endSave p a goal since).rcv.mail = s.rcv.mail ∧ ((s.endSave p a goal since).adjOf p).goAt = none
    ∧ ((s.endSave p a goal since).adjOf p).saveFrom = none ∧ (s.endSave p a goal since).tally a.goTally = word (goal + 2 ^ 30) := by
  unfold State.endSave State.report
  dsimp only
  generalize hs1 : s.setAdj p { s.adjOf p with
    goAt := none, saveFrom := none
    own := setNth (s.adjOf p).own (s.adjOf p).saveSlot ((nth none (s.adjOf p).own (s.adjOf p).saveSlot).map (fun c =>
      { c with digests := (a.shards (s.adjOf p).saveSlot).map (fun r => Config.sha512 (s.bytesAt r.1 r.2)) })) } = s1
  have hm : s1.rcv.mail = s.rcv.mail := by rw [← hs1]; rfl
  have hcap : s1.rcv.captain = s.rcv.captain := by rw [← hs1]; rfl
  have hdev : s1.drs = s.drs := by rw [← hs1]; rfl
  have had : (s1.adjOf p).goAt = none ∧ (s1.adjOf p).saveFrom = none := by
    rw [← hs1, State.adjOf_setAdj]
    exact ⟨rfl, rfl⟩
  generalize hs2 : s1.putTally a.goTally (word (goal + 2 ^ 30)) = s2
  have hr2 : s2.rcv = s1.rcv := by rw [← hs2, State.putTally_rcv]
  have hd2 : s2.drs = s.drs := by rw [← hs2, State.putTally_drs, hdev]
  have ht2 : s2.tally a.goTally = word (goal + 2 ^ 30) := by rw [← hs2, State.tally_putTally]
  have hne : s2.rcv.captain ≠ s2.devId := by
    unfold State.devId State.reg at hc ⊢
    rw [hr2, hcap, hd2]
    exact hc
  obtain ⟨hr, hsch⟩ := State.mgmt_other (s := s2.record 0x105 p ((s.adjOf p).seq % 2 ^ 32) ((s.now - since) / 1000 / 1000)) hne mkReport
    (leBytes 8 (rpDigest + 256 * p.val) ++ leBytes 8 (s.adjOf p).seq ++ leBytes 8 ((s.now - since) / 1000)
      ++ (memberDigest ((a.shards (s.adjOf p).saveSlot).map (fun r => Config.sha512 (s.bytesAt r.1 r.2)))
        ++ List.replicate 64 0#8).take 64)
  refine ⟨?_, ?_, ?_, ?_⟩
  · exact (congrArg Recovery.mail (hr.trans hr2)).trans hm
  · exact (congrArg Adj.goAt (State.adjOf_congr (hr.trans hr2) p)).trans had.1
  · exact (congrArg Adj.saveFrom (State.adjOf_congr (hr.trans hr2) p)).trans had.2
  · refine Eq.trans ?_ ht2
    exact congrArg (fun x : Sched => x.tallies.get (fun _ => 0) a.goTally) hsch

/-! ### Digests, confirmations and restores on the captain (R556 steps 5 and 7, R557, R559) -/

/-- The adjournment with a member's digest and save time entered. -/
def Adj.digested (ad : Adj) (m : Nat) (q : Packet) : Adj :=
  { ad with
    digests := (m, (q.payload.drop 24).take 64) :: ad.digests.filter (fun d => d.1 ≠ m)
    times := (m, payNum q 16 8) :: ad.times.filter (fun d => d.1 ≠ m) }

/-- Every live member is in a list. -/
def State.allLive (s : State) (xs : List Nat) : Bool := s.liveMembers.all (fun m => xs.contains m)

theorem State.allLive_fst {α : Type} (s : State) (ds : List (Nat × α)) :
    s.liveMembers.all (fun m => ds.any (fun d => decide (d.1 = m))) = s.allLive (ds.map (·.1)) := by
  unfold State.allLive
  simp only [any_fst_eq_contains]

section

variable {s : State} {q : Packet} {p : Fin 16} {pl : Plan} {m : Nat} (hpl : s.rcv.plan = some pl) (hm : pl.memberAt q.src = some m)
  (hc : s.rcv.role = .captain)
include hpl hm hc

theorem State.takeDigest_entered (hst : (s.adjOf p).st = .saving) (hs : s.savingOf p = true) (hseq : payNum q 8 8 = (s.adjOf p).seq) :
    s.takeDigest q p (payNum q 8 8) = if s.allLive (((s.adjOf p).digested m q).digests.map (·.1))
      then (s.setAdj p ((s.adjOf p).digested m q)).formSeal p pl else s.setAdj p ((s.adjOf p).digested m q) := by
  have hg : (!s.isCaptain || (s.adjOf p).st ≠ .saving || !s.savingOf p || decide ((s.adjOf p).seq ≠ payNum q 8 8)) = false := by
    simp [State.isCaptain, hc, hst, hs, hseq]
  unfold State.takeDigest
  rw [State.withPlan_some hpl, ← State.allLive_fst]
  simp only [hm, hg, Bool.false_eq_true, if_false]
  rfl

theorem State.takeConfirm_counted (hseq : payNum q 8 8 = (s.adjOf p).seq) (hst : (s.adjOf p).st = .saving ∨ (s.adjOf p).st = .exposed) :
    let now := ((s.adjOf p).confirmed ++ (List.range pl.members.length).filter (fun x => s.buddyOf x = some m)).eraseDups
    s.takeConfirm q p (payNum q 8 8) = s.setAdj p (if s.allLive now && s.allLive ((s.adjOf p).digests.map (·.1))
      then Adj.secure { s.adjOf p with confirmed := now } else { s.adjOf p with confirmed := now }) := by
  have hg : (!s.isCaptain || decide ((s.adjOf p).seq ≠ payNum q 8 8)
      || ((s.adjOf p).st ≠ .saving && (s.adjOf p).st ≠ .exposed)) = false := by
    rcases hst with h | h <;> simp [State.isCaptain, hc, hseq, h]
  unfold State.takeConfirm
  rw [State.withPlan_some hpl, ← State.allLive_fst]
  simp only [hm, hg, Bool.false_eq_true, if_false]
  rfl

theorem State.takeRestored_counted (hg : s.rcv.gstate = .restoring) :
    let s1 := s.setAdj p { s.adjOf p with restoredBy := (m :: (s.adjOf p).restoredBy).eraseDups }
    s.takeRestored q p = if s.rcv.restoring.all (fun x => s.allLive (s1.adjOf x.1).restoredBy)
      then s1.modRcv (fun r => { r with gstate := .steady, restoring := [], useOld := false, fills := [] }) else s1 := by
  have hgu : (!s.isCaptain || s.rcv.gstate ≠ .restoring) = false := by simp [State.isCaptain, hc, hg]
  unfold State.takeRestored
  rw [State.withPlan_some hpl]
  simp only [hm, hgu, Bool.false_eq_true, if_false]
  rfl

end

theorem State.restoreAsked_captain {s : State} (v : Word) (hc : s.rcv.role = .captain) :
    s.restoreAsked v = if s.rcv.gstate = .filling then s else s.restoreGroup (Fin.ofNat 16 (wbits v 27 24)) (wbits v 23 0) := by
  simp [State.restoreAsked, State.isCaptain, hc]

theorem State.restoreAsked_member {s : State} (v : Word) (hc : s.rcv.role ≠ .captain) (hr : s.servesGroup) :
    s.restoreAsked v = (s.restoreHere (Fin.ofNat 16 (wbits v 27 24)) (wbits v 23 0)).2 := by
  simp [State.restoreAsked, State.isCaptain, hc, hr.1, hr.2]

theorem State.restoreAsked_outside {s : State} (v : Word) (hr : ¬ s.servesGroup) : s.restoreAsked v = s := by
  have h : s.rcv.role = .standby ∨ s.rcv.role = .none := by
    by_cases hs : s.rcv.role = .standby
    · exact Or.inl hs
    · exact Or.inr (Decidable.byContradiction fun hn => hr ⟨hs, hn⟩)
  unfold State.restoreAsked State.isCaptain
  rcases h with h | h <;> simp [h]

/-! ### O59 -/

/-- What the Arbiter's action comes to on a live device whose Arbiter runs. -/
theorem completes_of_acts {c : Instr} {s t : State} {f : State → State} (halive : s.alive = true) (ha : s.arbiterRuns = true)
    (hc : exec c s = done s (s.arbiterActs f)) (hf : f s = t) : Completes c s (State.readMail 4096 t) :=
  completes_of_done halive (hc.trans (by rw [State.arbiterActs_runs ha, hf]))

/-- The same of an action that leaves no mail. -/
theorem completes_of_quiet {c : Instr} {s t : State} {f : State → State} (halive : s.alive = true) (ha : s.arbiterRuns = true)
    (hc : exec c s = done s (s.arbiterActs f)) (hf : f s = t) (hm : t.rcv.mail = []) : Completes c s t :=
  completes_of_done halive (hc.trans (by rw [State.arbiterActs_noMail ha hf hm]))

theorem completesIn_of_quiet {c : Instr} {s t : State} {f : State → State} {P : State → Prop} (halive : s.alive = true)
    (ha : s.arbiterRuns = true) (hc : exec c s = done s (s.arbiterActs f)) (hf : f s = t) (hm : t.rcv.mail = [])
    (hP : ∀ u, Answers t u → P u) : CompletesIn c s P :=
  completesIn_of_done halive (hc.trans (by rw [State.arbiterActs_noMail ha hf hm])) hP

theorem exec_commit_one {s : State} (ha : s.arbiterRuns = true) : exec (.commit 1) s = done s s.commitPlan :=
  congrArg (done s) ((State.byArbiter_runs ha _).trans (if_pos rfl))

/-- Settles O59: every command is the Arbiter's action of its name, whose cases the lemmas above give; where the action leaves this
device no mail of its own, reading it adds nothing. -/
theorem plansAndAdjournments : Obligations.PlansAndAdjournments := by
  unfold Obligations.PlansAndAdjournments
  intro s halive ha hmail
  refine ⟨fun v => ⟨completes_of_done halive (congrArg (done s) (State.byArbiter_runs ha _)),
      completes_of_done halive (congrArg (done s) (State.byArbiter_runs ha _))⟩,
    fun v hv => completes_of_done halive (congrArg (done s) ((State.byArbiter_runs ha _).trans (if_neg hv))),
    fun h => completes_of_done halive ((exec_commit_one ha).trans (congrArg (done s) (State.commitPlan_busy h))),
    ?commit, ?hostConfirm, ?adjournments⟩
  case commit =>
    intro hg hs s1
    refine ⟨fun hl => completes_of_done halive ((exec_commit_one ha).trans (congrArg (done s) (State.commitPlan_bad hg hs hl))),
      fun pl hl => completesIn_of_done halive
        ((exec_commit_one ha).trans (congrArg (done s) (State.commitPlan_takes hg hs hl))) fun t hr => ?_⟩
    have h := State.takePlan_rcv s1 pl
    rw [← hr.rcv] at h
    exact ⟨congrArg Recovery.plan h, congrArg Recovery.result h, congrArg Recovery.role h, congrArg Recovery.captain h,
      congrArg Recovery.deputy h, congrArg Recovery.gstate h, congrArg Recovery.live h, congrArg Recovery.buddies h⟩
  case hostConfirm =>
    intro v p ad
    have hc : exec (.hostConfirm v) s = done s (s.hostConfirm v) := congrArg (done s) (State.byArbiter_runs ha _)
    refine ⟨fun h => completes_of_done halive (hc.trans (congrArg (done s) (if_neg ?_))), fun h1 h2 =>
      completesIn_of_done halive (hc.trans (congrArg (done s) (if_pos ⟨h1, h2⟩))) fun t hr => ?_⟩
    · rcases h with h | h
      · exact fun hh => h hh.1
      · exact fun hh => hh.2 h
    · rw [hr.adjOf, State.adjOf_setAdj]
      by_cases he : (s.adjOf p).st = .exposed
      · rw [if_pos he]
        exact ⟨rfl, (if_pos he).symm, fun _ => rfl⟩
      · rw [if_neg he]
        exact ⟨rfl, (if_neg he).symm, fun h => absurd h he⟩
  case adjournments =>
    intro pl p a hpl hadj
    refine ⟨?begins, fun h => completes_of_quiet halive ha rfl (State.startAdjourn_stays h) hmail, ?adjourn,
      fun h => completes_of_quiet halive ha rfl (State.saveNow_noGoal hpl hadj h) hmail, ?save, ?digest, ?sealMsg, ?confirm, ?restore,
      ?restored⟩
    case begins =>
      intro c s1 hc hcap
      have hr1 : s1.rcv = s.rcv ∧ exec c s = done s (State.readMail 4096 (s1.sendAdjourn p)) := by
        rcases hc with ⟨rfl, rfl, hg, hs⟩ | ⟨rfl, rfl, hg, hs⟩ | ⟨q, rfl, rfl, hq, hp, hseq, hst⟩
        · refine ⟨rfl, (congrArg (done s1) (State.arbiterActs_runs ha _)).trans ?_⟩
          rw [State.startAdjourn_begins hcap hg hs]
        · refine ⟨State.reach_rcv _ _, (congrArg (done s) (State.arbiterActs_runs ha _)).trans ?_⟩
          rw [State.intervalPassed_captain hcap hpl, State.startAdjourn_begins (by rw [State.reach_rcv]; exact hcap) hg hs]
        · refine ⟨rfl, (congrArg (done s1) (State.mgmtAs_taken hq)).trans ?_⟩
          rw [State.arbiterActs_runs ha, State.mgmtIn_late hq, hp, State.takeLate_repeats hcap hst hseq]
      obtain ⟨hr1, he⟩ := hr1
      refine completes_of_done halive (he.trans ?_)
      rw [State.sendAdjourn_eq (by rw [hr1]; exact hpl) hadj, State.adjOf_congr hr1]
    case adjourn =>
      intro q hq hp hsrc hserves
      subst hp
      have hin := State.mgmtIn_adjourn hq s
      exact ⟨fun h => completes_of_acts halive ha (congrArg (done s) (State.mgmtAs_taken hq))
          (hin.trans (State.takeAdjourn_late hpl hadj hsrc hserves h)),
        fun h => completes_of_acts halive ha (congrArg (done s) (State.mgmtAs_taken hq))
          (hin.trans (State.takeAdjourn_holds hpl hadj hsrc hserves h))⟩
    case save =>
      intro goal hgoal
      refine ⟨fun h => completes_of_quiet halive ha rfl (State.saveNow_before hpl hadj hgoal h) hmail, fun h => ⟨fun hf =>
        ⟨completes_of_acts halive ha rfl (State.saveNow_begins hpl hadj hgoal h hf), State.adjOf_beginSave s p a goal,
          State.copies_beginSave s p a goal⟩, fun since hf => ?_⟩⟩
      have hnow := State.saveNow_goesOn hpl hadj hgoal h hf
      refine ⟨fun hcp => completes_of_acts halive ha rfl (hnow.trans (if_pos hcp)), fun hcp => completes_of_acts halive ha rfl
        (hnow.trans (if_neg (by rw [hcp]; exact Bool.false_ne_true))), fun hcp hcap => ?_⟩
      obtain ⟨h1, h2, h3, h4⟩ := State.endSave_member p a goal since hcap
      refine completesIn_of_quiet halive ha rfl (hnow.trans (if_neg (by rw [hcp]; exact Bool.false_ne_true))) (h1.trans hmail)
        fun t hr => ?_
      rw [hr.adjOf, hr.tally]
      exact ⟨h2, h3, h4⟩
    case digest =>
      intro q m hq hp hm hcap hst hs hseq ad1
      subst hp
      have hin := (State.mgmtIn_digest hq s).trans (State.takeDigest_entered hpl hm hcap hst hs hseq)
      exact ⟨fun h => completes_of_quiet halive ha (congrArg (done s) (State.mgmtAs_taken hq))
          (hin.trans (if_neg (fun ht => Bool.false_ne_true (h.symm.trans ht)))) hmail,
        fun h => completes_of_acts halive ha (congrArg (done s) (State.mgmtAs_taken hq)) (hin.trans (if_pos h))⟩
    case sealMsg =>
      intro q i x hq hp hsrc hserves hi hx hseq
      subst hp
      exact completes_of_acts halive ha (congrArg (done s) (State.mgmtAs_taken hq))
        ((State.mgmtIn_seal hq s).trans (State.takeSeal_kept hpl hadj hsrc hserves hi hx hseq))
    case confirm =>
      intro q b hq hp hb hcap hseq hst now full
      subst hp
      refine completesIn_of_quiet halive ha (congrArg (done s) (State.mgmtAs_taken hq))
        ((State.mgmtIn_confirm hq s).trans (State.takeConfirm_counted hpl hb hcap hseq hst)) hmail fun t hr => ?_
      rw [hr.adjOf, State.adjOf_setAdj]
      by_cases hf : full
      · rw [if_pos (by rw [Bool.and_eq_true]; exact hf)]
        exact ⟨rfl, fun h => absurd hf h, fun _ => ⟨rfl, rfl⟩⟩
      · rw [if_neg (by rw [Bool.and_eq_true]; exact hf)]
        exact ⟨rfl, fun _ => rfl, fun h => absurd h hf⟩
    case restore =>
      intro v hp
      subst hp
      refine ⟨fun hcap hg => completes_of_quiet halive ha rfl ((State.restoreAsked_captain v hcap).trans (if_pos hg)) hmail,
        fun hcap hg => completes_of_acts halive ha rfl ((State.restoreAsked_captain v hcap).trans (if_neg hg)),
        fun hcap hr => completes_of_acts halive ha rfl (State.restoreAsked_member v hcap hr),
        fun hr => completes_of_quiet halive ha rfl (State.restoreAsked_outside v hr) hmail⟩
    case restored =>
      intro q m hq hp hm hcap hg s1 every
      subst hp
      have hin := (State.mgmtIn_restored hq s).trans (State.takeRestored_counted hpl hm hcap hg)
      have hevery : s.rcv.restoring.all (fun x => s.allLive (s1.adjOf x.1).restoredBy) = true ↔ every := by
        simp [every, State.allLive, List.all_eq_true]
      exact ⟨fun h => completes_of_quiet halive ha (congrArg (done s) (State.mgmtAs_taken hq))
          (hin.trans (if_neg (fun ht => h (hevery.1 ht)))) hmail,
        fun h => completes_of_quiet halive ha (congrArg (done s) (State.mgmtAs_taken hq)) (hin.trans (if_pos (hevery.2 h))) hmail⟩

end Sys2Proof.Machine
end

section
/-!
SUPPORT. The codes of the number formats (R26 to R28): two's complement, the fields of a floating-point code, and the values that the
codes of each kind of format stand for.
-/

namespace Sys2Proof.Machine

open Sys2Proof

/-! ### Two's complement (R28) -/

theorem signed_of_lt {w n : Nat} (h : n < 2 ^ w) :
    signed w n = if n < 2 ^ (w - 1) then (n : Int) else (n : Int) - (2 ^ w : Nat) := by
  unfold signed
  rw [Nat.mod_eq_of_lt h]

theorem unsignedOf_natCast {w n : Nat} (h : n < 2 ^ w) : unsignedOf w n = n := by
  unfold unsignedOf
  rw [Int.emod_eq_of_lt (Int.natCast_nonneg n) (by exact_mod_cast h), Int.toNat_natCast]

theorem unsignedOf_signed {w n : Nat} (h : n < 2 ^ w) : unsignedOf w (signed w n) = n := by
  rw [signed_of_lt h]
  split
  · exact unsignedOf_natCast h
  · calc unsignedOf w ((n : Int) - (2 ^ w : Nat)) = unsignedOf w n := by unfold unsignedOf; rw [Int.sub_emod_right]
      _ = n := unsignedOf_natCast h

theorem signed_mem {w n : Nat} (hw : 0 < w) (h : n < 2 ^ w) :
    -((2 ^ (w - 1) : Nat) : Int) ≤ signed w n ∧ signed w n < (2 ^ (w - 1) : Nat) := by
  have hp : 2 ^ (w - 1) * 2 = 2 ^ w := Nat.two_pow_pred_mul_two hw
  rw [signed_of_lt h]
  split <;> omega

theorem Fmt.decode_u8 {code : Nat} (h : code < 2 ^ 8) : Fmt.u8.decode code = .ofInt code := by
  have hc : code % 2 ^ Fmt.u8.width = code := Nat.mod_eq_of_lt h
  unfold Fmt.decode
  rw [hc]

theorem Fmt.decode_signed {f : Fmt} (hf : f.isInt = true) (hu : f ≠ .u8) {code : Nat} (h : code < 2 ^ f.width) :
    f.decode code = .ofInt (signed f.width code) := by
  have hc : code % 2 ^ f.width = code := Nat.mod_eq_of_lt h
  unfold Fmt.decode
  rw [hc]
  cases f <;> cases hf
  case u8 => exact absurd rfl hu
  all_goals rfl

theorem Fmt.intRange_signed {f : Fmt} (hf : f.isInt = true) (hu : f ≠ .u8) :
    f.intRange = (-((2 ^ (f.width - 1) : Nat) : Int), ((2 ^ (f.width - 1) : Nat) : Int) - 1) := by
  cases f <;> cases hf
  case u8 => exact absurd rfl hu
  all_goals decide

theorem Fmt.width_pos (f : Fmt) : 0 < f.width := by cases f <;> decide

/-- A code of an integer format is the two's complement of an integer in the format's range. -/
theorem Fmt.decode_int {f : Fmt} (hf : f.isInt = true) {code : Nat} (h : code < 2 ^ f.width) :
    ∃ i, f.decode code = .ofInt i ∧ f.intRange.1 ≤ i ∧ i ≤ f.intRange.2 ∧ unsignedOf f.width i = code := by
  by_cases hu : f = .u8
  · subst hu
    exact ⟨code, Fmt.decode_u8 h, Int.natCast_nonneg code, Int.ofNat_le.2 (Nat.le_of_lt_succ h), unsignedOf_natCast h⟩
  · obtain ⟨hlo, hhi⟩ := signed_mem f.width_pos h
    rw [Fmt.intRange_signed hf hu]
    exact ⟨signed f.width code, Fmt.decode_signed hf hu h, hlo, Int.le_sub_one_of_lt hhi, unsignedOf_signed h⟩

/-! ### The powers of two (R27) -/

theorem Fmt.decode_e8m0 {code : Nat} (h : code < 2 ^ 8) :
    Fmt.e8m0.decode code = if code = 255 then .nan else .pow2 ((code : Int) - 127) := by
  have hc : code % 2 ^ Fmt.e8m0.width = code := Nat.mod_eq_of_lt h
  unfold Fmt.decode
  rw [hc, Val.pow2]

/-! ### The bits of a code -/

theorem shiftRight_shiftLeft_or_mod (n k : Nat) : n >>> k <<< k ||| n % 2 ^ k = n := by
  rw [← Nat.shiftLeft_add_eq_or_of_lt (Nat.mod_lt n (Nat.two_pow_pos k)), Nat.shiftLeft_eq, Nat.shiftRight_eq_div_pow,
    Nat.div_add_mod']

theorem b01_bitOf_top {n k : Nat} (h : n < 2 ^ (k + 1)) : b01 (bitOf n k) = n >>> k := by
  have hlt : n / 2 ^ k < 2 := Nat.div_lt_of_lt_mul (by rwa [← Nat.pow_succ])
  rw [bitOf, Nat.testBit_eq_decide_div_mod_eq, Nat.shiftRight_eq_div_pow, Nat.mod_eq_of_lt hlt]
  rcases Nat.le_one_iff_eq_zero_or_eq_one.1 (Nat.le_of_lt_succ hlt) with h0 | h1
  · simp [h0, b01]
  · simp [h1, b01]

theorem bitsOf_below (n k lo : Nat) (h : lo ≤ k + 1) : bitsOf n k lo = (n % 2 ^ (k + 1)) >>> lo := by
  rw [bitsOf, Nat.shiftRight_eq_div_pow, Nat.shiftRight_eq_div_pow, ← Nat.mod_mul_right_div_self, ← Nat.pow_add,
    Nat.add_sub_cancel' h]

/-! ### The figures of the floating-point formats (R26) -/

/-- What the figures of R26 have in common: a leading 1 and the fraction bits make the significant bits, sign, exponent and fraction
make the code, the exponent field 1 stands on the smallest unit, and the largest finite value has the largest exponent field that is
no infinity's, with every fraction bit set but in E4M3, where that code is NaN. -/
structure Fmt.RegularFigures (f : Fmt) : Prop where
  prec : f.ff.prec = f.ff.mbits + 1
  width : f.width = f.ff.ebits + f.ff.mbits + 1
  emin : f.ff.emin = 1 - f.ff.bias - f.ff.mbits
  maxE : ((2 ^ f.ff.ebits - 1 : Nat) : Int) = f.ff.maxE + f.ff.bias + f.ff.mbits + b01 f.ff.hasInf
  maxM : f.ff.maxM + 1 + b01 (f = .e4m3) = 2 ^ f.ff.prec
  two_mul_maxM : 2 ^ f.ff.prec ≤ 2 * f.ff.maxM
  emin_le_maxE : f.ff.emin ≤ f.ff.maxE
  ebits_pos : 0 < f.ff.ebits
  mbits_pos : 0 < f.ff.mbits

theorem Fmt.regularFigures {f : Fmt} (hf : f.isFloat = true) : f.RegularFigures := by
  cases f <;> cases hf <;> constructor <;> decide

/-! ### The fields of a floating-point code (R26) -/

theorem Fmt.width_eq_add_two {f : Fmt} (hf : f.isFloat = true) : ∃ k, f.width = k + 2 ∧ f.ff.mbits ≤ k + 1 := by
  obtain ⟨-, hw, -, -, -, -, -, he, hm⟩ := Fmt.regularFigures hf
  exact ⟨f.width - 2, by omega, by omega⟩

theorem Fmt.exponentField_le {f : Fmt} (hf : f.isFloat = true) (code : Nat) :
    bitsOf code (f.width - 2) f.ff.mbits ≤ 2 ^ f.ff.ebits - 1 := by
  obtain ⟨-, hw, -, -, -, -, -, he, hm⟩ := Fmt.regularFigures hf
  have hd : f.width - 2 + 1 - f.ff.mbits = f.ff.ebits := by omega
  rw [bitsOf, hd]
  exact Nat.le_sub_one_of_lt (Nat.mod_lt _ (Nat.two_pow_pos _))

/-- The code with given sign, exponent field and fraction (R26). -/
def Fmt.pack (f : Fmt) (s : Bool) (ex fr : Nat) : Nat := b01 s <<< (f.width - 1) ||| (ex <<< f.ff.mbits ||| fr)

/-- A code is made of its fields. -/
theorem Fmt.pack_fields {f : Fmt} (hf : f.isFloat = true) {code : Nat} (h : code < 2 ^ f.width) :
    f.pack (bitOf code (f.width - 1)) (bitsOf code (f.width - 2) f.ff.mbits) (code % 2 ^ f.ff.mbits) = code := by
  obtain ⟨k, hk, hlo⟩ := Fmt.width_eq_add_two hf
  have hlow := shiftRight_shiftLeft_or_mod (code % 2 ^ (k + 1)) f.ff.mbits
  rw [Nat.mod_mod_of_dvd _ (Nat.pow_dvd_pow 2 hlo)] at hlow
  rw [hk] at h
  simp only [Fmt.pack, hk, Nat.add_sub_cancel, Nat.succ_sub_one]
  rw [b01_bitOf_top h, bitsOf_below code k _ hlo, hlow, shiftRight_shiftLeft_or_mod]

/-! ### The values that floating-point codes spell (R26) -/

/-- A floating-point format holds the magnitude m × 2^e, written on the unit in the last place of its code (R26). -/
structure Fmt.Holds (f : Fmt) (m : Nat) (e : Int) : Prop where
  fits : m < 2 ^ f.ff.prec
  emin_le : f.ff.emin ≤ e
  unit : e = f.ff.emin ∨ 2 ^ f.ff.mbits ≤ m
  le_maxE : e ≤ f.ff.maxE
  le_maxM : e = f.ff.maxE → m ≤ f.ff.maxM

/-- The values that the codes of a floating-point format spell, NaN left aside (R26). -/
inductive Fmt.Spells (f : Fmt) : Nat → Val → Prop
  | inf (s : Bool) (h : f.ff.hasInf = true) : f.Spells (f.pack s (2 ^ f.ff.ebits - 1) 0) (.inf s)
  | subnormal (s : Bool) {fr : Nat} (hfr : fr < 2 ^ f.ff.mbits) : f.Spells (f.pack s 0 fr) (.fin s fr f.ff.emin)
  | normal (s : Bool) {ex fr : Nat} (hex : 0 < ex) (hfr : fr < 2 ^ f.ff.mbits)
    (h : f.Holds (fr + 2 ^ f.ff.mbits) ((ex : Int) - f.ff.bias - f.ff.mbits)) :
    f.Spells (f.pack s ex fr) (.fin s (fr + 2 ^ f.ff.mbits) ((ex : Int) - f.ff.bias - f.ff.mbits))

/-- The value of the fields of a floating-point code (R26). -/
def Fmt.fieldsVal (f : Fmt) (s : Bool) (ex fr : Nat) : Val :=
  if ex = 2 ^ f.ff.ebits - 1 ∧ f.ff.hasInf = true then (if fr = 0 then .inf s else .nan)
  else if f = .e4m3 ∧ ex = 2 ^ f.ff.ebits - 1 ∧ fr = 7 then .nan
  else if ex = 0 then .fin s fr f.ff.emin
  else .fin s (fr + 2 ^ f.ff.mbits) ((ex : Int) - f.ff.bias - (f.ff.mbits : Int))

theorem Fmt.decode_float {f : Fmt} (hf : f.isFloat = true) {code : Nat} (h : code < 2 ^ f.width) :
    f.decode code = f.fieldsVal (bitOf code (f.width - 1)) (bitsOf code (f.width - 2) f.ff.mbits) (code % 2 ^ f.ff.mbits) := by
  have hc : code % 2 ^ f.width = code := Nat.mod_eq_of_lt h
  cases f <;> cases hf <;> (unfold Fmt.decode; rw [hc]; rfl)

/-- Fields that are neither an infinity's nor a NaN's: a leading 1 and the fraction is a magnitude that the format holds. -/
theorem Fmt.holds_normal {f : Fmt} (hf : f.isFloat = true) {ex fr : Nat} (h0 : ex ≠ 0) (hex : ex ≤ 2 ^ f.ff.ebits - 1)
    (hfr : fr < 2 ^ f.ff.mbits) (hinf : ¬(ex = 2 ^ f.ff.ebits - 1 ∧ f.ff.hasInf = true))
    (hnan : ¬(f = .e4m3 ∧ ex = 2 ^ f.ff.ebits - 1 ∧ fr = 7)) :
    f.Holds (fr + 2 ^ f.ff.mbits) ((ex : Int) - f.ff.bias - f.ff.mbits) := by
  obtain ⟨hprec, -, hemin, hE, hM, -⟩ := Fmt.regularFigures hf
  have hp : 2 ^ f.ff.prec = 2 ^ f.ff.mbits * 2 := by rw [hprec, Nat.pow_succ]
  have htop : ex + b01 f.ff.hasInf ≤ 2 ^ f.ff.ebits - 1 := by
    cases hi : f.ff.hasInf
    · exact hex
    · exact Nat.lt_of_le_of_ne hex fun he => hinf ⟨he, hi⟩
  refine ⟨by omega, by omega, .inr (Nat.le_add_left _ _), by omega, fun hmax => ?_⟩
  by_cases h4 : f = .e4m3
  · subst h4
    have hi : b01 Fmt.e4m3.ff.hasInf = 0 := rfl
    have h7 : fr ≠ 7 := fun h => hnan ⟨rfl, by omega, h⟩
    change fr < 8 at hfr
    change fr + 8 ≤ 14
    omega
  · have h1 : b01 (f = .e4m3) = 0 := by simp [h4, b01]
    omega

theorem Fmt.spells_fieldsVal {f : Fmt} (hf : f.isFloat = true) (s : Bool) {ex fr : Nat} (hex : ex ≤ 2 ^ f.ff.ebits - 1)
    (hfr : fr < 2 ^ f.ff.mbits) (hn : (f.fieldsVal s ex fr).isNaN = false) : f.Spells (f.pack s ex fr) (f.fieldsVal s ex fr) := by
  unfold Fmt.fieldsVal at hn ⊢
  by_cases hinf : ex = 2 ^ f.ff.ebits - 1 ∧ f.ff.hasInf = true
  · rw [if_pos hinf] at hn ⊢
    by_cases h0 : fr = 0
    · rw [if_pos h0, h0, hinf.1]
      exact .inf s hinf.2
    · rw [if_neg h0] at hn
      cases hn
  rw [if_neg hinf] at hn ⊢
  by_cases hnan : f = .e4m3 ∧ ex = 2 ^ f.ff.ebits - 1 ∧ fr = 7
  · rw [if_pos hnan] at hn
    cases hn
  rw [if_neg hnan]
  by_cases h0 : ex = 0
  · rw [if_pos h0, h0]
    exact .subnormal s hfr
  · rw [if_neg h0]
    exact .normal s (Nat.pos_of_ne_zero h0) hfr (Fmt.holds_normal hf h0 hex hfr hinf hnan)

/-- A code that is not NaN's spells its value. -/
theorem Fmt.spells_decode {f : Fmt} (hf : f.isFloat = true) {code : Nat} (h : code < 2 ^ f.width)
    (hn : (f.decode code).isNaN = false) : f.Spells code (f.decode code) := by
  rw [Fmt.decode_float hf h] at hn ⊢
  have hs := Fmt.spells_fieldsVal hf _ (Fmt.exponentField_le hf code) (Nat.mod_lt _ (Nat.two_pow_pos _)) hn
  rwa [Fmt.pack_fields hf h] at hs

end Sys2Proof.Machine
end

section
/-!
SUPPORT. Conversion to a number format (R34, R36 to R38, R608): rounding leaves alone a value that stands on the unit it is rounded to,
so a value that a format holds converts to its own code.
-/

namespace Sys2Proof.Machine

open Sys2Proof

/-! ### Rounding to a unit that divides the value (R36, R37) -/

@[simp] theorem unitsAt_self (m : Nat) (e : Int) : unitsAt m e e = m := by simp [unitsAt]

@[simp] theorem roundUnits_self (mode : Rnd) (r m : Nat) (e : Int) : roundUnits mode r m e e = m := by
  rw [roundUnits, if_pos (Int.le_refl e), unitsAt_self]

@[simp] theorem roundInt_ofInt (mode : Rnd) (r : Nat) (i : Int) : roundInt mode r (.ofInt i) = i := by
  simp only [roundInt, Val.ofInt, roundUnits_self, decide_eq_true_eq]
  split <;> omega

/-! ### Integer targets and powers of two -/

theorem clampInt_of_mem {lo hi i : Int} (hlo : lo ≤ i) (hhi : i ≤ hi) : clampInt lo hi i = i := by
  unfold clampInt
  rw [if_neg (by omega), if_neg (by omega)]

/-- An integer in the range of an integer format converts to its two's complement, exactly. -/
theorem Fmt.toInt_ofInt (f : Fmt) (mode : Rnd) (r : Nat) {i : Int} (hlo : f.intRange.1 ≤ i) (hhi : i ≤ f.intRange.2) :
    f.toInt mode r (.ofInt i) = (unsignedOf f.width i, Traps.none) := by
  have hc := clampInt_of_mem hlo hhi
  have hi := roundInt_ofInt mode r i
  rw [Val.ofInt] at hi ⊢
  simp [Fmt.toInt, hi, hc]

/-- A code of E8M0 other than NaN's converts to itself: a power of two is not rounded (R27, R608). -/
theorem toE8M0_pow2 (mode : Rnd) (sat : Bool) (r : Nat) {c : Nat} (h : c < 255) :
    toE8M0 mode sat r (.pow2 ((c : Int) - 127)) = (c, Traps.none) := by
  have hlog : ((Nat.log2 1 : Nat) : Int) = 0 := by decide
  have hle : ¬ (128 : Int) ≤ (c : Int) - 127 := by omega
  have hcode : (max ((c : Int) - 127) (-127) + 127).toNat = c := by omega
  unfold toE8M0 Val.pow2
  dsimp only
  rw [if_neg (by decide), hlog, Int.add_zero]
  cases mode <;> exact (if_neg hle).trans (congrArg (·, Traps.none) hcode)

/-! ### A value that a code spells is rounded to itself, and encoded as that code -/

/-- A magnitude of at most `p` significant bits that stands on the smallest unit, or takes all `p`, is a number of units of its last
place already. -/
theorem ulpExp_of_fits {p m : Nat} {b e : Int} (h0 : m ≠ 0) (hm : m < 2 ^ p) (hb : b ≤ e) (hn : e = b ∨ 2 ^ (p - 1) ≤ m) :
    ulpExp p (some b) m e = e := by
  have hlt := (Nat.log2_lt h0).2 hm
  unfold ulpExp
  dsimp only
  rcases hn with rfl | hn
  · omega
  · have := (Nat.le_log2 h0).2 hn
    omega

theorem magCmp_ne_gt {m n : Nat} {e f : Int} (he : e ≤ f) (heq : e = f → m ≤ n) (hm : m ≤ 2 * n) : magCmp m e n f ≠ .gt := by
  unfold magCmp
  dsimp only
  rw [Int.min_eq_left he, unitsAt_self]
  split
  · next h => rw [ne_eq, Nat.compare_eq_gt]; omega
  · rw [ne_eq, Nat.compare_eq_gt, Nat.not_lt, unitsAt]
    rcases Int.lt_or_eq_of_le he with hlt | rfl
    · obtain ⟨d, hd⟩ : ∃ d, (f - e).toNat = d + 1 := ⟨(f - e).toNat - 1, by omega⟩
      rw [hd, Nat.pow_succ]
      calc m ≤ n * 2 := by omega
        _ ≤ n * (2 ^ d * 2) := Nat.mul_le_mul_left n (Nat.le_mul_of_pos_left 2 (Nat.two_pow_pos d))
    · simpa using heq rfl

section
variable {f : Fmt} {m : Nat} {e : Int}

theorem Fmt.holds_subnormal (hf : f.isFloat = true) (hm : m < 2 ^ f.ff.mbits) : f.Holds m f.ff.emin := by
  have hp := (Fmt.regularFigures hf).prec
  have hM := (Fmt.regularFigures hf).two_mul_maxM
  have hs := Nat.pow_succ (n := 2) (m := f.ff.mbits)
  rw [hp] at hM
  exact ⟨by rw [hp]; omega, Int.le_refl _, .inl rfl, (Fmt.regularFigures hf).emin_le_maxE, fun _ => by omega⟩

theorem Fmt.Holds.ulpExp_eq (hf : f.isFloat = true) (h : f.Holds m e) (h0 : m ≠ 0) :
    ulpExp f.ff.prec (some f.ff.emin) m e = e := by
  refine ulpExp_of_fits h0 h.fits h.emin_le ?_
  rw [(Fmt.regularFigures hf).prec]
  exact h.unit

theorem Fmt.Holds.tooBig (hf : f.isFloat = true) (h : f.Holds m e) (s : Bool) : f.tooBig (.fin s m e) = false := by
  have hm : m ≤ 2 * f.ff.maxM := Nat.le_trans (Nat.le_of_lt h.fits) (Fmt.regularFigures hf).two_mul_maxM
  exact decide_eq_false (magCmp_ne_gt h.le_maxE h.le_maxM hm)

theorem Fmt.Holds.roundPrec_eq (hf : f.isFloat = true) (h : f.Holds m e) (h0 : m ≠ 0) (mode : Rnd) (r : Nat) (s : Bool) :
    roundPrec mode r f.ff.prec (some f.ff.emin) (.fin s m e) = .fin s m e := by
  unfold roundPrec
  dsimp only
  rw [if_neg h0, h.ulpExp_eq hf h0, roundUnits_self]

theorem Fmt.tooBig_zero (f : Fmt) (s : Bool) (e : Int) : f.tooBig (.fin s 0 e) = false := by
  simp [Fmt.tooBig, magCmp, Nat.compare_eq_gt]

theorem Fmt.encodeFloat_zero (f : Fmt) (s : Bool) (e : Int) : f.encodeFloat (.fin s 0 e) = f.pack s 0 0 := by
  simp [Fmt.encodeFloat, Fmt.pack]

/-- A value that a floating-point format holds converts as it is encoded: rounding leaves it alone. -/
theorem Fmt.Holds.toFloat_eq (hf : f.isFloat = true) (h : f.Holds m e) (mode : Rnd) (sat : Bool) (r : Nat) (s : Bool) :
    f.toFloat mode sat r (.fin s m e) = (f.encodeFloat (.fin s m e), Traps.none) := by
  by_cases h0 : m = 0
  · subst h0
    simp [Fmt.toFloat, roundPrec, f.tooBig_zero, f.encodeFloat_zero]
  · simp [Fmt.toFloat, h.roundPrec_eq hf h0, h.tooBig hf]

theorem Fmt.Holds.encodeFloat_eq (hf : f.isFloat = true) (h : f.Holds m e) (h0 : m ≠ 0) (s : Bool) :
    f.encodeFloat (.fin s m e) = if m < 2 ^ f.ff.mbits then f.pack s 0 m
      else f.pack s (e + (Nat.log2 m : Int) + f.ff.bias).toNat (m - 2 ^ f.ff.mbits) := by
  have hq : max (e + (Nat.log2 m : Int) + 1 - (f.ff.prec : Int)) f.ff.emin = e := h.ulpExp_eq hf h0
  simp [Fmt.encodeFloat, Fmt.pack, h0, hq]

end

theorem Fmt.encodeFloat_of_spells {f : Fmt} (hf : f.isFloat = true) {code : Nat} {v : Val} (h : f.Spells code v) :
    f.encodeFloat v = code := by
  cases h with
  | inf s h => simp [Fmt.encodeFloat, Fmt.pack]
  | @subnormal s fr hfr =>
    by_cases h0 : fr = 0
    · rw [h0, f.encodeFloat_zero]
    · rw [(Fmt.holds_subnormal hf hfr).encodeFloat_eq hf h0, if_pos hfr]
  | @normal s ex fr hex hfr h =>
    have h0 : fr + 2 ^ f.ff.mbits ≠ 0 := by omega
    have hlog : Nat.log2 (fr + 2 ^ f.ff.mbits) = f.ff.mbits :=
      (Nat.log2_eq_iff h0).2 ⟨Nat.le_add_left _ _, by rw [Nat.pow_succ]; omega⟩
    rw [h.encodeFloat_eq hf h0, if_neg (by omega), hlog, Nat.add_sub_cancel]
    congr 1
    omega

theorem Fmt.toFloat_of_spells {f : Fmt} (hf : f.isFloat = true) {code : Nat} {v : Val} (h : f.Spells code v) (mode : Rnd)
    {sat : Bool} (r : Nat) (hs : sat = true → v.isInf = false) : f.toFloat mode sat r v = (code, Traps.none) := by
  have hc := Fmt.encodeFloat_of_spells hf h
  cases h with
  | inf s h =>
    cases sat
    · simp [Fmt.toFloat, h, hc]
    · cases hs rfl
  | subnormal s hfr => rw [(Fmt.holds_subnormal hf hfr).toFloat_eq hf, hc]
  | normal s hex hfr h => rw [h.toFloat_eq hf, hc]

/-! ### O42 -/

theorem Fmt.isInt_of_not_isFloat {f : Fmt} (he : f ≠ .e8m0) (hf : f.isFloat = false) : f.isInt = true := by
  cases f <;> cases hf
  case e8m0 => exact absurd rfl he
  all_goals rfl

/-- Settles O42. A format is E8M0, whose codes are powers of two, or a floating-point format, where rounding leaves a value that a
code spells alone and encoding spells it as that code, or an integer format, where the two's complement of an integer in range is
its code. -/
theorem conversionKeepsWhatAFormatHolds : Obligations.ConversionKeepsWhatAFormatHolds := by
  intro f code mode sat r hcode hnan hinf
  unfold Fmt.convert
  by_cases he : f = .e8m0
  · subst he
    rw [Fmt.decode_e8m0 hcode] at hnan ⊢
    rw [if_pos rfl]
    by_cases h255 : code = 255
    · rw [if_pos h255] at hnan
      cases hnan
    · rw [if_neg h255]
      exact toE8M0_pow2 mode sat r (Nat.lt_of_le_of_ne (Nat.le_of_lt_succ hcode) h255)
  · rw [if_neg he]
    cases hf : f.isFloat
    case true => exact Fmt.toFloat_of_spells hf (Fmt.spells_decode hf hcode hnan) mode r hinf
    case false =>
      obtain ⟨i, hi, hlo, hhi, hu⟩ := Fmt.decode_int (Fmt.isInt_of_not_isFloat he hf) hcode
      rw [hi]
      exact (f.toInt_ofInt mode r hlo hhi).trans (by rw [hu])

end Sys2Proof.Machine
end

section
/-!
SUPPORT. Fields of a word, the registers of the PWR page, status bits that a counted fault leaves set, and what the entry into the
safe state leaves alone.
-/

namespace Sys2Proof.Machine

open Sys2Proof

/-! ### Fields of a word -/

/-- Bits [hi:lo] are the new value's, all others the old number's. -/
theorem testBit_putBits (n v i : Nat) {hi lo : Nat} (h : lo ≤ hi) :
    (putBits n hi lo v).testBit i = if lo ≤ i ∧ i ≤ hi then v.testBit (i - lo) else n.testBit i := by
  unfold putBits
  dsimp only
  rw [Nat.testBit_or, Nat.testBit_or, Nat.testBit_shiftLeft, Nat.testBit_shiftRight, Nat.testBit_shiftLeft,
    Nat.testBit_mod_two_pow, Nat.testBit_mod_two_pow]
  rcases Nat.lt_or_ge i lo with hlo | hlo
  · simp [hlo, show ¬ hi + 1 ≤ i by omega, show ¬ lo ≤ i by omega]
  · rcases Nat.lt_or_ge hi i with hhi | hhi
    · simp [hlo, show hi + 1 ≤ i by omega, show ¬ i ≤ hi by omega, show ¬ i < lo by omega, show ¬ i - lo < hi + 1 - lo by omega]
    · simp [hlo, hhi, show ¬ hi + 1 ≤ i by omega, show ¬ i < lo by omega, show i - lo < hi + 1 - lo by omega]

theorem testBit_wput (w : Word) (v i : Nat) {hi lo : Nat} (h : lo ≤ hi) (hw : hi < 32) :
    (wput w hi lo v).toNat.testBit i = if lo ≤ i ∧ i ≤ hi then v.testBit (i - lo) else w.toNat.testBit i := by
  unfold wput
  rw [BitVec.toNat_ofNat, Nat.testBit_mod_two_pow, testBit_putBits _ _ _ h]
  rcases Nat.lt_or_ge i 32 with h32 | h32
  · simp [h32]
  · simp [show ¬ i < 32 by omega, show ¬ i ≤ hi by omega, show w.toNat.testBit i = false from
      Nat.testBit_lt_two_pow (Nat.lt_of_lt_of_le w.isLt (Nat.pow_le_pow_right (by decide) h32))]

theorem testBit_wbits (w : Word) (hi lo i : Nat) :
    (wbits w hi lo).testBit i = (decide (i < hi + 1 - lo) && w.toNat.testBit (lo + i)) := by
  unfold wbits bitsOf
  rw [Nat.testBit_mod_two_pow, Nat.testBit_shiftRight]

/-- A field reads as what was put there. -/
theorem wbits_wput_same (w : Word) {hi lo v : Nat} (h : lo ≤ hi) (hw : hi < 32) (hv : v < 2 ^ (hi + 1 - lo)) :
    wbits (wput w hi lo v) hi lo = v := by
  refine Nat.eq_of_testBit_eq fun i => ?_
  rw [testBit_wbits, testBit_wput _ _ _ h hw]
  rcases Nat.lt_or_ge i (hi + 1 - lo) with hi' | hi'
  · simp [hi', show lo + i ≤ hi by omega]
  · rw [Nat.testBit_lt_two_pow (Nat.lt_of_lt_of_le hv (Nat.pow_le_pow_right (by decide) hi'))]
    simp [show ¬ i < hi + 1 - lo by omega]

/-- A field that lies apart from the one put stays. -/
theorem wbits_wput_other (w : Word) {hi lo hi' lo' : Nat} (v : Nat) (h : lo ≤ hi) (hw : hi < 32) (ha : hi' < lo ∨ hi < lo') :
    wbits (wput w hi lo v) hi' lo' = wbits w hi' lo' := by
  refine Nat.eq_of_testBit_eq fun i => ?_
  rw [testBit_wbits, testBit_wbits, testBit_wput _ _ _ h hw]
  rcases Nat.lt_or_ge i (hi' + 1 - lo') with hlt | hge
  · rw [if_neg (by omega)]
  · rw [decide_eq_false (Nat.not_lt.2 hge), Bool.false_and, Bool.false_and]

theorem wbits_word {n hi : Nat} (h : n < 2 ^ (hi + 1)) (hw : hi < 32) : wbits (word n) hi 0 = n := by
  unfold wbits word bitsOf
  have h32 : n < 2 ^ 32 := Nat.lt_of_lt_of_le h (Nat.pow_le_pow_right (by decide) hw)
  rw [BitVec.toNat_ofNat, Nat.mod_eq_of_lt h32, Nat.shiftRight_zero, Nat.sub_zero, Nat.mod_eq_of_lt h]

theorem wbits_lt (w : Word) (hi lo : Nat) : wbits w hi lo < 2 ^ (hi + 1 - lo) := Nat.mod_lt _ (Nat.two_pow_pos _)

/-- A temperature in the register's range reads as it is (assumption 61). -/
theorem byteTemp_tempByte {x : Int} (h0 : 0 ≤ x) (h : x ≤ 215) : byteTemp (tempByte x) = x ∧ tempByte x < 2 ^ 8 := by
  obtain ⟨n, rfl⟩ := Int.eq_ofNat_of_zero_le h0
  have hn : n < 216 := by omega
  have hb : tempByte n = n := by
    unfold tempByte
    rw [if_neg (by omega), if_neg (by omega)]
    exact unsignedOf_natCast (by omega)
  rw [hb]
  unfold byteTemp
  exact ⟨if_pos hn, by omega⟩

/-! ### Registers of the PWR and ARB pages -/

theorem State.present_pwr (s : State) : s.present pgPwr = true := rfl

theorem State.present_scr (s : State) : s.present pgScr = true := rfl

/-- No interrupt that is sent changes a register of the PWR page. -/
theorem interruptReg_pwr {off : Nat} (h : off < 4096) : interruptReg (4096 * pgPwr + off) = false := by
  have hpn : (4096 * pgPwr + off) % 2 ^ 24 / 4096 = pgPwr := by unfold pgPwr; omega
  unfold interruptReg
  dsimp only
  rw [hpn, show decide (pgPwr = pgHbr) = false from rfl, show decide (pgPwr = pgRte) = false from rfl,
    show decide (blockAt pgPwr = .lnk) = false from rfl]
  simp

theorem blockAt_sqPage (q : Fin 64) : blockAt (pgSq q.val 0) = .sq := by
  revert q; decide

theorem intBank_pwr (x : Fin 16) : intBank x pgPwr = 0 := rfl

theorem intBank_sq (x : Fin 16) (q : Fin 64) : intBank x (pgSq q.val 0) = 0 := by
  unfold intBank
  rw [(sqStatus_key q).1]
  rfl

namespace Answers

variable {e t : State}

theorem sys (h : Answers e t) : t.sys = e.sys := by obtain ⟨l, h⟩ := h; rw [h.same]
theorem score (h : Answers e t) : t.score = e.score := by obtain ⟨l, h⟩ := h; rw [h.same]

theorem regPwr (h : Answers e t) {off : Nat} (ho : off < 4096) : t.reg pgPwr off = e.reg pgPwr off :=
  h.reg (interruptReg_pwr ho)

theorem effTarget (h : Answers e t) : t.effTarget = e.effTarget := by
  unfold State.effTarget
  rw [h.regPwr (by decide)]

theorem rail (h : Answers e t) (p : Nat) : t.rail p = e.rail p := by
  unfold State.rail
  rw [h.arb]

theorem sqTemp (h : Answers e t) {p : Nat} (hp : p < 72) : t.sqTemp p = e.sqTemp p := by
  unfold State.sqTemp
  rw [h.regPwr (by unfold R.PWR_SQ; omega)]

theorem diodeBad (h : Answers e t) (p : Nat) : t.diodeBad p = e.diodeBad p := by
  unfold State.diodeBad
  rw [h.arb]

end Answers

/-- Status bits of an event touch no other register of the bank. -/
theorem State.reg_statusAll (s : State) {pn pn' off : Nat} (bit : Nat) (h : off < 4096) (ho : off ≠ hIntStatus) :
    (s.statusAll pn bit).reg pn' off = s.reg pn' off :=
  (PageEvents.statusAll s pn bit).regs _ (by omega)

@[simp] theorem State.statusAll_sys (s : State) (pn bit : Nat) : (s.statusAll pn bit).sys = s.sys := by
  rw [(PageEvents.statusAll s pn bit).same]

@[simp] theorem State.statusAll_arb (s : State) (pn bit : Nat) : (s.statusAll pn bit).arb = s.arb := by
  rw [(PageEvents.statusAll s pn bit).same]

/-- Of a page with one bank the bit of an event is set there. -/
theorem State.reg_statusAll_bit (s : State) {pn bit : Nat} (hb : bankedInt (blockAt pn) = false) (h : bit < 32) :
    ((s.statusAll pn bit).reg pn hIntStatus).getLsbD bit = true := by
  unfold State.statusAll State.statusOne intBank
  rw [hb, State.reg_eq_regB]
  simp only [Bool.false_eq_true, if_false, State.regB_setRegB, BitVec.getLsbD_or]
  have hw : (word (2 ^ bit)).getLsbD bit = true := by
    unfold word
    rw [BitVec.getLsbD_ofNat, Nat.testBit_two_pow_self, Bool.and_true]
    exact decide_eq_true h
  rw [hw, Bool.or_true]

/-! ### Status bits that stay set -/

/-- Every status bit of `s` is set in `t`. -/
def StatusKept (s t : State) : Prop :=
  ∀ k b, k % 4096 = hIntStatus → (s.drs.regs.get regDefault k).getLsbD b = true → (t.drs.regs.get regDefault k).getLsbD b = true

namespace StatusKept

theorem refl (s : State) : StatusKept s s := fun _ _ _ h => h

theorem trans {a b c : State} (h : StatusKept a b) (h' : StatusKept b c) : StatusKept a c :=
  fun k i hk hi => h' k i hk (h k i hk hi)

theorem foldl {β : Type} (f : State → β → State) (h : ∀ s x, StatusKept s (f s x)) (l : List β) (s : State) :
    StatusKept s (l.foldl f s) := by
  induction l generalizing s with
  | nil => exact refl s
  | cons a t ih => exact (h s a).trans (ih _)

theorem ofRegs {s t : State} (h : t.drs.regs = s.drs.regs) : StatusKept s t := fun _ _ _ hb => by rwa [h]

theorem ofEvents {s t : State} (h : PageEvents s t) : StatusKept s t := fun k b _ hb => h.bits k b hb

theorem reg {s t : State} (h : StatusKept s t) {pn b : Nat} (hb : (s.reg pn hIntStatus).getLsbD b = true) :
    (t.reg pn hIntStatus).getLsbD b = true := h _ b (by unfold hIntStatus; omega) hb

theorem setReg {s t : State} (h : StatusKept s t) {pn off : Nat} (v : Word) (ho : off < 4096) (hi : off ≠ hIntStatus) :
    StatusKept s (t.setReg pn off v) := by
  intro k b hk hb
  have hne : k ≠ 4096 * pn + off := fun e => hi (by rw [← hk, e]; omega)
  exact (congrArg (fun w : Word => w.getLsbD b) (FMap.get_set_other _ _ _ hne)).trans (h k b hk hb)

theorem statusUnless {s t : State} (h : StatusKept s t) (c : Prop) [Decidable c] (pn bit : Nat) :
    StatusKept s (if c then t else t.statusAll pn bit) := by
  split
  · exact h
  · exact h.trans (ofEvents (PageEvents.statusAll t pn bit))

theorem noteEnd (s : State) (j : Job) (code : Nat) : StatusKept s (s.noteEnd j code) := by
  unfold State.noteEnd
  dsimp only
  split
  · exact refl s
  split
  · split
    · exact refl s
    · exact (refl s).setReg _ (by decide) (by decide)
  split
  · exact ((refl s).setReg _ (by decide) (by decide)).statusUnless _ _ _
  split
  · exact ((((refl s).setReg _ (by decide) (by decide)).setReg _ (by decide) (by decide)).setReg _ (by decide)
      (by decide)).statusUnless _ _ _
  split
  · exact (refl s).setReg _ (by decide) (by decide)
  split
  · split
    · exact ((refl s).setReg _ (by decide) (by decide)).statusUnless _ _ _
    · exact refl s
  · exact refl s

theorem endNoted (s : State) (p : Job → Bool) (code : Nat) : StatusKept s (s.endNoted p code) :=
  (foldl (fun u j => u.noteEnd j code) (fun u j => noteEnd u j code) (s.sch.jobs.filter (fun j => p j && j.live)) s).trans (ofRegs rfl)

theorem retirePages (l : List Nat) (s : State) : StatusKept s (l.foldl State.retirePage s) :=
  foldl _ (fun u pn => ofEvents (PageEvents.toPage u pn _)) l s

theorem retireSquare (s : State) (q : Nat) : StatusKept s (s.retireSquare q) := by
  unfold State.retireSquare
  split
  · exact refl s
  · have h := (retirePages (sqPages q) s).trans (endNoted _ (Job.onSquare q) cUnitFault)
    dsimp only
    generalize ((sqPages q).foldl State.retirePage s).endNoted (Job.onSquare q) cUnitFault = u at h ⊢
    exact h.trans (ofRegs rfl)

/-- A UNIT_FAULT counted against a square leaves every status bit set, whether or not the square is retired for it. -/
theorem unitFault (s : State) (q : Fin 64) : StatusKept s (s.unitFault q.val) := by
  have hpn : errSq q.val / 4096 = pgSq q.val 0 := by unfold errSq hErr; omega
  unfold State.unitFault State.countFault State.checkLasting
  dsimp only
  generalize hu : s.setErr (errSq q.val) _ = u
  have h : StatusKept s u := hu ▸ ofRegs rfl
  split
  · unfold State.declareLasting
    simp only [hpn, blockAt_sqPage]
    generalize hv : u.setErr (errSq q.val) _ = v
    have h' : StatusKept u v := hv ▸ ofRegs rfl
    have hr (w : State) (x : Nat) : StatusKept w (w.record 0x100 0 x 1) := ofRegs rfl
    exact (h.trans h').trans ((ofEvents (PageEvents.statusAll v _ 2)).trans ((hr _ _).trans (retireSquare _ _)))
  · exact h

end StatusKept

end Sys2Proof.Machine
end

section
/-!
PROOF. The power cap with its windows (R504 to R509), the target (R503, R528), and the beat-rate windows with their rails (R92 to R96,
R502, R503).
-/

namespace Sys2Proof.Machine

open Sys2Proof

/-! ### The cap request (R506, R521) -/

/-- A write of `PWR_CAP_REQ` and the effecter are the same request. -/
theorem exec_capRequest {c : Instr} {v : Word} {s : State}
    (h : (∃ r, c = .pwrCapReq r v ∧ s.mayWrite r pgPwr R.PWR_CAP_REQ false = true)
      ∨ (c = .powerCapEffecter v ∧ s.arbiterRuns = true)) :
    exec c s = done s (s.capRequest (wbits v 11 0)) := by
  rcases h with ⟨r, rfl, hr⟩ | ⟨rfl, ha⟩
  · exact congrArg (done s) (State.asWrite_allowed _ s.present_pwr hr)
  · exact congrArg (done s) (if_pos ha)

section

variable {s : State} {w : Nat}

theorem State.capRequest_belowReserved (h : 640 * w < s.reserved64) : s.capRequest w = s.setReg pgPwr R.PWR_CAP_STATUS 1 := if_pos h

theorem State.capRequest_aboveRating (h : s.reserved64 ≤ 640 * w) (hm : s.sys.variant.maxWatt < w) :
    s.capRequest w = s.setReg pgPwr R.PWR_CAP_STATUS 2 := (if_neg (Nat.not_lt.2 h)).trans (if_pos hm)

/-- A request between the two bounds is taken; CAP_CHANGED tells of another cap. -/
theorem State.capRequest_taken (h : s.reserved64 ≤ 640 * w) (hm : w ≤ s.sys.variant.maxWatt) :
    s.capRequest w = if s.cap = w then (s.setReg pgPwr R.PWR_CAP (word w)).setReg pgPwr R.PWR_CAP_STATUS 0
      else ((s.setReg pgPwr R.PWR_CAP (word w)).setReg pgPwr R.PWR_CAP_STATUS 0).statusAll pgPwr 4 :=
  (if_neg (Nat.not_lt.2 h)).trans (if_neg (Nat.not_lt.2 hm))

end

/-! ### The target (R503, R504, R528) -/

theorem exec_pwrPolicy {r : Req} {v : Word} {s : State} (h : s.mayWrite r pgPwr R.PWR_POLICY false = true) :
    exec (.pwrPolicy r v) s = done s (s.setTarget (s.reqPart r) v) :=
  congrArg (done s) (State.asWrite_allowed (fun s => s.setTarget (s.reqPart r) v) s.present_pwr h)

theorem State.setTarget_ignored {s : State} {v : Word} (p : Fin 16) (h : wbits v 11 0 < 1520 ∨ 2300 < wbits v 11 0) :
    s.setTarget p v = s.cmdIgnored p pgPwr := if_pos h

theorem State.effTarget_setReg (s : State) {n : Nat} (h : n < 4096) : (s.setReg pgPwr R.PWR_TARGET_EFF (word n)).effTarget = n := by
  unfold State.effTarget
  rw [State.reg_setReg, wbits_word h (by decide)]

/-- A target in range stands; the effective one follows it, or stays below it. -/
theorem State.setTarget_taken {s : State} {v : Word} (p : Fin 16) (h : ¬ (wbits v 11 0 < 1520 ∨ 2300 < wbits v 11 0)) :
    (s.setTarget p v).reg pgPwr R.PWR_POLICY = word (wbits v 11 0)
    ∧ (s.setTarget p v).effTarget = if s.effTarget = wbits (s.reg pgPwr R.PWR_POLICY) 11 0 then wbits v 11 0
        else min s.effTarget (wbits v 11 0) := by
  unfold State.setTarget
  simp only [if_neg h]
  refine ⟨(State.reg_setReg_other _ _ (by decide)).trans (State.reg_setReg _ _ _ _), State.effTarget_setReg _ ?_⟩
  split <;> omega

/-! ### The windows of the cap (R508) -/

/-- A window's average stands and is recorded. -/
def State.windowRead (s : State) (dw : Nat) : State :=
  (s.setReg pgPwr R.PWR_INPUT_AVG (word (min dw (2 ^ 20 - 1)))).record 1 0 0 dw

theorem State.reg_windowRead (s : State) (dw : Nat) {off : Nat} (h : off ≠ R.PWR_INPUT_AVG) :
    (s.windowRead dw).reg pgPwr off = s.reg pgPwr off := State.reg_setReg_other s _ (by omega)

theorem State.cap_windowRead (s : State) (dw : Nat) : (s.windowRead dw).cap = s.cap :=
  congrArg (wbits · 11 0) (s.reg_windowRead dw (by decide))

theorem State.effTarget_windowRead (s : State) (dw : Nat) : (s.windowRead dw).effTarget = s.effTarget :=
  congrArg (wbits · 11 0) (s.reg_windowRead dw (by decide))

/-- `PWR_STATE.DUTY`: duty limits are in force. -/
def State.duty (s : State) : Nat := wbits (s.reg pgPwr R.PWR_STATE) 8 8

theorem State.duty_setReg (s : State) (w : Word) {n : Nat} (h : n < 2) :
    (s.setReg pgPwr R.PWR_STATE (wput w 8 8 n)).duty = n := by
  unfold State.duty
  rw [State.reg_setReg, wbits_wput_same _ (by decide) (by decide) h]

theorem State.duty_statusAll (s : State) (pn bit : Nat) : (s.statusAll pn bit).duty = s.duty :=
  congrArg (wbits · 8 8) (s.reg_statusAll bit (by decide) (by decide))

theorem State.effTarget_statusAll (s : State) (pn bit : Nat) : (s.statusAll pn bit).effTarget = s.effTarget :=
  congrArg (wbits · 11 0) (s.reg_statusAll bit (by decide) (by decide))

theorem Answers.duty {e t : State} (h : Answers e t) : t.duty = e.duty := by
  unfold State.duty
  rw [h.regPwr (by decide)]

/-- Duty limits start, or go on. -/
def State.limitDuty (s : State) : State :=
  let s1 := s.setReg pgPwr R.PWR_STATE (wput (s.reg pgPwr R.PWR_STATE) 8 8 1)
  if s1.arb.dutySince.isSome then s1 else { s1 with arb := { s1.arb with dutySince := some s1.now } }.statusAll pgPwr 5

theorem State.limitDuty_effect (s : State) :
    s.limitDuty.duty = 1 ∧ s.limitDuty.effTarget = s.effTarget ∧ s.limitDuty.arb.dutySince = some (s.arb.dutySince.getD s.now) := by
  have hd := s.duty_setReg (s.reg pgPwr R.PWR_STATE) (n := 1) (by decide)
  have ht : (s.setReg pgPwr R.PWR_STATE (wput (s.reg pgPwr R.PWR_STATE) 8 8 1)).effTarget = s.effTarget :=
    congrArg (wbits · 11 0) (State.reg_setReg_other s _ (by decide))
  unfold State.limitDuty
  dsimp only
  rw [State.setReg_arb]
  cases hs : s.arb.dutySince with
  | some t0 =>
    rw [if_pos (by rfl)]
    exact ⟨hd, ht, hs⟩
  | none =>
    rw [if_neg (by simp)]
    exact ⟨(State.duty_statusAll _ _ _).trans hd, (State.effTarget_statusAll _ _ _).trans ht,
      congrArg Arb.dutySince (State.statusAll_arb _ _ _)⟩

theorem State.liftDuty_effect (s : State) :
    s.liftDuty.arb.dutySince = none ∧ (s.arb.dutySince ≠ none → s.liftDuty.duty = 0) := by
  unfold State.liftDuty
  cases hs : s.arb.dutySince with
  | none => exact ⟨hs, fun h => absurd rfl h⟩
  | some t0 => exact ⟨rfl, fun _ => State.duty_setReg _ _ (by decide)⟩

section

variable {s : State} {dw : Nat}

/-- Above the cap the effective target falls, down to the floor guard. -/
theorem State.capWindow_lowers (h : 10 * s.cap < dw) (he : 1520 < s.effTarget) :
    s.capWindow dw = (s.windowRead dw).setReg pgPwr R.PWR_TARGET_EFF (word (max 1520 (s.effTarget - 10))) := by
  rw [← s.cap_windowRead dw] at h
  rw [← s.effTarget_windowRead dw] at he ⊢
  exact (if_pos h).trans (if_pos he)

/-- At the floor guard it starts duty limits. -/
theorem State.capWindow_limits (h : 10 * s.cap < dw) (he : s.effTarget ≤ 1520) : s.capWindow dw = (s.windowRead dw).limitDuty := by
  rw [← s.cap_windowRead dw] at h
  rw [← s.effTarget_windowRead dw] at he
  exact (if_pos h).trans (if_neg (Nat.not_lt.2 he))

theorem State.capWindow_rests (h : dw ≤ 10 * s.cap) (hl : 980 * s.cap ≤ dw * 100) : s.capWindow dw = s.windowRead dw := by
  rw [← s.cap_windowRead dw] at h hl
  exact (if_neg (Nat.not_lt.2 h)).trans (if_neg (Nat.not_lt.2 hl))

/-- Below 98% of the cap the limits end and the effective target rises, up to the policy's. -/
theorem State.capWindow_lifts (h : dw * 100 < 980 * s.cap) : s.capWindow dw = (s.windowRead dw).liftDuty.setReg pgPwr R.PWR_TARGET_EFF
    (word (min (wbits (s.reg pgPwr R.PWR_POLICY) 11 0) (s.effTarget + 10))) := by
  have hn : ¬ 10 * (s.windowRead dw).cap < dw := by rw [s.cap_windowRead dw]; omega
  rw [← s.cap_windowRead dw] at h
  rw [← s.effTarget_windowRead dw, ← s.reg_windowRead dw (off := R.PWR_POLICY) (by decide)]
  exact (if_neg hn).trans (if_pos h)

end

/-! ### Rails (R92 to R96, R502, R503) -/

/-- One step down, never below 0.55 V. -/
def stepDown (mv : Nat) : Nat := if 555 ≤ mv then mv - 5 else mv

/-- One step up, never above the bound. -/
def stepUp (mv top : Nat) : Nat := if mv + 5 ≤ top then mv + 5 else mv

@[simp] theorem State.rail_setRail (s : State) (p mv : Nat) : (s.setRail p mv).rail p = mv := FMap.get_set_same _ _ _ _

theorem State.rail_congr {s t : State} (h : t.arb.railSet = s.arb.railSet) (p : Nat) : t.rail p = s.rail p := by
  unfold State.rail
  rw [h]

theorem State.rail_lowerRail (s : State) (p : Nat) : (s.lowerRail p).rail p = stepDown (s.rail p) := by
  unfold State.lowerRail stepDown
  split
  · exact s.rail_setRail p _
  · rfl

theorem State.rail_stepUp (s : State) (p top : Nat) :
    (if s.rail p + 5 ≤ top then s.setRail p (s.rail p + 5) else s).rail p = stepUp (s.rail p) top := by
  unfold stepUp
  split
  · exact s.rail_setRail p _
  · rfl

theorem State.arb_unitFault (s : State) (q : Nat) : (s.unitFault q).arb = s.arb := ((FaultCounted.refl s).countFault _ _).arb

theorem State.nameAt_lt {s : State} {p q : Nat} (h : s.nameAt p = some q) : q < 64 := List.mem_range.1 (List.mem_of_find?_eq_some h)

/-- The count of a window stands in `PWR_SQ`, and in the least of its millisecond. -/
def State.beatCounted (s : State) (p r : Nat) : State :=
  let s1 := s.setReg pgPwr (R.PWR_SQ + 4 * p) (wput (s.reg pgPwr (R.PWR_SQ + 4 * p)) 31 20 (min r 4095))
  { s1 with arb := { s1.arb with msRate := s1.arb.msRate.set (fun _ => 65535) p (min (s1.arb.msRate.get (fun _ => 65535) p) r) } }

theorem State.rail_beatCounted (s : State) (p r : Nat) : (s.beatCounted p r).rail p = s.rail p := rfl

theorem State.effTarget_beatCounted (s : State) (p r : Nat) : (s.beatCounted p r).effTarget = s.effTarget :=
  congrArg (wbits · 11 0) (State.reg_setReg_other s _ (by unfold R.PWR_TARGET_EFF R.PWR_SQ; omega))

/-- The count concerns neither the temperature beside it nor, therefore, the rail's bound. -/
theorem State.maxRail_beatCounted (s : State) (p r : Nat) : (s.beatCounted p r).maxRail p = s.maxRail p := by
  have hd : (s.beatCounted p r).diodeBad p = s.diodeBad p := rfl
  have ht : (s.beatCounted p r).sqTemp p = s.sqTemp p := by
    refine congrArg byteTemp ?_
    rw [show (s.beatCounted p r).reg pgPwr (R.PWR_SQ + 4 * p) = _ from State.reg_setReg s _ _ _,
      wbits_wput_other _ _ (by decide) (by decide) (by decide)]
  unfold State.maxRail
  rw [hd, ht]

/-- The state of the square at a position; OFF where none is. -/
def State.beatState (s : State) (p : Nat) : PState := ((s.nameAt p).map (fun q => s.pstate (pgSq q 0))).getD .off

/-- A rate below the floor guard at the rail's bound (R94, R96). -/
def State.beatShort (s : State) (p r : Nat) (st : PState) (name : Option Nat) : State :=
  match name with
  | some q =>
    if st ≠ .running then s
    else if 1499 ≤ r then s.record 4 0 p r
    else ((s.record 5 0 p r).statusAll (pgSq q 0) 1).unitFault q
  | none => s

theorem State.arb_beatShort (s : State) (p r : Nat) (st : PState) (name : Option Nat) : (s.beatShort p r st name).arb = s.arb := by
  unfold State.beatShort
  split
  · split
    · rfl
    · split
      · rfl
      · rw [State.arb_unitFault, State.statusAll_arb]
        rfl
  · rfl

/-- Far below it, the square's SQ page shows FAULT. -/
theorem State.beatShort_signals (s : State) {p r : Nat} (h : r < 1499) (q : Fin 64) :
    ((s.beatShort p r .running (some q.val)).reg (pgSq q.val 0) hIntStatus).getLsbD 1 = true := by
  unfold State.beatShort
  simp only [ne_eq, not_true_eq_false, if_false, if_neg (Nat.not_le.2 h)]
  exact (StatusKept.unitFault _ q).reg (State.reg_statusAll_bit _ (sqStatus_key q).1 (by decide))

/-- A window that returned a count, branch by branch (R92, R94, R96, R503). -/
theorem State.beatWindow_some (s : State) (p r : Nat) : s.beatWindow p (some r) =
    let u := s.beatCounted p r
    if 2300 < r then u.lowerRail p
    else if s.beatState p ≠ .running ∧ s.beatState p ≠ .starting then u
    else if r < guardRate then
      if u.rail p + 5 ≤ u.maxRail p then u.setRail p (u.rail p + 5) else u.beatShort p r (s.beatState p) (s.nameAt p)
    else if r < max guardRate u.effTarget then (if u.rail p + 5 ≤ u.maxRail p then u.setRail p (u.rail p + 5) else u)
    else if max guardRate u.effTarget + 30 ≤ r then u.lowerRail p
    else u := by
  have hst : (match s.nameAt p with
      | some q => s.pstate (pgSq q 0)
      | none => .off) = s.beatState p := by
    unfold State.beatState
    cases s.nameAt p <;> rfl
  rw [← hst]
  rfl

/-- What a window's count does to the rail; that of a square neither RUNNING nor STARTING stays (assumption 117). -/
theorem State.rail_beatWindow (s : State) (p r : Nat) : (s.beatWindow p (some r)).rail p =
    if 2300 < r then stepDown (s.rail p)
    else if s.beatState p ≠ .running ∧ s.beatState p ≠ .starting then s.rail p
    else if r < max 1520 s.effTarget then stepUp (s.rail p) (s.maxRail p)
    else if max 1520 s.effTarget + 30 ≤ r then stepDown (s.rail p)
    else s.rail p := by
  rw [State.beatWindow_some]
  dsimp only
  rw [← s.rail_beatCounted p r, ← s.maxRail_beatCounted p r, ← s.effTarget_beatCounted p r]
  generalize s.beatCounted p r = u
  unfold guardRate
  split
  · exact u.rail_lowerRail p
  split
  · rfl
  split
  · next hr =>
    rw [if_pos (Nat.lt_of_lt_of_le hr (Nat.le_max_left _ _)), ← u.rail_stepUp]
    split
    · rfl
    · exact State.rail_congr (congrArg Arb.railSet (u.arb_beatShort _ _ _ _)) p
  split
  · exact u.rail_stepUp p _
  split
  · exact u.rail_lowerRail p
  · rfl

/-- A rate too low at the rail's bound shows on the square's SQ page (R96). -/
theorem State.beatWindow_signals {s : State} {p r : Nat} (h : r < 1499) (hm : s.maxRail p < s.rail p + 5)
    (hs : s.beatState p = .running) {q : Fin 64} (hq : s.nameAt p = some q.val) :
    ((s.beatWindow p (some r)).reg (pgSq q.val 0) hIntStatus).getLsbD 1 = true := by
  have hr : r < guardRate := by unfold guardRate; omega
  rw [← s.rail_beatCounted p r, ← s.maxRail_beatCounted p r] at hm
  rw [State.beatWindow_some]
  simp only [hs, hq, if_neg (show ¬ 2300 < r by omega), ne_eq, not_true_eq_false, false_and, if_false, if_pos hr,
    if_neg (Nat.not_le.2 hm)]
  exact State.beatShort_signals _ h q

/-- A window without a count: the rail is 0.8 V, and the failure shows on the PWR page (R502). -/
theorem State.beatWindow_none (s : State) (p : Nat) :
    (s.beatWindow p none).rail p = 800 ∧ ((s.beatWindow p none).reg pgPwr hIntStatus).getLsbD 7 = true := by
  have hbit (u : State) (n : Nat) : ((u.sensorFail 0 p).setRail p n |>.reg pgPwr hIntStatus).getLsbD 7 = true :=
    State.reg_statusAll_bit (u.record 7 0 (0 * 65536 + p) 1) (by decide) (by decide)
  generalize hu : ((s.setReg pgPwr (R.PWR_SQ + 4 * p) (wput (s.reg pgPwr (R.PWR_SQ + 4 * p)) 31 20 0)).sensorFail 0 p).setRail p 800 = u
  have hr : u.rail p = 800 := by rw [← hu]; exact State.rail_setRail _ _ _
  have hb : (u.reg pgPwr hIntStatus).getLsbD 7 = true := by rw [← hu]; exact hbit _ _
  have he : s.beatWindow p none = match s.nameAt p with
      | some q => u.unitFault q
      | none => u := by rw [← hu]; rfl
  rw [he]
  cases hq : s.nameAt p with
  | none => exact ⟨hr, hb⟩
  | some q =>
    exact ⟨(State.rail_congr (congrArg Arb.railSet (u.arb_unitFault q)) p).trans hr,
      (StatusKept.unitFault u ⟨q, State.nameAt_lt hq⟩).reg hb⟩

end Sys2Proof.Machine
end

section
/-!
PROOF. Temperatures and their points (R502, R510, R601, R603): what the entry into the safe state leaves alone, and a square diode's
sample in each of its cases.
-/

namespace Sys2Proof.Machine

open Sys2Proof

/-! ### What the entry into the safe state leaves alone (R583) -/

/-- `t` is `s` after work is lost, keys are destroyed and pages change: the sensors' registers, the power input's state and the
readings that are left out are as before. -/
structure SensorsKept (s t : State) : Prop where
  regs : ∀ k, k % 4096 ≠ hIntStatus → t.drs.regs.get regDefault k = s.drs.regs.get regDefault k
  diodeBad : t.arb.diodeBad = s.arb.diodeBad
  sys : t.sys = s.sys

namespace SensorsKept

theorem refl (s : State) : SensorsKept s s := ⟨fun _ _ => rfl, rfl, rfl⟩

theorem trans {a b c : State} (h : SensorsKept a b) (h' : SensorsKept b c) : SensorsKept a c :=
  ⟨fun k hk => (h'.regs k hk).trans (h.regs k hk), h'.diodeBad.trans h.diodeBad, h'.sys.trans h.sys⟩

theorem foldl {β : Type} (f : State → β → State) (h : ∀ s x, SensorsKept s (f s x)) (l : List β) (s : State) :
    SensorsKept s (l.foldl f s) := by
  induction l generalizing s with
  | nil => exact refl s
  | cons a t ih => exact (h s a).trans (ih _)

theorem ofEvents {s t : State} (h : PageEvents s t) : SensorsKept s t := by
  refine ⟨h.regs, ?_, ?_⟩ <;> rw [h.same]

theorem destroyKeys (s : State) : SensorsKept s s.destroyKeys := by
  have hk : SensorsKept s ((List.range s.regions).foldl State.cryptoErase { s with mem := { s.mem with keys := 0 } }) :=
    trans (b := { s with mem := { s.mem with keys := 0 } }) ⟨fun _ _ => rfl, rfl, rfl⟩
      (foldl State.cryptoErase (fun _ _ => ⟨fun _ _ => rfl, rfl, rfl⟩) _ _)
  unfold State.destroyKeys
  dsimp only
  generalize (List.range s.regions).foldl State.cryptoErase { s with mem := { s.mem with keys := 0 } } = u at hk ⊢
  refine hk.trans (trans (b := { u with pt := { u.pt with keys := emptyMap }, rot := { u.rot with eph := emptyMap } })
    ⟨fun _ _ => rfl, rfl, rfl⟩ (foldl _ (fun s n => ?_) _ _))
  split
  · exact refl s
  · exact ⟨fun _ _ => rfl, rfl, rfl⟩

end SensorsKept

/-- The entry into the safe state: of the sensors' registers and findings nothing changes. -/
theorem State.enterSafe_effect (s : State) (cause : Nat) :
    (s.enterSafe cause).sys.devState = .safe ∧ (s.enterSafe cause).sys.therm = s.sys.therm
    ∧ (s.enterSafe cause).sys.variant = s.sys.variant ∧ (s.enterSafe cause).arb.diodeBad = s.arb.diodeBad
    ∧ ∀ k, k % 4096 ≠ hIntStatus → (s.enterSafe cause).drs.regs.get regDefault k = s.drs.regs.get regDefault k := by
  unfold State.enterSafe
  split
  · next h => exact ⟨h, rfl, rfl, rfl, fun _ _ => rfl⟩
  · have h1 : SensorsKept s s.loseWork.destroyKeys := SensorsKept.trans (b := s.loseWork) ⟨fun _ _ => rfl, rfl, rfl⟩ (.destroyKeys _)
    dsimp only
    generalize s.loseWork.destroyKeys = u at h1 ⊢
    have h2 := h1.trans (SensorsKept.foldl State.darkPage (fun s pn => .ofEvents (PageEvents.toPage s pn _))
      (u.livePages.filter (fun pn => hasStates (blockAt pn) && decide (blockAt pn ≠ .hbr))) u)
    generalize (u.livePages.filter (fun pn => hasStates (blockAt pn) && decide (blockAt pn ≠ .hbr))).foldl State.darkPage u = v at h2 ⊢
    have h3 := h2.trans (SensorsKept.foldl (fun s k => s.haltPawn (k / 4) (k % 4)) (fun _ _ => ⟨fun _ _ => rfl, rfl, rfl⟩)
      v.squares.pawns.keys v)
    generalize v.squares.pawns.keys.foldl (fun s k => s.haltPawn (k / 4) (k % 4)) v = w at h3 ⊢
    exact ⟨rfl, congrArg Sys.therm h3.sys, congrArg Sys.variant h3.sys, h3.diodeBad, h3.regs⟩

/-! ### States that read alike -/

/-- Every temperature register and every reading left out of the comparison is the same in both states. -/
structure SameReadings (s t : State) : Prop where
  regs : ∀ off, R.PWR_SQ ≤ off → off < R.PWR_RAIL → t.reg pgPwr off = s.reg pgPwr off
  diodeBad : t.arb.diodeBad = s.arb.diodeBad
  variant : t.sys.variant = s.sys.variant

namespace SameReadings

variable {s t : State}

theorem trans {u : State} (h : SameReadings s t) (h' : SameReadings t u) : SameReadings s u :=
  ⟨fun off h1 h2 => (h'.regs off h1 h2).trans (h.regs off h1 h2), h'.diodeBad.trans h.diodeBad, h'.variant.trans h.variant⟩

theorem ofKeys (hr : ∀ k, k % 4096 ≠ hIntStatus → t.drs.regs.get regDefault k = s.drs.regs.get regDefault k)
    (hd : t.arb.diodeBad = s.arb.diodeBad) (hv : t.sys.variant = s.sys.variant) : SameReadings s t := by
  refine ⟨fun off h1 h2 => hr _ ?_, hd, hv⟩
  unfold R.PWR_SQ at h1
  unfold R.PWR_RAIL at h2
  unfold hIntStatus
  omega

theorem ofEvents (h : PageEvents s t) : SameReadings s t := by
  refine ofKeys h.regs ?_ ?_ <;> rw [h.same]

theorem sqTemp (h : SameReadings s t) {p : Nat} (hp : p < 72) : t.sqTemp p = s.sqTemp p := by
  unfold State.sqTemp
  rw [h.regs _ (by omega) (by unfold R.PWR_SQ R.PWR_RAIL; omega)]

theorem dieTemp (h : SameReadings s t) {i : Nat} (hi : i < 16) : t.dieTemp i = s.dieTemp i := by
  unfold State.dieTemp
  rw [h.regs _ (by unfold R.PWR_SQ R.PWR_DIE; omega) (by unfold R.PWR_DIE R.PWR_RAIL; omega)]

theorem bad (h : SameReadings s t) (p : Nat) : t.diodeBad p = s.diodeBad p := by
  unfold State.diodeBad
  rw [h.diodeBad]

end SameReadings

theorem State.diePresent_congr {s t : State} (h : t.sys.variant = s.sys.variant) (i : Nat) : t.diePresent i = s.diePresent i := by
  unfold State.diePresent State.stackFitted
  rw [h]

/-- The readings that are compared: the squares' whose diode works, and those of the dies present. -/
theorem State.mem_readings {s : State} {r : Nat × Int} : r ∈ s.readings ↔
    (∃ p < 72, s.diodeBad p = false ∧ r = (1, s.sqTemp p)) ∨ ∃ i < 16, s.diePresent i = true ∧ r = (dieRow i, s.dieTemp i) := by
  unfold State.readings
  simp only [List.mem_append, List.mem_map, List.mem_filter, List.mem_range, Bool.not_eq_true', and_assoc, eq_comm (b := r)]

/-- Each reading is one of the other state's, but for the square at `p`. -/
theorem State.readings_but {s t : State} {p : Nat} (hs : ∀ j < 72, j ≠ p → t.sqTemp j = s.sqTemp j ∧ t.diodeBad j = s.diodeBad j)
    (hd : ∀ i < 16, t.dieTemp i = s.dieTemp i) (hv : t.sys.variant = s.sys.variant) {r : Nat × Int} (h : r ∈ t.readings) :
    r = (1, t.sqTemp p) ∨ r ∈ s.readings := by
  rcases State.mem_readings.1 h with ⟨j, hj, hb, rfl⟩ | ⟨i, hi, hp, rfl⟩
  · by_cases hjp : j = p
    · exact .inl (by rw [hjp])
    · rw [(hs j hj hjp).1]
      exact .inr (State.mem_readings.2 (.inl ⟨j, hj, (hs j hj hjp).2 ▸ hb, rfl⟩))
  · rw [hd i hi]
    exact .inr (State.mem_readings.2 (.inr ⟨i, hi, State.diePresent_congr hv i ▸ hp, rfl⟩))

theorem SameReadings.readings_sub {s t : State} (h : SameReadings s t) {r : Nat × Int} (hr : r ∈ t.readings) : r ∈ s.readings := by
  rcases State.mem_readings.1 hr with ⟨j, hj, hb, rfl⟩ | ⟨i, hi, hp, rfl⟩
  · exact State.mem_readings.2 (.inl ⟨j, hj, h.bad j ▸ hb, by rw [h.sqTemp hj]⟩)
  · exact State.mem_readings.2 (.inr ⟨i, hi, State.diePresent_congr h.variant i ▸ hp, by rw [h.dieTemp hi]⟩)

/-! ### The points (R510, R601) -/

theorem State.assertTherm_effect (s : State) :
    s.assertTherm.sys = { s.sys with therm := true } ∧ SameReadings s s.assertTherm := by
  unfold State.assertTherm
  split
  · next h => exact ⟨by rw [← h], ⟨fun _ _ _ => rfl, rfl, rfl⟩⟩
  · exact ⟨State.statusAll_sys _ _ _, SameReadings.trans (t := { s with sys := { s.sys with therm := true } })
      ⟨fun _ _ _ => rfl, rfl, rfl⟩ (.ofEvents (PageEvents.statusAll _ _ _))⟩

/-- HOTTEST stands, and `THERM_N` is asserted where a warning point is exceeded. -/
def State.warned (s : State) : State :=
  let s1 := s.setReg pgPwr R.PWR_STATE (wput (s.reg pgPwr R.PWR_STATE) 7 0 (tempByte s.hottest))
  if s1.readings.any (fun r => decide (warnAt r.1 < r.2)) then s1.assertTherm else s1

theorem State.afterTemp_eq (s : State) : s.afterTemp =
    if s.warned.readings.any (fun r => decide (tripAt r.1 ≤ r.2)) then s.warned.assertTherm.enterSafe scThermal else s.warned := rfl

theorem State.warned_effect (s : State) : SameReadings s s.warned ∧ s.warned.sys.devState = s.sys.devState := by
  have h : SameReadings s (s.setReg pgPwr R.PWR_STATE (wput (s.reg pgPwr R.PWR_STATE) 7 0 (tempByte s.hottest))) :=
    ⟨fun off h1 _ => State.reg_setReg_other _ _ (by unfold R.PWR_SQ at h1; unfold R.PWR_STATE; omega), rfl, rfl⟩
  unfold State.warned
  dsimp only
  generalize hu : s.setReg pgPwr R.PWR_STATE (wput (s.reg pgPwr R.PWR_STATE) 7 0 (tempByte s.hottest)) = u at h ⊢
  have hd : u.sys.devState = s.sys.devState := by rw [← hu]; rfl
  split
  · exact ⟨h.trans u.assertTherm_effect.2, by rw [u.assertTherm_effect.1]; exact hd⟩
  · exact ⟨h, hd⟩

theorem SameReadings.enterSafe (s : State) (cause : Nat) : SameReadings s (s.enterSafe cause) := by
  obtain ⟨-, -, hv, hd, hr⟩ := s.enterSafe_effect cause
  exact .ofKeys hr hd hv

/-- Whatever the points lead to, the readings stand. -/
theorem SameReadings.afterTemp (s : State) : SameReadings s s.afterTemp := by
  rw [State.afterTemp_eq]
  split
  · exact (s.warned_effect.1.trans s.warned.assertTherm_effect.2).trans (.enterSafe _ _)
  · exact s.warned_effect.1

/-- While every reading is below its trip point, the device's state stays. -/
theorem State.afterTemp_cool {s : State} (h : ∀ r ∈ s.readings, r.2 < tripAt r.1) : s.afterTemp.sys.devState = s.sys.devState := by
  have hn : ¬ s.warned.readings.any (fun r => decide (tripAt r.1 ≤ r.2)) = true := by
    simp only [List.any_eq_true, decide_eq_true_eq, not_exists, not_and, Int.not_le]
    exact fun r hr => h r (s.warned_effect.1.readings_sub hr)
  rw [State.afterTemp_eq, if_neg hn]
  exact s.warned_effect.2

/-- A square at its trip point leads to the safe state and asserts `THERM_N`. -/
theorem State.afterTemp_trips {s : State} {p : Nat} (hp : p < 72) (hb : s.diodeBad p = false) (h : 115 ≤ s.sqTemp p) :
    s.afterTemp.sys.devState = .safe ∧ s.afterTemp.sys.therm = true := by
  have hw := s.warned_effect.1
  have ha : s.warned.readings.any (fun r => decide (tripAt r.1 ≤ r.2)) = true := by
    refine List.any_eq_true.2 ⟨_, State.mem_readings.2 (.inl ⟨p, hp, (hw.bad p).trans hb, rfl⟩), decide_eq_true ?_⟩
    rw [hw.sqTemp hp]
    exact h
  rw [State.afterTemp_eq, if_pos ha]
  obtain ⟨hs, ht, -⟩ := s.warned.assertTherm.enterSafe_effect scThermal
  exact ⟨hs, by rw [ht, s.warned.assertTherm_effect.1]⟩

/-! ### A square diode's sample (R502, R92) -/

/-- A diode's reading is within its range. -/
def diodeGood (x : Option Int) : Bool := x.any (fun t => decide (-40 ≤ t) && decide (t ≤ 150))

/-- What the diode's register shows: 125 °C for a reading outside the range, open or shorted. -/
def diodeReads (x : Option Int) : Int := if diodeGood x then x.getD 125 else 125

/-- The reading stands, with what it says of the diode. -/
def State.diodeTaken (s : State) (p : Nat) (x : Option Int) : State :=
  let o := R.PWR_SQ + 4 * p
  let s1 := s.setReg pgPwr o (wput (s.reg pgPwr o) 9 2 (tempByte (diodeReads x)))
  { s1 with arb := { s1.arb with
    diodeBad := s1.arb.diodeBad.set (fun _ => false) p (!diodeGood x)
    msTemp := s1.arb.msTemp.set (fun _ => 0) p (max (s1.arb.msTemp.get (fun _ => 0) p) (diodeReads x).toNat) } }

/-- A failed diode is signalled, and the rail keeps within its bound. -/
def State.diodeActed (s : State) (p : Nat) (x : Option Int) : State :=
  let s3 := if diodeGood x then s else s.sensorFail 1 p
  if s3.maxRail p < s3.rail p then s3.setRail p (s3.maxRail p) else s3

theorem State.sampleDiode_eq (s : State) (p : Nat) (x : Option Int) :
    s.sampleDiode p x = ((s.diodeTaken p x).diodeActed p x).afterTemp := rfl

theorem State.diodeActed_effect (s : State) (p : Nat) (x : Option Int) :
    SameReadings s (s.diodeActed p x) ∧ (s.diodeActed p x).sys = s.sys := by
  have h3 : SameReadings s (if diodeGood x then s else s.sensorFail 1 p) ∧ (if diodeGood x then s else s.sensorFail 1 p).sys = s.sys := by
    split
    · exact ⟨⟨fun _ _ _ => rfl, rfl, rfl⟩, rfl⟩
    · exact ⟨SameReadings.trans (t := s.record 7 0 (1 * 65536 + p) 1) ⟨fun _ _ _ => rfl, rfl, rfl⟩
        (.ofEvents (PageEvents.statusAll _ _ _)), State.statusAll_sys _ _ _⟩
  unfold State.diodeActed
  dsimp only
  generalize (if diodeGood x then s else s.sensorFail 1 p) = u at h3 ⊢
  split
  · exact ⟨h3.1.trans ⟨fun _ _ _ => rfl, rfl, rfl⟩, h3.2⟩
  · exact h3

theorem State.diodeBad_diodeTaken (s : State) (p : Nat) (x : Option Int) : (s.diodeTaken p x).diodeBad p = !diodeGood x :=
  FMap.get_set_same _ _ _ _

theorem State.sqTemp_diodeTaken (s : State) (p : Nat) {x : Option Int} (h0 : 0 ≤ diodeReads x) (h : diodeReads x ≤ 215) :
    (s.diodeTaken p x).sqTemp p = diodeReads x := by
  obtain ⟨hb, hlt⟩ := byteTemp_tempByte h0 h
  unfold State.sqTemp
  rw [show (s.diodeTaken p x).reg pgPwr (R.PWR_SQ + 4 * p) = _ from State.reg_setReg s _ _ _,
    wbits_wput_same _ (by decide) (by decide) hlt, hb]

theorem State.diodeBad_diodeTaken_other (s : State) {p j : Nat} (h : j ≠ p) (x : Option Int) :
    (s.diodeTaken p x).diodeBad j = s.diodeBad j := FMap.get_set_other _ _ _ h

/-- A sample concerns no other reading. -/
theorem State.readings_diodeTaken (s : State) {p : Nat} (hp : p < 72) (x : Option Int) {r : Nat × Int}
    (h : r ∈ (s.diodeTaken p x).readings) : r = (1, (s.diodeTaken p x).sqTemp p) ∨ r ∈ s.readings := by
  have hreg {off : Nat} (ho : off ≠ R.PWR_SQ + 4 * p) : (s.diodeTaken p x).reg pgPwr off = s.reg pgPwr off :=
    State.reg_setReg_other s _ (by omega)
  refine State.readings_but (fun j hj hjp => ⟨?_, s.diodeBad_diodeTaken_other hjp x⟩) (fun i hi => ?_) rfl h
  · exact congrArg (fun w => byteTemp (wbits w 9 2)) (hreg (by omega))
  · exact congrArg (fun w => byteTemp (wbits w 7 0)) (hreg (by unfold R.PWR_SQ R.PWR_DIE; omega))

/-- What a sample leaves: its reading, and whether its diode works. -/
theorem State.sampleDiode_reads (s : State) {p : Nat} (hp : p < 72) {x : Option Int} (h0 : 0 ≤ diodeReads x) (h : diodeReads x ≤ 215) :
    (s.sampleDiode p x).sqTemp p = diodeReads x ∧ (s.sampleDiode p x).diodeBad p = !diodeGood x := by
  rw [State.sampleDiode_eq]
  have hk := ((s.diodeTaken p x).diodeActed_effect p x).1.trans (SameReadings.afterTemp _)
  exact ⟨(hk.sqTemp hp).trans (s.sqTemp_diodeTaken p h0 h), (hk.bad p).trans (s.diodeBad_diodeTaken p x)⟩

/-- A cool sample among cool readings leaves the device's state. -/
theorem State.sampleDiode_cool {s : State} {p : Nat} (hp : p < 72) {x : Option Int} (h0 : 0 ≤ diodeReads x) (h : diodeReads x < 115)
    (hs : ∀ r ∈ s.readings, r.2 < tripAt r.1) : (s.sampleDiode p x).sys.devState = s.sys.devState := by
  obtain ⟨hk, hy⟩ := (s.diodeTaken p x).diodeActed_effect p x
  rw [State.sampleDiode_eq, State.afterTemp_cool fun r hr => ?_, hy]
  · rfl
  · rcases s.readings_diodeTaken hp x (hk.readings_sub hr) with rfl | hr
    · rw [s.sqTemp_diodeTaken p h0 (by omega)]
      exact h
    · exact hs r hr

/-- A working diode at the trip point leads to the safe state. -/
theorem State.sampleDiode_trips (s : State) {p : Nat} (hp : p < 72) {x : Option Int} (hg : diodeGood x = true) (h : 115 ≤ diodeReads x)
    (hx : diodeReads x ≤ 215) : (s.sampleDiode p x).sys.devState = .safe ∧ (s.sampleDiode p x).sys.therm = true := by
  have hk := ((s.diodeTaken p x).diodeActed_effect p x).1
  rw [State.sampleDiode_eq]
  refine State.afterTemp_trips hp ?_ ?_
  · rw [hk.bad p, s.diodeBad_diodeTaken, hg]
    rfl
  · rw [hk.sqTemp hp, s.sqTemp_diodeTaken p (by omega) hx]
    exact h

/-- A reading in the diode's range is its reading. -/
theorem diode_inRange {x : Int} (h0 : 0 ≤ x) (h : x ≤ 150) : diodeGood (some x) = true ∧ diodeReads (some x) = x := by
  have hg : diodeGood (some x) = true := by
    unfold diodeGood
    simp [h, show -40 ≤ x by omega]
  exact ⟨hg, if_pos hg⟩

end Sys2Proof.Machine
end

section
/-!
PROOF. The scoresheet's commit (R511 to R519, R527): the samples of the millisecond, the clears, the events that enter, the sequence
numbers; and O52.
-/

namespace Sys2Proof.Machine

open Sys2Proof

/-! ### The samples of the millisecond -/

/-- `t` is `s` with samples of the device itself waiting for the commit: they are partition 0's. -/
structure MsRecorded (s t : State) : Prop where
  drs : t.drs = s.drs
  entries : t.score.entries = s.score.entries
  seq : t.score.seq = s.score.seq
  clears : t.score.clears = s.score.clears
  buffer : ∀ e ∈ t.score.buffer, e ∈ s.score.buffer ∨ e.part = 0

namespace MsRecorded

theorem refl (s : State) : MsRecorded s s := ⟨rfl, rfl, rfl, rfl, fun _ h => .inl h⟩

theorem trans {a b c : State} (h : MsRecorded a b) (h' : MsRecorded b c) : MsRecorded a c :=
  ⟨h'.drs.trans h.drs, h'.entries.trans h.entries, h'.seq.trans h.seq, h'.clears.trans h.clears,
    fun e he => (h'.buffer e he).elim (h.buffer e) .inr⟩

theorem record (s : State) (kind x v : Nat) : MsRecorded s (s.record kind 0 x v) := by
  refine ⟨rfl, rfl, rfl, rfl, fun e he => ?_⟩
  rcases List.mem_append.1 he with h | h
  · exact .inl h
  · exact .inr (by rw [List.mem_singleton.1 h])

theorem foldl {β : Type} (f : State → β → State) (h : ∀ s x, MsRecorded s (f s x)) (l : List β) (s : State) :
    MsRecorded s (l.foldl f s) := by
  induction l generalizing s with
  | nil => exact refl s
  | cons a t ih => exact (h s a).trans (ih _)

theorem reach (s : State) (n : Nat) : MsRecorded s (s.reach n) := by
  unfold State.reach
  split
  · exact ⟨rfl, rfl, rfl, rfl, fun _ h => .inl h⟩
  · exact refl s

theorem recordMs (s : State) : MsRecorded s s.recordMs := by
  have h1 := foldl (fun s p => s.record 2 0 p (s.arb.msTemp.get (fun _ => 0) p)) (fun _ _ => record _ _ _ _) s.arb.msTemp.keys s
  unfold State.recordMs
  dsimp only
  generalize s.arb.msTemp.keys.foldl (fun s p => s.record 2 0 p (s.arb.msTemp.get (fun _ => 0) p)) s = u at h1 ⊢
  have h2 := h1.trans (foldl (fun s p => s.record 3 0 p (s.arb.msRate.get (fun _ => 65535) p)) (fun _ _ => record _ _ _ _)
    u.arb.msRate.keys u)
  generalize u.arb.msRate.keys.foldl (fun s p => s.record 3 0 p (s.arb.msRate.get (fun _ => 65535) p)) u = v at h2 ⊢
  exact h2.trans ⟨rfl, rfl, rfl, rfl, fun _ h => .inl h⟩

end MsRecorded

/-! ### Status bits of the SCR page -/

/-- A status bit of the SCR page, for each of the partitions. -/
def State.scrStatus (s : State) (bit : Nat) (ps : List (Fin 16)) : State := ps.foldl (fun s p => s.statusOne p pgScr bit) s

@[simp] theorem State.scrStatus_score (s : State) (bit : Nat) (ps : List (Fin 16)) : (s.scrStatus bit ps).score = s.score :=
  foldl_keeps State.score (fun s p => s.statusOne p pgScr bit) (fun s p => s.statusOne_score p pgScr bit) ps s

@[simp] theorem State.scrStatus_heartbeat (s : State) (bit : Nat) (ps : List (Fin 16)) :
    (s.scrStatus bit ps).reg pgArb R.ARB_HEARTBEAT = s.reg pgArb R.ARB_HEARTBEAT :=
  (PageEvents.foldl _ (fun s p => PageEvents.statusOne s p pgScr bit) ps s).regs _ (by decide)

/-! ### The clears (R518) -/

/-- A write of SCR_CLEAR has named the partition. -/
def Score.cleared (c : Score) (p : Fin 16) : Bool := c.clears.any (fun x => x.1 = p)

/-- An event's partition has been named after the event. -/
def Score.outdated (c : Score) (e : Event) : Bool := c.clears.any (fun x => x.1 = e.part && decide (e.stamp < x.2))

/-- The scoresheet once the clears are done. -/
def Score.clear (c : Score) : Score :=
  { c with
    entries := c.entries.filter (fun e => !c.cleared e.part)
    buffer := c.buffer.filter (fun e => !c.outdated e)
    clears := [] }

theorem Score.view_clear (c : Score) (p : Fin 16) : c.clear.view p = if c.cleared p then [] else c.view p := by
  unfold Score.view Score.clear
  dsimp only
  rw [List.filter_filter]
  split
  · next h =>
    refine List.filter_eq_nil_iff.2 fun e _ he => ?_
    simp only [Bool.and_eq_true, decide_eq_true_eq, Bool.not_eq_true'] at he
    rw [he.1, h] at he
    exact absurd he.2 (by decide)
  · next h =>
    refine List.filter_congr fun e _ => ?_
    by_cases hp : e.part = p
    · rw [hp, eq_false_of_ne_true h, Bool.not_false, Bool.and_true]
    · rw [decide_eq_false hp, Bool.false_and]

@[simp] theorem Score.clears_clear (c : Score) : c.clear.clears = [] := rfl

@[simp] theorem Score.seq_clear (c : Score) : c.clear.seq = c.seq := rfl

theorem Score.mem_buffer_clear {c : Score} {e : Event} (h : e ∈ c.clear.buffer) : e ∈ c.buffer := (List.mem_filter.1 h).1

theorem State.applyClears_eq (s : State) :
    s.applyClears = { s with score := s.score.clear }.scrStatus 5 (allParts.filter s.score.cleared) := rfl

theorem State.score_applyClears (s : State) : s.applyClears.score = s.score.clear := by
  rw [State.applyClears_eq, State.scrStatus_score]

/-! ### The events that enter (R511 to R513) -/

/-- Entries of one partition take a value; every other partition's stay. -/
theorem filter_part_map_add {f : Entry → Bool} {p q : Fin 16} (hf : ∀ e, f e = true → e.part = p) (h : q ≠ p) (x stamp : Nat)
    (l : List Entry) :
    (l.map (fun e => if f e then e.add x stamp else e)).filter (fun e => e.part = q) = l.filter (fun e => e.part = q) := by
  induction l with
  | nil => rfl
  | cons e t ih =>
    rw [List.map_cons, List.filter_cons, List.filter_cons, ih]
    by_cases he : f e = true
    · have hq : e.part ≠ q := fun hq => h (hq.symm.trans (hf e he))
      rw [if_pos he]
      simp [show (e.add x stamp).part = e.part from rfl, hq]
    · rw [if_neg he]

theorem filter_part_append {p q : Fin 16} (h : q ≠ p) (l : List Entry) {e : Entry} (he : e.part = p) :
    (l ++ [e]).filter (fun e => e.part = q) = l.filter (fun e => e.part = q) := by
  simp [List.filter_append, he, h.symm]

/-- An event changes the entries of its own partition alone. -/
theorem Score.enter_frame (c : Score) (kind : Nat) (p : Fin 16) (subject v stamp : Nat) :
    (c.enter kind p subject v stamp).2.buffer = c.buffer ∧ (c.enter kind p subject v stamp).2.clears = c.clears
    ∧ (c.enter kind p subject v stamp).2.seq = c.seq
    ∧ ∀ q, q ≠ p → (c.enter kind p subject v stamp).2.view q = c.view q := by
  unfold Score.enter Score.view
  dsimp only
  split
  · refine ⟨rfl, rfl, rfl, fun q h => filter_part_map_add (p := p) (fun e he => ?_) h _ _ _⟩
    simp only [Bool.and_eq_true, decide_eq_true_eq] at he
    exact he.1.2
  split
  · exact ⟨rfl, rfl, rfl, fun q h => filter_part_append h _ rfl⟩
  split
  · refine ⟨rfl, rfl, rfl, fun q h => filter_part_map_add (p := p) (fun e he => ?_) h _ _ _⟩
    simp only [Bool.and_eq_true, decide_eq_true_eq] at he
    exact he.2
  · exact ⟨rfl, rfl, rfl, fun q h => filter_part_append h _ rfl⟩

/-- Events enter one after another; the partitions whose overflow entry took one are noted. -/
def Score.enterAll (evs : List Event) (x : List (Fin 16) × Score) : List (Fin 16) × Score :=
  evs.foldl (fun x e =>
    let r := x.2.enter e.kind e.part e.subject e.value e.stamp
    (if r.1 then e.part :: x.1 else x.1, r.2)) x

theorem Score.enterAll_frame (evs : List Event) (x : List (Fin 16) × Score) :
    (Score.enterAll evs x).2.buffer = x.2.buffer ∧ (Score.enterAll evs x).2.clears = x.2.clears
    ∧ (Score.enterAll evs x).2.seq = x.2.seq
    ∧ ∀ q, (∀ e ∈ evs, e.part ≠ q) → (Score.enterAll evs x).2.view q = x.2.view q := by
  induction evs generalizing x with
  | nil => exact ⟨rfl, rfl, rfl, fun _ _ => rfl⟩
  | cons e t ih =>
    obtain ⟨hb, hc, hs, hv⟩ := x.2.enter_frame e.kind e.part e.subject e.value e.stamp
    obtain ⟨ib, ic, is, iv⟩ := ih (if (x.2.enter e.kind e.part e.subject e.value e.stamp).1 then e.part :: x.1 else x.1,
      (x.2.enter e.kind e.part e.subject e.value e.stamp).2)
    refine ⟨ib.trans hb, ic.trans hc, is.trans hs, fun q h => ?_⟩
    exact (iv q (fun e' he' => h e' (List.mem_cons_of_mem _ he'))).trans (hv q (h e (List.mem_cons_self ..)).symm)

/-- The buffered events have entered; with the scoresheet, the partitions whose overflow entry took one. -/
def Score.enterBuffer (c : Score) : List (Fin 16) × Score := Score.enterAll c.buffer ([], { c with buffer := [] })

theorem Score.enterBuffer_frame (c : Score) : c.enterBuffer.2.buffer = [] ∧ c.enterBuffer.2.clears = c.clears
    ∧ c.enterBuffer.2.seq = c.seq ∧ ∀ q, (∀ e ∈ c.buffer, e.part ≠ q) → c.enterBuffer.2.view q = c.view q :=
  Score.enterAll_frame c.buffer ([], { c with buffer := [] })

/-! ### The sequence numbers (R515) -/

/-- The sequence number of each partition whose entries have changed goes on by two. -/
def Score.advance (c : Score) (ps : List (Fin 16)) : Score :=
  ps.foldl (fun (c : Score) p =>
    { c with seq := c.seq.set (fun _ => 0) p.val ((c.seq.get (fun _ => 0) p.val + 2) % 2 ^ 32) }) c

theorem Score.advance_frame (c : Score) (ps : List (Fin 16)) : (c.advance ps).entries = c.entries
    ∧ (c.advance ps).buffer = c.buffer ∧ (c.advance ps).clears = c.clears
    ∧ ∀ p : Fin 16, p ∉ ps → (c.advance ps).seq.get (fun _ => 0) p.val = c.seq.get (fun _ => 0) p.val := by
  induction ps generalizing c with
  | nil => exact ⟨rfl, rfl, rfl, fun _ _ => rfl⟩
  | cons q t ih =>
    obtain ⟨he, hb, hc, hs⟩ := ih { c with
      seq := c.seq.set (fun _ => 0) q.val ((c.seq.get (fun _ => 0) q.val + 2) % 2 ^ 32) }
    refine ⟨he, hb, hc, fun p hp => (hs p fun h => hp (List.mem_cons_of_mem _ h)).trans ?_⟩
    exact FMap.get_set_other _ _ _ (fun e => hp (Fin.ext e ▸ List.mem_cons_self ..))

/-! ### The commit -/

/-- The millisecond has ended, and its samples wait. -/
def State.msEnded (s : State) : State := (s.reach ((s.now / 1000000 + 1) * 1000000)).recordMs

theorem MsRecorded.msEnded (s : State) : MsRecorded s s.msEnded := by
  unfold State.msEnded
  exact (MsRecorded.reach s _).trans (.recordMs _)

/-- The partitions whose entries a commit changes: those that SCR_CLEAR named, and those of the events that enter. -/
def State.commitParts (s : State) : List (Fin 16) :=
  allParts.filter (fun p => (s.score.clears.map (·.1)).contains p || s.applyClears.score.buffer.any (fun e => e.part = p))

/-- The commit of a millisecond that has ended. -/
def State.commitMs (s : State) : State :=
  let c := s.applyClears.score.enterBuffer
  (State.scrStatus { s.applyClears with score := c.2.advance s.commitParts } 4 (allParts.filter c.1.contains)).bump
    pgArb R.ARB_HEARTBEAT 1

/-- A commit ends the millisecond and commits it. Stated of the function, and with a name for the millisecond's end, so that nothing
evaluates the arithmetic of that end. -/
theorem State.commitScore_fun : State.commitScore = fun s => s.msEnded.commitMs := by
  delta State.commitScore
  funext s
  unfold State.msEnded
  obtain ⟨u, hu⟩ : ∃ u, u = (s.reach ((s.now / 1000000 + 1) * 1000000)).recordMs := ⟨_, rfl⟩
  rw [← hu]
  rfl

theorem State.commitScore_eq (s : State) : s.commitScore = s.msEnded.commitMs := congrFun State.commitScore_fun s

theorem State.score_commitMs (s : State) : s.commitMs.score = s.score.clear.enterBuffer.2.advance s.commitParts := by
  unfold State.commitMs
  dsimp only
  rw [State.bump_score, State.scrStatus_score, State.score_applyClears]

theorem State.commitMs_empties (s : State) : s.commitMs.score.buffer = [] ∧ s.commitMs.score.clears = [] := by
  obtain ⟨-, hb, hc, -⟩ := s.score.clear.enterBuffer.2.advance_frame s.commitParts
  obtain ⟨hb', hc', -⟩ := s.score.clear.enterBuffer_frame
  rw [s.score_commitMs, hb, hc, hb', hc', Score.clears_clear]
  exact ⟨rfl, rfl⟩

theorem State.commitMs_heartbeat (s : State) : s.commitMs.reg pgArb R.ARB_HEARTBEAT = s.reg pgArb R.ARB_HEARTBEAT + 1 := by
  have hr : s.applyClears.reg pgArb R.ARB_HEARTBEAT = s.reg pgArb R.ARB_HEARTBEAT := by
    rw [State.applyClears_eq, State.scrStatus_heartbeat]
    rfl
  unfold State.commitMs State.bump
  dsimp only
  rw [State.reg_setReg, State.scrStatus_heartbeat, ← hr]
  rfl

section

variable {s : State} {p : Fin 16} (h : ∀ e ∈ s.score.buffer, e.part ≠ p)
include h

/-- A partition without events keeps its entries, or loses them to a clear. -/
theorem State.view_commitMs : s.commitMs.score.view p = if s.score.cleared p then [] else s.score.view p := by
  obtain ⟨-, -, -, hv⟩ := s.score.clear.enterBuffer_frame
  obtain ⟨hent, -⟩ := s.score.clear.enterBuffer.2.advance_frame s.commitParts
  rw [← Score.view_clear, ← hv p fun e he => h e (Score.mem_buffer_clear he), s.score_commitMs]
  unfold Score.view
  rw [hent]

/-- One with neither event nor clear keeps its sequence number. -/
theorem State.seq_commitMs (hc : ∀ c ∈ s.score.clears, c.1 ≠ p) :
    s.commitMs.score.seq.get (fun _ => 0) p.val = s.score.seq.get (fun _ => 0) p.val := by
  obtain ⟨-, -, hs, -⟩ := s.score.clear.enterBuffer_frame
  obtain ⟨-, -, -, hadv⟩ := s.score.clear.enterBuffer.2.advance_frame s.commitParts
  have hp : p ∉ s.commitParts := by
    unfold State.commitParts
    rw [State.score_applyClears]
    simp only [List.mem_filter, Bool.or_eq_true, List.contains_iff_mem, List.mem_map, List.any_eq_true, decide_eq_true_eq, not_and,
      not_or, not_exists]
    exact fun _ => ⟨hc, fun e he => h e (Score.mem_buffer_clear he)⟩
  rw [s.score_commitMs, hadv p hp, hs, Score.seq_clear]

end

/-- The millisecond's own samples are no tenant's. -/
theorem MsRecorded.noEvents {s t : State} (h : MsRecorded s t) {p : Fin 16} (h0 : p ≠ 0) (hb : ∀ e ∈ s.score.buffer, e.part ≠ p) :
    ∀ e ∈ t.score.buffer, e.part ≠ p := fun e he hp =>
  (h.buffer e he).elim (fun h' => hb e h' hp) (fun h' => h0 (hp.symm.trans h'))

/-- They leave the entries and the clears of all as they were. -/
theorem MsRecorded.view {s t : State} (h : MsRecorded s t) (p : Fin 16) :
    (if t.score.cleared p then [] else t.score.view p) = if s.score.cleared p then [] else s.score.view p := by
  unfold Score.cleared Score.view
  rw [h.clears, h.entries]

/-! ### The rails' voltages (R501, R528) -/

theorem State.sample_rail {s : State} {index : Nat} {x : Int} (hi : index < 16) (h0 : 0 ≤ x) (hx : x < 65536) :
    ((wbits ((s.sample 7 index (some x)).reg pgPwr (R.PWR_RAIL + 4 * index)) 15 0 : Nat) : Int) = x := by
  obtain ⟨n, rfl⟩ := Int.eq_ofNat_of_zero_le h0
  have hn : n < 65536 := by omega
  have he : s.sample 7 index (some (n : Int)) = s.setReg pgPwr (R.PWR_RAIL + 4 * index)
      (wput (s.reg pgPwr (R.PWR_RAIL + 4 * index)) 15 0 (min n 65535)) := by
    unfold State.sample
    simp [hi]
  rw [he, State.reg_setReg, Nat.min_eq_left (by omega), wbits_wput_same _ (by decide) (by decide) hn]

/-! ### O52 -/

/-- Settles O52: each command's effect is what the lemmas above say in each of its cases, and the interrupts at its end change no
register of the PWR and ARB pages, no rail and no entry. -/
theorem powerPolicyAndScoresheet : Obligations.PowerPolicyAndScoresheet := by
  unfold Obligations.PowerPolicyAndScoresheet
  refine ⟨?cap, ?policy, ?windows, ?beats, ?sensors, ?release, ?clears, ?commit⟩
  case cap =>
    intro c v s halive hc
    have he := exec_capRequest hc
    refine ⟨fun h => ?_, fun h hm => ?_, fun h hm heq => ?_, fun h hm hne => ?_⟩
    · exact completes_of_done halive (he.trans (congrArg (done s) (State.capRequest_belowReserved h)))
    · exact completes_of_done halive (he.trans (congrArg (done s) (State.capRequest_aboveRating h hm)))
    · exact completes_of_done halive (he.trans (congrArg (done s) ((State.capRequest_taken h hm).trans (if_pos heq))))
    · exact completes_of_done halive (he.trans (congrArg (done s) ((State.capRequest_taken h hm).trans (if_neg hne))))
  case policy =>
    intro r v s halive hr
    have he := exec_pwrPolicy (v := v) hr
    refine ⟨fun h => ?_, fun h1 h2 => completesIn_of_done halive he fun t ht => ?_⟩
    · exact completes_of_done halive (he.trans (congrArg (done s) (State.setTarget_ignored _ h)))
    · rw [ht.regPwr (by decide), ht.effTarget]
      exact State.setTarget_taken _ (by omega)
  case windows =>
    intro dw s halive
    have he : exec (.powerCapWindow dw) s = done s (s.capWindow dw) := rfl
    refine ⟨fun h h1 => ?_, fun h h1 => completesIn_of_done halive he fun t ht => ?_, fun h h1 => ?_,
      fun h => completesIn_of_done halive he fun t ht => ?_⟩
    · exact completes_of_done halive (he.trans (congrArg (done s) (State.capWindow_lowers h h1)))
    · rw [State.capWindow_limits h h1] at ht
      obtain ⟨hd, heff, hs⟩ := (s.windowRead dw).limitDuty_effect
      rw [ht.effTarget, ht.arb]
      exact ⟨ht.duty.trans hd, heff.trans (s.effTarget_windowRead dw), hs⟩
    · exact completes_of_done halive (he.trans (congrArg (done s) (State.capWindow_rests h h1)))
    · rw [State.capWindow_lifts h] at ht
      obtain ⟨hs, hd⟩ := (s.windowRead dw).liftDuty_effect
      rw [ht.effTarget, ht.arb]
      refine ⟨hs, fun hn => ht.duty.trans (Eq.trans ?_ (hd hn)), State.effTarget_setReg _ ?_⟩
      · exact congrArg (wbits · 8 8) (State.reg_setReg_other _ _ (by decide))
      · exact Nat.lt_of_le_of_lt (Nat.min_le_left _ _) (wbits_lt _ 11 0)
  case beats =>
    intro p rate s halive
    refine ⟨fun hr => ?_, ?_⟩
    · have he : exec (.beatRateWindow p rate) s = done s (s.beatWindow p.val (some rate)) := by
        show done s (s.beatWindow p.val (if rate = 0 then none else some rate)) = _
        rw [if_neg (by omega)]
      refine completesIn_of_done halive he fun t ht => ?_
      rw [ht.rail, s.rail_beatWindow]
      refine ⟨fun h => if_pos h, fun h hn hs => (if_neg (Nat.not_lt.2 h)).trans (if_pos ⟨hn, hs⟩), fun h hs => ?_,
        fun h hm hs q hq x => ?_⟩
      · exact (if_neg (Nat.not_lt.2 h)).trans (if_neg (fun hn => hs.elim hn.1 hn.2))
      · have hlt := State.nameAt_lt hq
        rw [intBank_sq x ⟨q, hlt⟩, ← State.reg_eq_regB, ht.reg (sqStatus_key ⟨q, hlt⟩).2]
        exact State.beatWindow_signals (q := ⟨q, hlt⟩) h hm hs hq
    · refine completesIn_of_done halive (e := s.beatWindow p.val none) rfl fun t ht => ?_
      obtain ⟨hrail, hbit⟩ := s.beatWindow_none p.val
      refine ⟨(ht.rail _).trans hrail, fun x => ?_⟩
      rw [intBank_pwr, ← State.reg_eq_regB, ht.regPwr (by decide)]
      exact hbit
  case sensors =>
    intro index x s halive h0
    have he (hi : index < 72) (y : Option Int) : exec (.sensorSample 1 index y) s = done s (s.sampleDiode index y) := by
      show done s (s.sample 1 index y) = _
      unfold State.sample
      simp [hi]
    refine ⟨fun hi hx hs => completesIn_of_done halive (he hi _) fun t ht => ?_,
      fun hi hx hm => completesIn_of_done halive (he hi _) fun t ht => ?_,
      fun hi => completesIn_of_done halive (he hi _) fun t ht => ?_,
      fun hx hi => completesIn_of_done halive (e := s.sample 7 index (some x)) rfl fun t ht => ?_⟩
    · obtain ⟨hg, hv⟩ := diode_inRange h0 (by omega)
      obtain ⟨ht1, hb1⟩ := s.sampleDiode_reads hi (x := some x) (by omega) (by omega)
      rw [ht.sqTemp hi, ht.diodeBad, ht.sys, ht1, hb1, hg]
      refine ⟨hv, rfl, State.sampleDiode_cool hi (by omega) (by omega) fun r hr => ?_⟩
      exact of_decide_eq_true (List.all_eq_true.1 hs r hr)
    · obtain ⟨hg, hv⟩ := diode_inRange h0 hm
      rw [ht.sys]
      exact s.sampleDiode_trips hi hg (by omega) (by omega)
    · rw [ht.sqTemp hi, ht.diodeBad]
      exact s.sampleDiode_reads hi (x := none) (by decide) (by decide)
    · rw [ht.regPwr (by unfold R.PWR_RAIL; omega)]
      exact State.sample_rail hi h0 hx
  case release =>
    intro s halive
    refine ⟨fun h => completes_of_done halive (congrArg (done s) (if_pos h)),
      fun h => completes_of_done halive (congrArg (done s) (if_neg ?_))⟩
    rw [h]
    decide
  case clears =>
    intro r v s halive hr
    exact completes_of_done halive (congrArg (done s) (State.asWrite_allowed (fun s => s.scrClear v) s.present_scr hr))
  case commit =>
    intro s halive ha
    have he : exec .scoresheetCommit s = done s s.commitScore := congrArg (done s) (if_pos ha)
    refine completesIn_of_done halive he fun t ht => ?_
    obtain ⟨u, hm, hu⟩ : ∃ u, MsRecorded s u ∧ s.commitScore = u.commitMs := ⟨_, .msEnded s, s.commitScore_eq⟩
    rw [hu] at ht
    rw [ht.score, ht.reg (by decide)]
    obtain ⟨hb, hc⟩ := u.commitMs_empties
    refine ⟨hb, hc, u.commitMs_heartbeat.trans ?_, fun p hcl hbuf h0 => ⟨?_, ?_⟩, fun p h0 hcl hbuf => ?_⟩
    · unfold State.reg
      rw [hm.drs]
    · have hn : s.score.cleared p = false := by
        unfold Score.cleared
        simpa using hcl
      rw [State.view_commitMs (hm.noEvents h0 hbuf), hm.view, hn]
      rfl
    · rw [State.seq_commitMs (hm.noEvents h0 hbuf) (by rw [hm.clears]; exact hcl), hm.seq]
    · have hy : s.score.cleared p = true := by
        unfold Score.cleared
        simpa using hcl
      rw [State.view_commitMs (hm.noEvents h0 hbuf), hm.view, hy]
      rfl

end Sys2Proof.Machine
end
